-- ==== Sys2Proof/Word.lean ====
section
/-! DEFINITION. The word types of the CM-330 model: the byte of every memory, and the 16-, 32- and 64-bit fields of the layouts of chapter 10. -/

namespace Sys2Proof

/-- One byte of system memory, local memory, flash or a port. -/
abbrev Byte := BitVec 8

/-- A 16-bit field (u16 or s16 of chapter 10). -/
abbrev Half := BitVec 16

/-- A 32-bit field: registers, tokens, counts, detail words, colours. -/
abbrev Word := BitVec 32

/-- A 64-bit field: system-memory addresses and cabin times. -/
abbrev Dword := BitVec 64

end Sys2Proof
end

