-- ==== Sys2Proof/Syntax.lean ====
section
/-! DEFINITION. The commands of the CM-330: one constructor of `Instr` for each row of spec/opcode_table.json, with the operands
the row's rule gives it. The table gives no row a bit pattern and no field, so every operand is typed here: the parameters of a
request have the widths of Table 10-5, and the data that an outside agent brings (line bits, camera bytes, completion data, flash
bytes) is carried by the command that brings it. -/

namespace Sys2Proof

/-- The three pipes of Table 4-1. -/
inductive PipeId where
  | centre | rearL | rearR
  deriving DecidableEq, Repr

/-- The two film streams (chapter 5): code 0 for A, 1 for B. -/
inductive StreamId where
  | a | b
  deriving DecidableEq, Repr

/-- The two kinds of frame on the Vehicle Signal Line (1.1). -/
inductive VslKind where
  | motion | parkAssist
  deriving DecidableEq, Repr

/-- Where a request record lies: the index and the sequence of its request page, and its byte offset in the page (8.4, R177). -/
structure RecordRef where
  page : Nat
  seq  : Word
  off  : Nat
  deriving DecidableEq, Repr

/-- Parameters of SET_PIPE_TIMING (Table 10-5). -/
structure TimingParams where
  pipe : Byte
  rate : Byte
  activeW : Half
  activeH : Half
  totalW  : Half
  totalH  : Half
  deriving DecidableEq, Repr

/-- One plane entry of SET_SCENE (Table 10-6). -/
structure PlaneEntry where
  kind   : Byte
  alpha  : Byte
  flags  : Byte
  x      : Half
  y      : Half
  width  : Half
  height : Half
  stride : Word
  addr   : Dword
  colour : Word
  deriving DecidableEq, Repr

/-- Parameters of SET_SCENE: `planes` are the whole plane entries the record holds, `count` is its count field. -/
structure SceneParams where
  pipe     : Byte
  count    : Byte
  backdrop : Word
  planes   : List PlaneEntry
  deriving DecidableEq, Repr

/-- Parameters of OPEN_STREAM. -/
structure OpenParams where
  stream : Byte
  format : Byte
  pacing : Byte
  width  : Half
  height : Half
  deriving DecidableEq, Repr

/-- Parameters of QUEUE_FRAME. -/
structure FrameParams where
  stream : Byte
  token  : Word
  luma   : Dword
  chroma : Dword
  stride : Word
  time   : Dword
  deriving DecidableEq, Repr

/-- Parameters of QUEUE_AUDIO; the length is in stereo sample frames. -/
structure AudioParams where
  stream : Byte
  token  : Word
  addr   : Dword
  len    : Word
  deriving DecidableEq, Repr

/-- Parameters of SET_VIEW_POLICY. -/
structure PolicyParams where
  exitDelay   : Half
  exitSpeed   : Half
  manualLimit : Half
  chimeEnable : Byte
  deriving DecidableEq, Repr

/-- The four source codes and the master code of one output, as SET_MIX carries them. -/
structure MixCodes where
  filmA  : Byte
  filmB  : Byte
  ui     : Byte
  chime  : Byte
  master : Byte
  deriving DecidableEq, Repr

/-- Parameters of SET_MIX: the fifteen codes. -/
structure MixParams where
  cabin : MixCodes
  headA : MixCodes
  headB : MixCodes
  deriving DecidableEq, Repr

/-- One chime step as a record or the settings image holds it (Table 10-7). -/
structure StepEntry where
  freq  : Half
  dur   : Half
  level : Byte
  deriving DecidableEq, Repr

/-- Parameters of DEFINE_CHIME: `steps` are the whole step entries the record holds, `count` is its count field. -/
structure ChimeParams where
  entry    : Byte
  count    : Byte
  cls      : Byte
  priority : Byte
  duck     : Byte
  repeats  : Byte
  flags    : Byte
  steps    : List StepEntry
  deriving DecidableEq, Repr

/-- Parameters of LOAD_SOUND; the length is in mono samples. -/
structure LoadParams where
  entry : Byte
  len   : Word
  addr  : Dword
  deriving DecidableEq, Repr

/-- Parameters of SET_NOTICE. -/
structure NoticeParams where
  selector : Byte
  enable   : Byte
  mask     : Byte
  deriving DecidableEq, Repr

/-- Parameters of WRITE_SETTINGS. -/
structure WriteParams where
  addr : Dword
  len  : Word
  deriving DecidableEq, Repr

/-- A request as WAI hands it to its owner: the kinds of Table 8-6 with their parameters (Table 10-5). -/
inductive Request where
  | setPipeTiming (p : TimingParams)
  | pipeOff (pipe : Byte)
  | restartPipe (pipe : Byte)
  | setScene (p : SceneParams)
  | openStream (p : OpenParams)
  | queueFrame (p : FrameParams)
  | queueAudio (p : AudioParams)
  | flushStream (stream : Byte)
  | closeStream (stream : Byte)
  | viewRequest (mode : Byte)
  | setViewPolicy (p : PolicyParams)
  | cameraTest (mode : Byte)
  | setMix (p : MixParams)
  | defineChime (p : ChimeParams)
  | playChime (number : Byte)
  | cancelChime (number : Byte)
  | loadSound (p : LoadParams)
  | playSound (entry : Byte)
  | setNotice (p : NoticeParams)
  | writeSettings (p : WriteParams)
  | readSettings (addr : Dword)
  deriving DecidableEq, Repr

/-- The commands of the part: one constructor for each row of spec/opcode_table.json, in the table's order. A request row carries
the place of its record, where its answer goes (R176), and the parameters of its record. -/
inductive Instr where
  /-- R18: RESET rises; the raw level of REV_IN at that moment (R12). -/
  | powerOnReset (revIn : Bool)
  /-- R169. -/
  | linkReset
  /-- R5: the bits the line brings, up to the last check bit of a good MOTION frame. -/
  | motionFrame (bits : List Bool)
  /-- R6: the bits the line brings, up to the last check bit of a good PARK_ASSIST frame. -/
  | parkAssistFrame (bits : List Bool)
  /-- R7: the bits the line brings, up to the bit at which a frame error is found. -/
  | frameError (bits : List Bool)
  /-- R9. -/
  | freshnessDeadline (kind : VslKind)
  /-- R12: the raw level after the edge. -/
  | revInEdge (level : Bool)
  /-- R12. -/
  | holdTimer
  /-- R14. -/
  | disagreementTimer
  /-- R16: the two sense lines. -/
  | supplySample (senseLo senseHi : Bool)
  /-- R24. -/
  | frameStart
  /-- R21. -/
  | lineStart
  /-- R23. -/
  | lineEnd
  /-- R21. -/
  | frameEnd
  /-- R20: the code byte after the prefix, which is none of Table 2-1. -/
  | invalidCode (code : Byte)
  /-- R26. -/
  | frameStartDeadline
  /-- R34. -/
  | testFrameStart
  /-- R34. -/
  | testFrameEnd
  /-- R35. -/
  | cameraTest (ref : RecordRef) (mode : Byte)
  /-- R43. -/
  | viewRequest (ref : RecordRef) (mode : Byte)
  /-- R41. -/
  | setViewPolicy (ref : RecordRef) (params : PolicyParams)
  /-- R46. -/
  | startTimer
  /-- R49. -/
  | exitTimer
  /-- R71. -/
  | setPipeTiming (ref : RecordRef) (params : TimingParams)
  /-- R74. -/
  | pipeOff (ref : RecordRef) (pipe : Byte)
  /-- R75. -/
  | restartPipe (ref : RecordRef) (pipe : Byte)
  /-- R79. -/
  | setScene (ref : RecordRef) (params : SceneParams)
  /-- R73. -/
  | pipeVblank (pipe : PipeId)
  /-- R91. -/
  | outputLine (pipe : PipeId)
  /-- R95. -/
  | openStream (ref : RecordRef) (params : OpenParams)
  /-- R96. -/
  | queueFrame (ref : RecordRef) (params : FrameParams)
  /-- R103. -/
  | queueAudio (ref : RecordRef) (params : AudioParams)
  /-- R108. -/
  | flushStream (ref : RecordRef) (stream : Byte)
  /-- R110. -/
  | closeStream (ref : RecordRef) (stream : Byte)
  /-- R115. -/
  | outputSampleInstant
  /-- R119. -/
  | rampBlock
  /-- R117. -/
  | setMix (ref : RecordRef) (params : MixParams)
  /-- R122. -/
  | duckHoldTimer
  /-- R124. -/
  | defineChime (ref : RecordRef) (params : ChimeParams)
  /-- R132. -/
  | playChime (ref : RecordRef) (number : Byte)
  /-- R133. -/
  | cancelChime (ref : RecordRef) (number : Byte)
  /-- R138. -/
  | loadSound (ref : RecordRef) (params : LoadParams)
  /-- R140. -/
  | playSound (ref : RecordRef) (entry : Byte)
  /-- R125. -/
  | toneStepEnd
  /-- R126. -/
  | releaseTailEnd
  /-- R136. -/
  | cadenceDecisionPoint
  /-- R136. -/
  | cadenceCycleEnd
  /-- R147. -/
  | systemPortGrant
  /-- R151. -/
  | localPortGrant
  /-- R150: the place of the unit among the port's 16, the completion status, and the data. -/
  | readCompletion (place : Nat) (ok : Bool) (data : List Byte)
  /-- R151. -/
  | localUnitCompletion
  /-- R154. -/
  | unitTimeout (place : Nat)
  /-- R154. -/
  | timeoutPlaceRelease (place : Nat)
  /-- R163. -/
  | attach
  /-- R166. -/
  | detach
  /-- R171. -/
  | scanNow
  /-- R197: the offset in the register window and the bytes written from there on. -/
  | registerWrite (offset : Nat) (bytes : List Byte)
  /-- R160, R197: the offset in the register window and the number of bytes of a read that takes in a byte of TIME_LO. -/
  | timeLoRead (offset count : Nat)
  /-- R171. -/
  | scanPeriodTimer
  /-- R182. -/
  | msiIntervalTimer
  /-- R183. -/
  | setNotice (ref : RecordRef) (params : NoticeParams)
  /-- R188: the 1024 bytes the flash returned. -/
  | settingsLoad (image : List Byte)
  /-- R190. -/
  | writeSettings (ref : RecordRef) (params : WriteParams)
  /-- R195. -/
  | readSettings (ref : RecordRef) (addr : Dword)
  /-- R191. -/
  | readyWaitDone
  /-- R191. -/
  | readyWaitTimeout
  /-- R191. -/
  | eraseComplete
  /-- R191. -/
  | eraseTimeout
  /-- R191. -/
  | pageProgramComplete
  /-- R191. -/
  | programTimeout
  /-- R192: the 1024 bytes read back. -/
  | verifyReadComplete (bytes : List Byte)
  /-- R195: the 1024 bytes the flash returned. -/
  | flashReadComplete (bytes : List Byte)
  /-- R21. -/
  | pixelByte (byte : Byte)
  /-- R2: the bits the line brings in SKIP, up to the 1 that follows five ones. -/
  | returnToRest (bits : List Bool)
  deriving DecidableEq, Repr

end Sys2Proof
end

