-- ==== Sys2Proof/WellFormed.lean ====
section
/-! DEFINITION. Which terms of `Instr` are commands: the checks on operands whose type is wider than what can arrive. A request's
own parameters are NOT checked here: a value the spec refuses is a command, and its owner refuses it. -/

namespace Sys2Proof

/-- A record lies in one of at most 32 pages (R164), behind the 16-byte header, at a multiple of 4 (R175), with room for its
8-byte envelope below byte 1024 (8.4). -/
def RecordRef.wf (r : RecordRef) : Bool :=
  r.page < 32 && 16 ≤ r.off && r.off ≤ 1016 && r.off % 4 == 0

/-- The four codes of Table 2-1. -/
def isCameraCode (b : Byte) : Bool :=
  b == 0xB6 || b == 0xC9 || b == 0xDA || b == 0xE5

/-- The commands proper. -/
def Instr.wf : Instr → Bool
  | .motionFrame bits => !bits.isEmpty
  | .parkAssistFrame bits => !bits.isEmpty
  | .frameError bits => !bits.isEmpty
  | .returnToRest bits => !bits.isEmpty
  | .invalidCode code => !isCameraCode code
  | .cameraTest r _ => r.wf
  | .viewRequest r _ => r.wf
  | .setViewPolicy r _ => r.wf
  | .setPipeTiming r _ => r.wf
  | .pipeOff r _ => r.wf
  | .restartPipe r _ => r.wf
  | .setScene r p => r.wf && p.planes.length ≤ 31
  | .openStream r _ => r.wf
  | .queueFrame r _ => r.wf
  | .queueAudio r _ => r.wf
  | .flushStream r _ => r.wf
  | .closeStream r _ => r.wf
  | .setMix r _ => r.wf
  | .defineChime r p => r.wf && p.steps.length ≤ 124
  | .playChime r _ => r.wf
  | .cancelChime r _ => r.wf
  | .loadSound r _ => r.wf
  | .playSound r _ => r.wf
  | .setNotice r _ => r.wf
  | .writeSettings r _ => r.wf
  | .readSettings r _ => r.wf
  | .readCompletion place _ data => place < 16 && data.length ≤ 512
  | .unitTimeout place => place < 16
  | .timeoutPlaceRelease place => place < 16
  | .registerWrite offset bytes => !bytes.isEmpty && offset + bytes.length ≤ 4096
  | .timeLoRead offset count => offset < 0x18 && 0x14 < offset + count && offset + count ≤ 4096
  | .settingsLoad image => image.length == 1024
  | .verifyReadComplete bytes => bytes.length == 1024
  | .flashReadComplete bytes => bytes.length == 1024
  | .powerOnReset _ => true
  | .linkReset => true
  | .freshnessDeadline _ => true
  | .revInEdge _ => true
  | .holdTimer => true
  | .disagreementTimer => true
  | .supplySample _ _ => true
  | .frameStart => true
  | .lineStart => true
  | .lineEnd => true
  | .frameEnd => true
  | .frameStartDeadline => true
  | .testFrameStart => true
  | .testFrameEnd => true
  | .startTimer => true
  | .exitTimer => true
  | .pipeVblank _ => true
  | .outputLine _ => true
  | .outputSampleInstant => true
  | .rampBlock => true
  | .duckHoldTimer => true
  | .toneStepEnd => true
  | .releaseTailEnd => true
  | .cadenceDecisionPoint => true
  | .cadenceCycleEnd => true
  | .systemPortGrant => true
  | .localPortGrant => true
  | .localUnitCompletion => true
  | .attach => true
  | .detach => true
  | .scanNow => true
  | .scanPeriodTimer => true
  | .msiIntervalTimer => true
  | .readyWaitDone => true
  | .readyWaitTimeout => true
  | .eraseComplete => true
  | .eraseTimeout => true
  | .pageProgramComplete => true
  | .programTimeout => true
  | .pixelByte _ => true

end Sys2Proof
end

