-- ==== Sys2Proof/Decode.lean ====
section
/-! DEFINITION. Reading commands. The opcode table gives no row a bit pattern, so that no word spells a command; what the spec does
spell in bytes are the codes of the camera port (R20, Table 2-1), and their commands are read here. -/

namespace Sys2Proof

/-- The command that a word spells by the table's bits: none, for the table gives no row any bits. -/
def decodeTableWord (_nbits _w : Nat) : Option Instr := none

/-- Table 2-1: the command of a code byte; any other value is an invalid code (R20). -/
def codeCommand (b : Byte) : Instr :=
  if b = 0xB6 then .frameStart
  else if b = 0xC9 then .lineStart
  else if b = 0xDA then .lineEnd
  else if b = 0xE5 then .frameEnd
  else .invalidCode b

/-- Whether bytes at the end of a string may be the beginning of a code. -/
def isPrefix : List Byte → Bool
  | [a] => a == 0xFF
  | [a, b] => a == 0xFF && b == 0
  | [a, b, c] => a == 0xFF && b == 0 && c == 0
  | _ => false

/-- R20: the commands of the camera port's byte stream, in order, and the bytes at its end that may begin a code. -/
def portCommands : List Byte → List Instr × List Byte
  | [] => ([], [])
  | a :: t =>
    if isPrefix (a :: t) then ([], a :: t)
    else match t with
      | b :: c :: d :: u =>
        if a = 0xFF ∧ b = 0 ∧ c = 0 then
          let r := portCommands u
          (codeCommand d :: r.1, r.2)
        else
          let r := portCommands (b :: c :: d :: u)
          (.pixelByte a :: r.1, r.2)
      | t =>
        let r := portCommands t
        (.pixelByte a :: r.1, r.2)

end Sys2Proof
end

