-- ==== Sys2Proof/Config.lean ====
section
/-! DEFINITION. What an implementation fixes and the spec does not: what a byte of the local SDRAM that nothing has written reads as;
and the one free value of the model, a byte of system memory that the part shows without a transfer that brings it. -/

namespace Sys2Proof

/-- DESIGN CHOICE, unsafe (log entry 3): a byte of local memory that nothing has written reads as 0x00. -/
def Config.unwrittenByte : Byte := 0

/-- A FREE VALUE (log entry 14): the byte that system memory holds at an address when an output line begins; the line is named by its
number among all of the machine's. System memory is the host's, and the model does not hold its contents (log entry 5). It serves
R86 where the block of a film pixel lies beyond the chroma range of R145. -/
opaque Config.hostByte (drawn addr : Nat) : Byte

end Sys2Proof
end

