-- ==== Sys2Proof/Machine/Types.lean ====
section
/-! DEFINITION. The data types of the twelve blocks' state (Table 0-2), block by block. Times are cabin times in whole µs (3.2)
unless a field's name ends in `Ns`; `State.clockNs` says why a time is a natural number (log entry 1). Fields that are the
model's own, and not the spec's, say so. -/

namespace Sys2Proof.Machine

/-- Byte memory: address and byte pairs, addresses strictly rising, no entry that an unlisted address would read as. -/
abbrev Memory := List Host.Cell

/-- One value for each pipe. -/
structure PerPipe (α : Type) where
  centre : α
  rearL  : α
  rearR  : α
  deriving DecidableEq, Repr

/-- One value for each film stream. -/
structure PerStream (α : Type) where
  a : α
  b : α
  deriving DecidableEq, Repr

/-- The three audio outputs (Table 6-1). -/
inductive OutputId where
  | cabin | headA | headB
  deriving DecidableEq, Repr

/-- One value for each audio output. -/
structure PerOutput (α : Type) where
  cabin : α
  headA : α
  headB : α
  deriving DecidableEq, Repr

/-! ## Requests and notices -/

/-- Table 8-3. -/
inductive Major where
  | notYet | done | doneAdjusted | refusedInvalid | refusedState | failed | pending
  deriving DecidableEq, Repr

/-- Table 8-4. -/
inductive Minor where
  | none | envelope | kind | length | range | address | tooMany | tokenOrder | queueFull | notOpen | closing | isOpen
  | viewActive | speed | busy | noTiming | inUse | internal | empty | noRoom | pipeOff | fetch | image | verify
  deriving DecidableEq, Repr

/-- A status: a MAJOR/MINOR pair (3.5). -/
structure Status where
  major : Major
  minor : Minor
  deriving DecidableEq, Repr

/-- The answer to a record: its status and its result count (R176). -/
structure Answer where
  status : Status
  count  : Nat
  deriving DecidableEq, Repr

/-- A long request that its owner holds: the place of its record, or none once its page was abandoned (R167, R179). -/
structure LongReq where
  ref : Option RecordRef
  deriving DecidableEq, Repr

/-- The twenty notice kinds of Table 8-7, in slot order. -/
inductive NoticeKind where
  | reverseChange | viewChange | cameraLockChange | cameraFrozen | vslKindChange | vslFrameError | reverseDisagree
  | supplyChange | pipeStateChange | pipeUnderflow | fetchFault | filmStarved | filmAudioUnderrun | chimeDropped
  | chimeFinished | pendingDone | pageSequenceFault | settingsState | cameraTestEnd | guideState
  deriving DecidableEq, Repr

/-- One entry of the slot table (R180); its kind is its place in the table. -/
structure Slot where
  count  : Word
  time   : Dword
  d0     : Word
  d1     : Word
  enable : Bool
  mask   : Bool
  dirty  : Bool
  deriving DecidableEq, Repr

/-! ## Vehicle Signal Receiver -/

/-- R7, in the code order of Table 1-2. -/
inductive VslError where
  | badStart | shortFrame | badCheck | unknownKind | range
  deriving DecidableEq, Repr

/-- The reception states of Table 1-1 with what each keeps: the run count of HUNT (R1), which pattern bit START awaits, and, inside
a frame, the bits collected, the check register (R4) and the insertion count (R2). -/
inductive Rx where
  | hunt (run : Nat)
  | start (third : Bool)
  | header (got : List Bool) (crc : Byte) (ins : Nat)
  | payload (hdr : Byte) (need : Nat) (got : List Bool) (crc : Byte) (ins : Nat)
  | skip (ins : Nat)
  deriving DecidableEq, Repr

/-- R7: the five error counts. -/
structure ErrorCounts where
  badStart    : Word
  shortFrame  : Word
  badCheck    : Word
  unknownKind : Word
  range       : Word
  deriving DecidableEq, Repr

/-- R5. -/
inductive Gear where
  | p | r | n | d | unknown
  deriving DecidableEq, Repr

/-- The MOTION part of the vehicle state record (Table 1-4). -/
structure MotionPart where
  gear          : Gear
  speed         : Nat
  steering      : Int
  speedValid    : Bool
  steeringValid : Bool
  seq           : BitVec 4
  arrival       : Dword
  deriving DecidableEq, Repr

/-- The PARK_ASSIST part of the vehicle state record (Table 1-4). -/
structure ParkPart where
  leftOuter  : Byte
  leftInner  : Byte
  rightInner : Byte
  rightOuter : Byte
  seq        : BitVec 4
  arrival    : Dword
  deriving DecidableEq, Repr

/-- 1.2. -/
inductive Fresh where
  | none | acquiring | valid | stale
  deriving DecidableEq, Repr

/-- What VSR keeps for each kind (1.2). -/
structure Freshness where
  st       : Fresh
  run      : Nat
  lastSeq  : BitVec 4
  breaks   : Word
  deadline : Option Nat
  deriving DecidableEq, Repr

/-- The Vehicle Signal Receiver (R18). -/
structure Vsr where
  rx          : Rx
  errors      : ErrorCounts
  motion      : MotionPart
  park        : ParkPart
  motionFresh : Freshness
  parkFresh   : Freshness
  /-- R12: the raw level of REV_IN, as the last edge left it. -/
  rawRev      : Bool
  debRev      : Bool
  hold        : Option Nat
  reverse     : Bool
  parked      : Bool
  /-- R14: whether a disagreement episode is in progress. -/
  episode     : Bool
  disTimer    : Option Nat
  deriving DecidableEq, Repr

/-! ## Supply Monitor -/

/-- The Supply Monitor (R16, R17). `nextSample` is when the next 2 ms sample falls. -/
structure Smn where
  low        : Bool
  lowRun     : Nat
  highRun    : Nat
  entry      : Nat
  nextSample : Nat
  deriving DecidableEq, Repr

/-! ## Camera Input -/

/-- 2.4. -/
inductive CamStream where
  | absent | acquiring | locked | lost
  deriving DecidableEq, Repr

/-- 2.5. -/
inductive BufState where
  | free | filling | ready | shown
  deriving DecidableEq, Repr

/-- Table 2-2. -/
inductive FaultCause where
  | lineLength | lineCount | badCode | codeOrder | cut
  deriving DecidableEq, Repr

/-- R33. -/
inductive CamSource where
  | port | test
  deriving DecidableEq, Repr

/-- The three camera buffers' states, and the captured size of the frame each holds. -/
structure CamBuf where
  st : BufState
  w  : Nat
  h  : Nat
  deriving DecidableEq, Repr

/-- The frame in progress (R21 to R23): its FILLING buffer, its captured size and mirror flag (R22), the lines complete, the line
store while inside a line, the signature so far (R31), and whether its FRAME_END has come and its last line is still being written. -/
structure CamFrame where
  buf    : Nat
  w      : Nat
  h      : Nat
  mirror : Bool
  lines  : Nat
  store  : Option (List Byte)
  sig    : Nat
  ended  : Bool
  deriving DecidableEq, Repr

/-- The Camera Input (Table 2-7). -/
structure Cin where
  source    : CamSource
  stream    : CamStream
  deadline  : Option Nat
  goodRun   : Nat
  badRun    : Nat
  buf0      : CamBuf
  buf1      : CamBuf
  buf2      : CamBuf
  lastSig   : Nat
  sameRun   : Nat
  frozen    : Bool
  good      : Word
  malformed : Word
  lastFault : Option FaultCause
  capW      : Nat
  capH      : Nat
  testEntry : Nat
  frame     : Option CamFrame
  /-- R34: when the generator's next FRAME_START falls. -/
  nextTest  : Nat
  /-- R34: when the generated frame in progress ends. -/
  testEnd   : Nat
  deriving DecidableEq, Repr

/-! ## View Controller and Guide Line Generator -/

/-- Table 3-1. -/
inductive ViewState where
  | off | starting | live | noSignal | exitHold
  deriving DecidableEq, Repr

/-- Table 3-4. -/
inductive ViewCause where
  | reverseOn | reverseOff | requestOn | requestOff | cameraReady | startTimeout | cameraLost | cameraFrozen | exitDelay
  | exitSpeed | manualSpeed
  deriving DecidableEq, Repr

/-- Table 3-2. -/
structure Policy where
  exitDelay   : Nat
  exitSpeed   : Nat
  manualLimit : Nat
  chimeEnable : Bool
  deriving DecidableEq, Repr

/-- The View Controller (R39). -/
structure Vwc where
  view       : ViewState
  manual     : Bool
  startTimer : Option Nat
  exitTimer  : Option Nat
  policy     : Policy
  deriving DecidableEq, Repr

/-- R60. -/
inductive GuideMode where
  | none | noCalibration | staticOnly | full
  deriving DecidableEq, Repr

/-- R58. -/
inductive OverlayTag where
  | empty | static | full
  deriving DecidableEq, Repr

/-- An image point (R64). -/
structure Point where
  u : Int
  v : Int
  deriving DecidableEq, Repr

/-- A segment to draw, with its colour index of R143 (1 near, 2 middle, 3 far). -/
structure Segment where
  p      : Point
  q      : Point
  colour : Nat
  deriving DecidableEq, Repr

/-- A guide run in progress or completed (R59): its mode, the overlay size, the line width, and its point lists (R64). -/
structure GuideRun where
  mode  : GuideMode
  w     : Nat
  h     : Nat
  width : Nat
  step  : Nat
  marks : List Segment
  left  : List Point
  right : List Point
  deriving DecidableEq, Repr

/-- The Guide Line Generator (R58). `run` is the run in progress, `backDone` the completed run that the back buffer holds. -/
structure Glg where
  valid    : Bool
  ks       : Int
  snap     : Bool
  mode     : GuideMode
  tag0     : OverlayTag
  tag1     : OverlayTag
  /-- Whether overlay buffer 1 is the front buffer; buffer 0 is front after power-on reset. -/
  front1   : Bool
  run      : Option GuideRun
  backDone : Bool
  deriving DecidableEq, Repr

/-! ## Display Compositor -/

/-- A pipe's timing record (R69). -/
structure Timing where
  activeW : Nat
  activeH : Nat
  totalW  : Nat
  totalH  : Nat
  rate    : Nat
  deriving DecidableEq, Repr

/-- Table 4-3. -/
inductive PipeState where
  | off | starting | running
  deriving DecidableEq, Repr

/-- Table 4-4. -/
inductive PipeCause where
  | setTiming | restart | off | view | startComplete
  deriving DecidableEq, Repr

/-- Table 4-6. -/
inductive PlaneKind where
  | surface | filmA | filmB | fill
  deriving DecidableEq, Repr

/-- A plane of a validated scene (Table 4-6), after R80. -/
structure Plane where
  kind   : PlaneKind
  addr   : Dword
  stride : Nat
  colour : Word
  x      : Int
  y      : Int
  w      : Nat
  h      : Nat
  alpha  : Nat
  safe   : Bool
  ox     : Nat
  oy     : Nat
  deriving DecidableEq, Repr

/-- A scene (R78): slot n is the n-th entry, and a removed plane leaves its slot empty (R82, R89). -/
structure Scene where
  backdrop : Word
  slots    : List (Option Plane)
  deriving DecidableEq, Repr

/-- What a frame shows (Table 4-8). -/
inductive Content where
  | none | hostBackdrop | viewBackdrop | hostScene | composition
  deriving DecidableEq, Repr

/-- A fetched source line of a plane (R145): its row in the plane, its luma or ARGB bytes and its chroma bytes. -/
structure SourceLine where
  row    : Nat
  luma   : List Byte
  chroma : List Byte
  deriving DecidableEq, Repr

/-- CMP's side of one plane slot and its reader: whether its plane is fetched in this frame (of a FILL plane: is shown in it), the row whose transfer is next or in progress,
whether that transfer has been handed, how many of its bytes are luma, the bytes that have arrived, the fetched lines held (at
most two ahead), and the latest chroma row. -/
structure SlotReader where
  fetched : Bool
  next    : Nat
  busy    : Bool
  lumaLen : Nat
  got     : List Byte
  lines   : List SourceLine
  chroma  : List Byte
  deriving DecidableEq, Repr

/-- A colour without alpha. -/
structure Rgb where
  r : Nat
  g : Nat
  b : Nat
  deriving DecidableEq, Repr

/-- One pipe (Table 4-11). `nextVblankNs` is when its next vblank falls (R72), `outLine` the next output line of the frame,
`noticed` whether this frame has raised its PIPE_UNDERFLOW, and `line` the pixels of the output line last begun (the display output). -/
structure Pipe where
  st           : PipeState
  timing       : Option Timing
  startCount   : Nat
  active       : Scene
  pendingScene : Option Scene
  restarts     : List LongReq
  underflow    : Word
  superseded   : Word
  nextVblankNs : Nat
  content      : Content
  outLine      : Nat
  noticed      : Bool
  readers      : List SlotReader
  line         : List Rgb
  deriving DecidableEq, Repr

/-- The settings a camera composition is drawn with, as fixed at its frame (R55, R56, R189): backdrop, no-signal colour, camera
rectangle, and the camera buffer shown, if any. -/
structure CompLayout where
  backdrop : Word
  noSignal : Word
  cx       : Int
  cy       : Int
  w        : Nat
  h        : Nat
  camera   : Option Nat
  deriving DecidableEq, Repr

/-- The Display Compositor. -/
structure Cmp where
  pipes : PerPipe Pipe
  comp  : CompLayout
  /-- The model's own: how many output lines have begun. Free values are drawn by it (log entry 14). -/
  drawn : Nat
  deriving DecidableEq, Repr

/-! ## Film Streams -/

/-- Table 5-1. -/
inductive StreamState where
  | closed | opened | held
  deriving DecidableEq, Repr

/-- A frame as FLM holds it (R94). -/
structure Frame where
  token  : Word
  luma   : Dword
  chroma : Dword
  stride : Nat
  time   : Dword
  deriving DecidableEq, Repr

/-- An audio buffer of the audio queue with its read offset in sample frames (R103, R104). -/
structure AudioBuf where
  token : Word
  addr  : Dword
  len   : Nat
  off   : Nat
  deriving DecidableEq, Repr

/-- One stereo sample frame. -/
structure Sample where
  l : Half
  r : Half
  deriving DecidableEq, Repr

/-- The picture half of a stream record (R94). -/
structure FilmVideo where
  queue      : List Frame
  current    : Option Frame
  retiring   : List Frame
  latches    : PerPipe (Option Frame)
  lastQueued : Word
  lastRetired : Word
  dropped    : Word
  repeats    : Word
  starved    : Bool
  deriving DecidableEq, Repr

/-- The sound half of a stream record (R94). `reading` is the token of the buffer that the audio reader's transfer belongs to;
`discarded` are the tokens that a flush discarded while a unit was in flight (R108); `playedSince` is the condition of R106. -/
structure FilmAudio where
  queue       : List AudioBuf
  staging     : List Sample
  reading     : Option Word
  discarded   : List Word
  lastQueued  : Word
  lastRetired : Word
  played      : Dword
  errors      : Word
  lastError   : Word
  underrun    : Bool
  playedSince : Bool
  deriving DecidableEq, Repr

/-- A stream record (R94). -/
structure Film where
  st      : StreamState
  closing : Bool
  format  : Nat
  width   : Nat
  height  : Nat
  pacing  : PipeId
  video   : FilmVideo
  audio   : FilmAudio
  flush   : Option LongReq
  close   : Option LongReq
  deriving DecidableEq, Repr

/-- The Film Streams block. -/
structure Flm where
  streams : PerStream Film
  deriving DecidableEq, Repr

/-! ## Audio Mixer -/

/-- The gain codes of one output (R117): its four sources and its master. -/
structure OutGains where
  filmA  : Nat
  filmB  : Nat
  ui     : Nat
  chime  : Nat
  master : Nat
  deriving DecidableEq, Repr

/-- A stereo value of 16-bit signed samples. -/
structure Stereo where
  l : Int
  r : Int
  deriving DecidableEq, Repr

/-- The Audio Mixer. The targets of R118 are a function of the state. `instants` and `blocks` count from power-on reset (R115,
R119); `out` are the output samples of the latest instant. -/
structure Mix where
  matrix    : PerOutput OutGains
  effective : PerOutput OutGains
  duck      : Nat
  duckTimer : Option Nat
  instants  : Nat
  blocks    : Nat
  out       : PerOutput Stereo
  deriving DecidableEq, Repr

/-! ## Chime Engine -/

/-- Table 6-5. -/
inductive ChimeClass where
  | safety | alert | comfort
  deriving DecidableEq, Repr

/-- A tone step (Table 6-5); frequency 0 is silence. -/
structure ToneStep where
  freq  : Nat
  dur   : Nat
  level : Nat
  deriving DecidableEq, Repr

/-- A DEFINED entry of the chime definition table (Table 6-5). -/
structure ChimeDef where
  cls       : ChimeClass
  priority  : Nat
  duck      : Nat
  repeats   : Nat
  headphone : Bool
  steps     : List ToneStep
  deriving DecidableEq, Repr

/-- R127. -/
inductive Origin where
  | request | internal
  deriving DecidableEq, Repr

/-- A chime record (R127). `remaining` is none for INFINITE. -/
structure ChimeRec where
  num       : Nat
  cls       : ChimeClass
  priority  : Nat
  remaining : Option Nat
  arrival   : Word
  origin    : Origin
  deriving DecidableEq, Repr

/-- Table 6-8. -/
inductive CycleKind where
  | continuous | beep
  deriving DecidableEq, Repr

/-- A parking cadence cycle (R136): its kind, the distance it was decided on, its length in instants, and whether its tone has an attack. -/
structure Cycle where
  kind   : CycleKind
  dist   : Nat
  len    : Nat
  attack : Bool
  deriving DecidableEq, Repr

/-- The playing chime with its position (R127): the step and the instant within it (for definition 1, the instant within the
cadence cycle), the phase accumulator, the envelope of the last instant played, whether it has sounded, and, for the parking
cadence, the cycle in progress and the one decided for after it. -/
structure Playing where
  chime    : ChimeRec
  step     : Nat
  k        : Nat
  phase    : Word
  env      : Nat
  sounded  : Bool
  cycle    : Option Cycle
  decided  : Option Cycle
  deriving DecidableEq, Repr

/-- A release tail (R126): the tone it continues, its phase, the envelope it starts under, its next instant and the headphone flag
of the chime it ends. -/
structure Tail where
  freq      : Nat
  level     : Nat
  phase     : Word
  env       : Nat
  j         : Nat
  headphone : Bool
  deriving DecidableEq, Repr

/-- R137. -/
inductive SoundState where
  | empty | loading | loaded
  deriving DecidableEq, Repr

/-- A sound bank entry (R137), with the LOAD_SOUND request that loads it, if any. -/
structure SoundEntry where
  st     : SoundState
  len    : Nat
  blocks : List Nat
  load   : Option LongReq
  deriving DecidableEq, Repr

/-- The UI voice's entry and position (R137), and the samples the bank reader holds for it (R151): `held` are the samples up to
sample index `fetched`. -/
structure UiVoice where
  entry   : Nat
  pos     : Nat
  fetched : Nat
  held    : List Half
  deriving DecidableEq, Repr

/-- The Chime Engine. -/
structure Che where
  defs    : List (Option ChimeDef)
  /-- R123: values of entries 0 to 2 held until the entry is neither queued nor playing. -/
  waiting : List (Option ChimeDef)
  queue   : List ChimeRec
  playing : Option Playing
  tail    : Option Tail
  counter : Word
  cadence : Bool
  bank    : List SoundEntry
  free    : List Nat
  loads   : Nat
  ui      : Option UiVoice
  deriving DecidableEq, Repr

/-! ## Fetch Engine -/

/-- What a BULK transfer belongs to (R149). -/
inductive BulkId where
  | sound (entry : Nat) | settingsIn | settingsOut
  deriving DecidableEq, Repr

/-- Table 7-1. -/
inductive ChanId where
  | plane (pipe : PipeId) (slot : Nat)
  | audio (stream : StreamId)
  | camWr
  | guideWr
  | work
  | bulk (id : BulkId)
  deriving DecidableEq, Repr

/-- Table 7-3. -/
inductive ChanState where
  | idle | active | suspended | error
  deriving DecidableEq, Repr

/-- A range of a transfer: start address and length in bytes. -/
structure Range where
  addr : Nat
  len  : Nat
  deriving DecidableEq, Repr

/-- The direction of a transfer (Table 7-1). -/
inductive Direction where
  | read | write
  deriving DecidableEq, Repr

/-- R144: a range of the transfer that a channel carries. -/
structure CarriedRange where
  addr : Nat
  len  : Nat
  dir  : Direction
  deriving DecidableEq, Repr

/-- A progress record (R144). `carried` is the transfer as it was handed; `toReq` is what of it has not been granted yet and
`toMove` what has not been moved yet, from which the next address and the remaining bytes are read. -/
structure Channel where
  st      : ChanState
  carried : List CarriedRange
  toReq   : List Range
  toMove  : List Range
  err     : Option Nat
  deriving DecidableEq, Repr

/-- What a transfer on WORK's list is for (chapter 8). -/
inductive WorkJob where
  | anchorRead
  | headerRead (page : Nat)
  | recordsRead (page : Nat)
  | write
  | lastBoardWrite
  | msi
  deriving DecidableEq, Repr

/-- A transfer on WORK's list: its progress record, the bytes a write still has to issue, or the bytes a read has brought. -/
structure WorkItem where
  job  : WorkJob
  chan : Channel
  data : List Byte
  deriving DecidableEq, Repr

/-- A transfer on BULK's list (R149): its progress record, and for a LOAD_SOUND copy the bytes already written to the bank. -/
structure BulkItem where
  id      : BulkId
  chan    : Channel
  written : Nat
  deriving DecidableEq, Repr

/-- What became of a granted read unit: in flight; completed and held behind an older unit (R150); still in flight for a transfer
replaced, stopped or failed (R153, R154); or timed out and keeping its place until the time given (R154). -/
inductive UnitPhase where
  | inFlight | held (data : List Byte) | orphan | timedOut (release : Nat)
  deriving DecidableEq, Repr

/-- A read unit of the system port, in its place among the 16 (R146). `discard` marks an audio unit of a buffer that a flush
discarded (R108). -/
structure FetchUnit where
  place    : Nat
  chan     : ChanId
  addr     : Nat
  len      : Nat
  deadline : Nat
  phase    : UnitPhase
  discard  : Bool
  deriving DecidableEq, Repr

/-- R148: the three pipe orders, named by their first pipe. -/
inductive Rotation where
  | clr | lrc | rcl
  deriving DecidableEq, Repr

/-- The users of the local port (R151). -/
inductive LocalUser where
  | camWr | camRead | ovlRead | guideWr | bank | bulk (id : BulkId)
  deriving DecidableEq, Repr

/-- The unit the local port is moving: its user, its place in the user's range and its length; of a write the bytes, piece by piece
with their local addresses; and whether its user still wants it (R151: the unit completes whether or not). -/
structure LocalUnit where
  user   : LocalUser
  addr   : Nat
  len    : Nat
  writes : List (Nat × List Byte)
  live   : Bool
  deriving DecidableEq, Repr

/-- The camera reader or the overlay reader of the CENTRE pipe (R151): where its rows lie, how many it reads in this frame, the
row in progress, the bytes of it that have arrived, and the rows held (at most two ahead). -/
structure LayerReader where
  base   : Nat
  rowLen : Nat
  rows   : Nat
  next   : Nat
  got    : List Byte
  lines  : List (Nat × List Byte)
  deriving DecidableEq, Repr

/-- The host window copy (R157). -/
structure Window where
  base : Nat
  size : Nat
  deriving DecidableEq, Repr

/-- The Fetch Engine. -/
structure Fen where
  planes    : PerPipe (List Channel)
  audio     : PerStream Channel
  camWr     : Channel
  /-- The bytes of the line that CAM_WR has still to write (R23). -/
  camData   : List Byte
  guideWr   : Channel
  work      : List WorkItem
  bulk      : List BulkItem
  /-- BULK's data store of 512 bytes: units read and not yet written to local memory (R149). -/
  store     : List (BulkId × List Byte)
  units     : List FetchUnit
  rotation  : Rotation
  lastSlot  : PerPipe Nat
  audioTurn : StreamId
  window    : Option Window
  localUnit : Option LocalUnit
  camRead   : LayerReader
  ovlRead   : LayerReader
  /-- R151: whether the overlay reader comes before the camera reader at the next grant to the two. -/
  ovlTurn   : Bool
  deriving DecidableEq, Repr

/-! ## Work Area Interface -/

/-- 8.2. -/
inductive AttachState where
  | detached | attaching | attached | faulted
  deriving DecidableEq, Repr

/-- Table 8-1. -/
inductive AttachCause where
  | none | align | anchorFetch | magic | pageCount | overlap | window | workFetch
  deriving DecidableEq, Repr

/-- The anchor copy (R162): page count, scan period and MSI minimum interval in ms, the host window, and the system addresses of the page
ring and the board. -/
structure Anchor where
  pages   : Nat
  period  : Nat
  msi     : Nat
  winBase : Nat
  winSize : Nat
  ring    : Nat
  board   : Nat
  deriving DecidableEq, Repr

/-- An entry of the taken-page table (R174), with the 16 header bytes as they were read at the take (R198). -/
structure TakenPage where
  page     : Nat
  seq      : Word
  taken    : Nat
  refused  : Nat
  awaiting : Nat
  ended    : Bool
  header   : List Byte
  deriving DecidableEq, Repr

/-- An entry of the answer queue (R170): a final status, or the page header write that follows one. -/
inductive QueuedAnswer where
  | final (ref : RecordRef) (status : Status)
  | header (page : Nat) (bytes : List Byte)
  deriving DecidableEq, Repr

/-- What the scan in progress has still to hand (R172 to R178), in order: the counter writes and the mirrors of R184, the look at
the page of E (step 2 of R172), a page header write, the reads, and an answer. Of an answer, `final` says that the request completed
before this write was handed (R177) and `counted` that the awaiting count was increased for it. -/
inductive ScanItem where
  | openCounter
  | mirrors (bytes : List Byte)
  | closeCounter (time : Dword)
  | look
  | header (page : Nat) (bytes : List Byte)
  | readHeader (page : Nat)
  | readRecords (page : Nat) (len : Nat)
  | answer (ref : RecordRef) (status : Status) (count : Nat) (final : Bool) (counted : Bool)
  deriving DecidableEq, Repr

/-- The Work Area Interface (R162, R180, R182, R184) and the registers (R160, R161). -/
structure Wai where
  st          : AttachState
  cause       : AttachCause
  ignored     : Bool
  adjusted    : Bool
  wbase       : Dword
  timeLatch   : Word
  /-- The model's own: the bytes that the latest TIME_LO_READ returned to the host. -/
  readData    : List Byte
  /-- R163: the work area base that the attach in progress read from WBASE. -/
  base        : Nat
  anchor      : Option Anchor
  expected    : Word
  taken       : List TakenPage
  answers     : List QueuedAnswer
  scanning    : Bool
  scanRequest : Bool
  scanQueue   : List ScanItem
  /-- R170: whether the scan waits for the completion of a read it has handed. -/
  scanWaits   : Bool
  scanTimer   : Option Nat
  slots       : List Slot
  wanted      : Bool
  msiTimer    : Option Nat
  counter     : Word
  /-- R180: whether the initial board write of the attach in progress has been handed. -/
  boardHanded : Bool
  /-- The model's own: how many MSIs have been issued since power-on reset. -/
  msiIssued   : Nat
  deriving DecidableEq, Repr

/-! ## Settings Store -/

/-- Table 3-5. -/
structure Calibration where
  present    : Bool
  curvature  : List Int
  shift      : Nat
  stepLen    : Nat
  guideWidth : Nat
  homography : List Int
  marks      : List Nat
  lineWidth  : Nat
  near       : Word
  middle     : Word
  far        : Word
  deriving DecidableEq, Repr

/-- The body values of an image (9.1), and the serial and CRC of the image they came from (R186). The chime definitions are as R199
forms them and the camera size as R189 clamps it. -/
structure Settings where
  timing   : Timing
  camW     : Nat
  camH     : Nat
  mirror   : Bool
  cx       : Int
  cy       : Int
  backdrop : Word
  noSignal : Word
  policy   : Policy
  calib    : Calibration
  chimes   : List ChimeDef
  serial   : Word
  crc      : Word
  deriving DecidableEq, Repr

/-- R186. -/
inductive SettingsSource where
  | loading | image | defaults
  deriving DecidableEq, Repr

/-- R187: the first check an image fails. -/
inductive ImageReason where
  | magic | format | length | crc
  deriving DecidableEq, Repr

/-- Table 9-3. -/
inductive WritePhase where
  | idle | copying | waitSupply | erasing | programming | verifying
  deriving DecidableEq, Repr

/-- R186. -/
inductive ReadPhase where
  | idle | flashRead | copyOut
  deriving DecidableEq, Repr

/-- Table 9-2. -/
inductive WriteReason where
  | image (r : ImageReason) | fetch | eraseTimeout | programTimeout | compare | aborted
  deriving DecidableEq, Repr

/-- The operation the flash port is serving (R188, R191, R195), with the time at which a timed operation ends or times out. A ready
wait says whether it is for the write (or else for the read). -/
inductive FlashOp where
  | load (endNs : Nat)
  | readyWait (forWrite : Bool) (limit : Nat)
  | erase (limit : Nat)
  | program (page : Nat) (limit : Nat)
  | verify (endNs : Nat)
  | read (endNs : Nat)
  deriving DecidableEq, Repr

/-- The Settings Store (R186). `notReady` records that the last write ended by a timeout, so that the next flash operation first
waits for the device to be ready (R191). -/
structure Sto where
  running     : Settings
  source      : SettingsSource
  rejection   : Option ImageReason
  writePhase  : WritePhase
  readPhase   : ReadPhase
  staged      : List Byte
  readImage   : List Byte
  waiting     : Option (List Byte)
  lastOutcome : Option WriteReason
  writeReq    : Option LongReq
  readReq     : Option LongReq
  readAddr    : Nat
  flash       : Option FlashOp
  notReady    : Bool
  deriving DecidableEq, Repr

end Sys2Proof.Machine
end

