-- ==== Sys2Proof/Machine/Defaults.lean ====
section
/-! DEFINITION. The fixed values of the spec's tables that power-on reset and the defaults use: Tables 4-11, 6-4, 6-6, 7-2 and 9-1. -/

namespace Sys2Proof.Machine

/-- The same value for each pipe. -/
def PerPipe.all {α : Type} (x : α) : PerPipe α := ⟨x, x, x⟩

/-- Table 9-1: the default CENTRE timing. -/
def defaultTiming : Timing := ⟨1920, 720, 2080, 750, 3⟩

/-- Table 3-2: the default view policy. -/
def defaultPolicy : Policy := ⟨3000, 1500, 1000, true⟩

/-- Table 6-6: the reverse-entered chime. DESIGN CHOICE (log entry 38): the level of its silence is gain code 0. -/
def builtInReverse : ChimeDef :=
  ⟨.alert, 8, 12, 1, false, [⟨880, 120, 12⟩, ⟨0, 100, 0⟩, ⟨1320, 160, 12⟩]⟩

/-- Table 6-6: the parking cadence. -/
def builtInCadence : ChimeDef :=
  ⟨.safety, 15, 18, 0, false, [⟨1760, 60, 6⟩]⟩

/-- Table 6-6: the camera fault chime. DESIGN CHOICE (log entry 38): the level of its silence is gain code 0. -/
def builtInFault : ChimeDef :=
  ⟨.alert, 10, 12, 2, false, [⟨660, 250, 10⟩, ⟨0, 250, 0⟩]⟩

/-- Table 9-1: no calibration. -/
def noCalibration : Calibration :=
  ⟨false, [], 0, 0, 0, [], [], 0, 0, 0, 0⟩

/-- Table 9-1: the default settings. -/
def defaultSettings : Settings where
  timing   := defaultTiming
  camW     := 1280
  camH     := 720
  mirror   := true
  cx       := 320
  cy       := 0
  backdrop := 0xFF000000
  noSignal := 0xFF303030
  policy   := defaultPolicy
  calib    := noCalibration
  chimes   := [builtInReverse, builtInCadence, builtInFault]
  serial   := 0
  crc      := 0

/-- Table 6-4. -/
def defaultMatrix : PerOutput OutGains :=
  ⟨⟨192, 192, 0, 0, 0⟩, ⟨0, 192, 192, 0, 0⟩, ⟨192, 0, 192, 0, 0⟩⟩

/-- R78: opaque black, no planes. -/
def emptyScene : Scene := ⟨0xFF000000, []⟩

/-- A plane reader with nothing fetched. -/
def idleReader : SlotReader := ⟨false, 0, false, 0, [], [], []⟩

/-- Table 4-11. -/
def resetPipe : Pipe where
  st           := .off
  timing       := none
  startCount   := 0
  active       := emptyScene
  pendingScene := none
  restarts     := []
  underflow    := 0
  superseded   := 0
  nextVblankNs := 0
  content      := .none
  outLine      := 0
  noticed      := false
  readers      := List.replicate 6 idleReader
  line         := []

/-- R94. -/
def resetVideo : FilmVideo := ⟨[], none, [], PerPipe.all none, 0, 0, 0, 0, false⟩

/-- R94. -/
def resetAudio : FilmAudio := ⟨[], [], none, [], 0, 0, 0, 0, 0, false, false⟩

/-- R94: CLOSED; the format, the size and the pacing pipe code are 0. -/
def resetFilm : Film := ⟨.closed, false, 0, 0, 0, .centre, resetVideo, resetAudio, none, none⟩

/-- R144: IDLE with no transfer and no error address. -/
def idleChannel : Channel := ⟨.idle, [], [], [], none⟩

/-- A layer reader with nothing to read. -/
def idleLayer : LayerReader := ⟨0, 0, 0, 0, [], []⟩

/-- R137. -/
def emptySound : SoundEntry := ⟨.empty, 0, [], none⟩

/-- R180: counts, times and details 0, ENABLE 1, MASK 1, not dirty. -/
def resetSlot : Slot := ⟨0, 0, 0, 0, true, true, false⟩

/-- R8, R18: NONE, run length 1, last sequence number 0, no breaks, no deadline. -/
def resetFreshness : Freshness := ⟨.none, 1, 0, 0, none⟩

/-- R12: the REV_IN hold, 40 ms. -/
def holdTime : Nat := 40000

/-- R188: the duration of a flash read of 1024 bytes, 8224 bits at 12.5 MHz. -/
def flashReadNs : Nat := 657920

/-- R18: VSR after power-on reset with the raw level of REV_IN at that moment; the hold timer is started where the level is active (R12). -/
def resetVsr (revIn : Bool) : Vsr where
  rx          := .hunt 0
  errors      := ⟨0, 0, 0, 0, 0⟩
  motion      := ⟨.unknown, 0, 0, false, false, 0, 0⟩
  park        := ⟨255, 255, 255, 255, 0, 0⟩
  motionFresh := resetFreshness
  parkFresh   := resetFreshness
  rawRev      := revIn
  debRev      := false
  hold        := if revIn then some holdTime else none
  reverse     := false
  parked      := false
  episode     := false
  disTimer    := none

/-- R16, R18: NORMAL, both runs 0, entered at 0; the first sample is taken at 2 ms. -/
def resetSmn : Smn := ⟨false, 0, 0, 0, 2000⟩

/-- Table 2-7. -/
def resetCin : Cin where
  source    := .port
  stream    := .absent
  deadline  := none
  goodRun   := 0
  badRun    := 0
  buf0      := ⟨.free, 0, 0⟩
  buf1      := ⟨.free, 0, 0⟩
  buf2      := ⟨.free, 0, 0⟩
  lastSig   := 0
  sameRun   := 0
  frozen    := false
  good      := 0
  malformed := 0
  lastFault := none
  capW      := 0
  capH      := 0
  testEntry := 0
  frame     := none
  nextTest  := 0
  testEnd   := 0

/-- R39, R40. -/
def resetVwc : Vwc := ⟨.off, false, none, none, defaultPolicy⟩

/-- R58. -/
def resetGlg : Glg := ⟨false, 0, false, .none, .empty, .empty, false, none, false⟩

/-- Table 4-11, and the camera composition of the default settings. -/
def resetCmp : Cmp := ⟨PerPipe.all resetPipe, ⟨0xFF000000, 0xFF303030, 320, 0, 1280, 720, none⟩, 0⟩

/-- R94. -/
def resetFlm : Flm := ⟨⟨resetFilm, resetFilm⟩⟩

/-- R117, R119, R122: every effective gain equals its target, which with the supply NORMAL, no chime and no duck is the matrix. -/
def resetMix : Mix where
  matrix    := defaultMatrix
  effective := defaultMatrix
  duck      := 0
  duckTimer := none
  instants  := 0
  blocks    := 0
  out       := ⟨⟨0, 0⟩, ⟨0, 0⟩, ⟨0, 0⟩⟩

/-- R123, R127, R137, R141. -/
def resetChe : Che where
  defs    := [some builtInReverse, some builtInCadence, some builtInFault] ++ List.replicate 13 none
  waiting := [none, none, none]
  queue   := []
  playing := none
  tail    := none
  counter := 1
  cadence := false
  bank    := List.replicate 32 emptySound
  free    := List.range 256
  loads   := 0
  ui      := none

/-- R144, R148, R149, R157. -/
def resetFen : Fen where
  planes    := PerPipe.all (List.replicate 6 idleChannel)
  audio     := ⟨idleChannel, idleChannel⟩
  camWr     := idleChannel
  camData   := []
  guideWr   := idleChannel
  work      := []
  bulk      := []
  store     := []
  units     := []
  rotation  := .clr
  lastSlot  := PerPipe.all 5
  audioTurn := .a
  window    := none
  localUnit := none
  camRead   := idleLayer
  ovlRead   := idleLayer
  ovlTurn   := false

/-- R160, R161, R162, R180, R182, R184. -/
def resetWai : Wai where
  st          := .detached
  cause       := .none
  ignored     := false
  adjusted    := false
  wbase       := 0
  timeLatch   := 0
  readData    := []
  base        := 0
  anchor      := none
  expected    := 1
  taken       := []
  answers     := []
  scanning    := false
  scanRequest := false
  scanQueue   := []
  scanWaits   := false
  scanTimer   := none
  slots       := List.replicate 20 resetSlot
  wanted      := false
  msiTimer    := none
  counter     := 0
  boardHanded := false
  msiIssued   := 0

/-- R186, R188: the start-up load begins at once. -/
def resetSto : Sto where
  running     := defaultSettings
  source      := .loading
  rejection   := none
  writePhase  := .idle
  readPhase   := .idle
  staged      := []
  readImage   := []
  waiting     := none
  lastOutcome := none
  writeReq    := none
  readReq     := none
  readAddr    := 0
  flash       := some (.load flashReadNs)
  notReady    := false

end Sys2Proof.Machine
end

