-- ==== Sys2Proof/Machine/State.lean ====
section
/-! DEFINITION. The state of the CM-330: the queue of commands, the clock, the twelve blocks of Table 0-2, local memory, and what
the part's writes have left in system memory; the reasons a step can stop; and the machine right after power-on reset. -/

namespace Sys2Proof.Machine

/-- The whole machine. -/
structure State where
  /-- The commands that are waiting, first in, first out: the model's own. -/
  pending  : List Instr
  /-- Nanoseconds since the end of power-on reset; cabin time is this count in whole µs (R202, log entry 1). -/
  clockNs  : Nat
  vsr      : Vsr
  smn      : Smn
  cin      : Cin
  vwc      : Vwc
  glg      : Glg
  cmp      : Cmp
  flm      : Flm
  mix      : Mix
  che      : Che
  fen      : Fen
  wai      : Wai
  sto      : Sto
  /-- The 64 MiB local SDRAM (3.1, Table 7-2). -/
  localMem : Memory
  /-- What the part's own writes over PCIe have left in system memory (log entry 5): the model's own record of its output. -/
  sysMem   : Memory
  deriving DecidableEq, Repr

/-- Why a step stops with a fault. No rule of the spec stops this part, so there is no reason (safe: nothing is left out by it). -/
inductive Fault where
  deriving DecidableEq, Repr

/-- Why a command is refused. -/
inductive Refusal where
  /-- Raised by an arm of `exec` whose command has no meaning in the model yet; no arm raises it. Safe. -/
  | notModelled (mnemonic : String)
  deriving DecidableEq, Repr

/-- The machine right after power-on reset with REV_IN inactive (R18, R37, R39, R58, R92, R94, R117, R119, R123, R127, R137, R144,
R148, R160, R162, R180, R186, R202), nothing in either memory, and no command waiting. -/
def State.reset : State where
  pending  := []
  clockNs  := 0
  vsr      := resetVsr false
  smn      := resetSmn
  cin      := resetCin
  vwc      := resetVwc
  glg      := resetGlg
  cmp      := resetCmp
  flm      := resetFlm
  mix      := resetMix
  che      := resetChe
  fen      := resetFen
  wai      := resetWai
  sto      := resetSto
  localMem := []
  sysMem   := []

end Sys2Proof.Machine
end

