-- ==== Sys2Proof/Machine/Operands.lean ====
section
/-! DEFINITION. The operand forms of the part: little-endian fields (3.1, chapter 10), the request parameters of a record
(Tables 10-5 to 10-7), the codes that requests carry, and the bit and sign helpers the layouts use. -/

namespace Sys2Proof.Machine

/-! ## Little-endian fields -/

/-- The value of a little-endian byte string. -/
def leNat : List Byte → Nat
  | [] => 0
  | b :: bs => b.toNat + 256 * leNat bs

/-- The n-byte little-endian string of a value, cut to its low 8n bits. -/
def leBytes : Nat → Nat → List Byte
  | 0, _ => []
  | n + 1, v => BitVec.ofNat 8 v :: leBytes n (v / 256)

/-- The value of the n-byte field at an offset; bytes beyond the string count as 0. -/
def field (bs : List Byte) (off n : Nat) : Nat := leNat ((bs.drop off).take n)

def u8At (bs : List Byte) (off : Nat) : Byte := BitVec.ofNat 8 (field bs off 1)
def u16At (bs : List Byte) (off : Nat) : Half := BitVec.ofNat 16 (field bs off 2)
def u32At (bs : List Byte) (off : Nat) : Word := BitVec.ofNat 32 (field bs off 4)
def u64At (bs : List Byte) (off : Nat) : Dword := BitVec.ofNat 64 (field bs off 8)
def s16At (bs : List Byte) (off : Nat) : Int := (u16At bs off).toInt
def s32At (bs : List Byte) (off : Nat) : Int := (u32At bs off).toInt

/-- A byte string cut or filled with zeros to a length (log entry 6). -/
def fitBytes (n : Nat) (bs : List Byte) : List Byte :=
  (bs.take n) ++ List.replicate (n - bs.length) 0

/-- A Boolean as a bit of a packed field. -/
def bit (b : Bool) (i : Nat) : Nat := if b then 2 ^ i else 0

/-- A value read in two's complement as an s32 field holds it. -/
def wordOfInt (v : Int) : Word := BitVec.ofInt 32 v

/-- A 16-bit field read in two's complement as an s16 field holds it. -/
def halfOfInt (v : Int) : Half := BitVec.ofInt 16 v

/-! ## Arithmetic of 3.1 -/

/-- "Saturated to a..b". -/
def saturate (a b v : Int) : Int := if v < a then a else if b < v then b else v

/-- The quotient rounded to nearest, halves away from zero; 0 for a divisor of 0. -/
def roundDiv (n d : Int) : Int :=
  let q := (2 * n.natAbs + d.natAbs) / (2 * d.natAbs)
  if d = 0 then 0 else if (n < 0) = (d < 0) then (q : Int) else -(q : Int)

/-- The quotient truncated toward zero. -/
def truncDiv (n d : Int) : Int := Int.tdiv n d

/-! ## Codes of requests -/

/-- Pipe codes of Table 4-1. -/
def pipeOfCode (c : Byte) : Option PipeId :=
  if c = 0 then some .centre else if c = 1 then some .rearL else if c = 2 then some .rearR else none

/-- Stream codes (5.1). -/
def streamOfCode (c : Byte) : Option StreamId :=
  if c = 0 then some .a else if c = 1 then some .b else none

/-- Plane kind codes of Table 10-6. -/
def planeKindOfCode (c : Byte) : Option PlaneKind :=
  if c = 0 then some .surface else if c = 1 then some .filmA else if c = 2 then some .filmB
  else if c = 3 then some .fill else none

/-- Class codes of Table 6-5. -/
def classOfCode (c : Nat) : Option ChimeClass :=
  if c = 0 then some .safety else if c = 1 then some .alert else if c = 2 then some .comfort else none

/-- Gear codes of R5: 5 to 255 are taken as UNKNOWN. -/
def gearOfCode (c : Nat) : Gear :=
  if c = 0 then .p else if c = 1 then .r else if c = 2 then .n else if c = 3 then .d else .unknown

/-! ## Records -/

/-- A plane entry of Table 10-6 at an offset. -/
def planeEntryAt (bs : List Byte) (o : Nat) : PlaneEntry where
  kind   := u8At bs o
  alpha  := u8At bs (o + 1)
  flags  := u8At bs (o + 2)
  x      := u16At bs (o + 4)
  y      := u16At bs (o + 6)
  width  := u16At bs (o + 8)
  height := u16At bs (o + 10)
  stride := u32At bs (o + 12)
  addr   := u64At bs (o + 16)
  colour := u32At bs (o + 24)

/-- A chime step of Table 10-7 at an offset. -/
def stepEntryAt (bs : List Byte) (o : Nat) : StepEntry :=
  ⟨u16At bs o, u16At bs (o + 2), u8At bs (o + 4)⟩

/-- The four source codes of an output from an offset, and its master code from another (SET_MIX, Table 10-5). -/
def mixCodesAt (bs : List Byte) (o m : Nat) : MixCodes :=
  ⟨u8At bs o, u8At bs (o + 1), u8At bs (o + 2), u8At bs (o + 3), u8At bs m⟩

/-- The request kinds of Table 8-6 by their codes, with the fixed parameter length of Table 10-5. -/
def fixedLength (kind : Nat) : Option Nat :=
  if kind = 0x10 then some 12
  else if kind = 0x11 then some 4
  else if kind = 0x12 then some 4
  else if kind = 0x13 then some 8
  else if kind = 0x20 then some 8
  else if kind = 0x21 then some 40
  else if kind = 0x22 then some 24
  else if kind = 0x23 then some 4
  else if kind = 0x24 then some 4
  else if kind = 0x30 then some 4
  else if kind = 0x31 then some 8
  else if kind = 0x38 then some 4
  else if kind = 0x40 then some 16
  else if kind = 0x50 then some 8
  else if kind = 0x51 then some 4
  else if kind = 0x52 then some 4
  else if kind = 0x53 then some 16
  else if kind = 0x54 then some 4
  else if kind = 0x60 then some 4
  else if kind = 0x70 then some 16
  else if kind = 0x71 then some 8
  else none

/-- The request of a record whose bytes, envelope included, are `r` (Table 10-5); none for a kind outside Table 8-6. Of SET_SCENE
and DEFINE_CHIME it takes every whole entry that the record holds. -/
def requestOf (kind : Nat) (r : List Byte) : Option Request :=
  if kind = 0x10 then
    some (.setPipeTiming ⟨u8At r 8, u8At r 9, u16At r 12, u16At r 14, u16At r 16, u16At r 18⟩)
  else if kind = 0x11 then some (.pipeOff (u8At r 8))
  else if kind = 0x12 then some (.restartPipe (u8At r 8))
  else if kind = 0x13 then
    some (.setScene ⟨u8At r 8, u8At r 9, u32At r 12,
      (List.range ((r.length - 16) / 32)).map (fun i => planeEntryAt r (16 + 32 * i))⟩)
  else if kind = 0x20 then
    some (.openStream ⟨u8At r 8, u8At r 9, u8At r 10, u16At r 12, u16At r 14⟩)
  else if kind = 0x21 then
    some (.queueFrame ⟨u8At r 8, u32At r 12, u64At r 16, u64At r 24, u32At r 32, u64At r 40⟩)
  else if kind = 0x22 then
    some (.queueAudio ⟨u8At r 8, u32At r 12, u64At r 16, u32At r 24⟩)
  else if kind = 0x23 then some (.flushStream (u8At r 8))
  else if kind = 0x24 then some (.closeStream (u8At r 8))
  else if kind = 0x30 then some (.viewRequest (u8At r 8))
  else if kind = 0x31 then
    some (.setViewPolicy ⟨u16At r 8, u16At r 10, u16At r 12, u8At r 14⟩)
  else if kind = 0x38 then some (.cameraTest (u8At r 8))
  else if kind = 0x40 then
    some (.setMix ⟨mixCodesAt r 8 20, mixCodesAt r 12 21, mixCodesAt r 16 22⟩)
  else if kind = 0x50 then
    some (.defineChime ⟨u8At r 8, u8At r 9, u8At r 10, u8At r 11, u8At r 12, u8At r 13, u8At r 14,
      (List.range ((r.length - 16) / 8)).map (fun i => stepEntryAt r (16 + 8 * i))⟩)
  else if kind = 0x51 then some (.playChime (u8At r 8))
  else if kind = 0x52 then some (.cancelChime (u8At r 8))
  else if kind = 0x53 then some (.loadSound ⟨u8At r 8, u32At r 12, u64At r 16⟩)
  else if kind = 0x54 then some (.playSound (u8At r 8))
  else if kind = 0x60 then some (.setNotice ⟨u8At r 8, u8At r 9, u8At r 10⟩)
  else if kind = 0x70 then some (.writeSettings ⟨u64At r 8, u32At r 16⟩)
  else if kind = 0x71 then some (.readSettings (u64At r 8))
  else none

end Sys2Proof.Machine
end

