-- ==== Sys2Proof/Machine/Ops.lean ====
section
/-! DEFINITION. The named operations that every block uses: replacing one block of the state, memory, time, one-of-each access,
raising a notice (R180), the end of a long request (R177), and what an owner does to a fetch channel (R145, R152, R153). -/

namespace Sys2Proof.Machine

/-! ## Replacing one part of the state -/

def State.setClock (s : State) (x : Nat) : State := { s with clockNs := x }
def State.setPending (s : State) (x : List Instr) : State := { s with pending := x }
def State.setVsr (s : State) (x : Vsr) : State := { s with vsr := x }
def State.setSmn (s : State) (x : Smn) : State := { s with smn := x }
def State.setCin (s : State) (x : Cin) : State := { s with cin := x }
def State.setVwc (s : State) (x : Vwc) : State := { s with vwc := x }
def State.setGlg (s : State) (x : Glg) : State := { s with glg := x }
def State.setCmp (s : State) (x : Cmp) : State := { s with cmp := x }
def State.setFlm (s : State) (x : Flm) : State := { s with flm := x }
def State.setMix (s : State) (x : Mix) : State := { s with mix := x }
def State.setChe (s : State) (x : Che) : State := { s with che := x }
def State.setFen (s : State) (x : Fen) : State := { s with fen := x }
def State.setWai (s : State) (x : Wai) : State := { s with wai := x }
def State.setSto (s : State) (x : Sto) : State := { s with sto := x }
def State.setLocalMem (s : State) (x : Memory) : State := { s with localMem := x }
def State.setSysMem (s : State) (x : Memory) : State := { s with sysMem := x }

/-! ## Memory -/

/-- One byte of a memory. -/
def Memory.read (m : Memory) (a : Nat) : Byte :=
  match m with
  | [] => Config.unwrittenByte
  | (x, b) :: t => if x = a then b else Memory.read t a

/-- Write one byte, keeping the addresses rising and listing no byte that an unlisted address reads as. -/
def Memory.write (m : Memory) (a : Nat) (b : Byte) : Memory :=
  match m with
  | [] => if b = Config.unwrittenByte then [] else [(a, b)]
  | (x, c) :: t =>
    if a < x then if b = Config.unwrittenByte then (x, c) :: t else (a, b) :: (x, c) :: t
    else if a = x then if b = Config.unwrittenByte then t else (a, b) :: t
    else (x, c) :: Memory.write t a b

/-- Write bytes at consecutive addresses, the address counter being `n` wide (2^26 local, 2^64 system). -/
def Memory.writeBytes (n : Nat) (m : Memory) (a : Nat) (bs : List Byte) : Memory :=
  match bs with
  | [] => m
  | b :: t => Memory.writeBytes n (Memory.write m (a % n) b) (a + 1) t

/-- Read `len` bytes at consecutive addresses. -/
def Memory.readBytes (n : Nat) (m : Memory) (a len : Nat) : List Byte :=
  match len with
  | 0 => []
  | k + 1 => Memory.read m (a % n) :: Memory.readBytes n m (a + 1) k

/-- Every listed address is above `lo`, they rise strictly, and no listed byte is what an unlisted address reads as. -/
def Memory.wfFrom (lo : Nat) (m : Memory) : Bool :=
  match m with
  | [] => true
  | (x, b) :: t => decide (lo ≤ x) && decide (b ≠ Config.unwrittenByte) && Memory.wfFrom (x + 1) t

/-- The canonical form. -/
def Memory.wf (m : Memory) : Bool := Memory.wfFrom 0 m

/-- 3.1: the local SDRAM is 64 MiB. -/
def localSize : Nat := 67108864

/-- 3.1: system-memory addresses are 64-bit. -/
def systemSize : Nat := 18446744073709551616

def writeLocal (a : Nat) (bs : List Byte) (s : State) : State :=
  s.setLocalMem (Memory.writeBytes localSize s.localMem a bs)

def readLocal (s : State) (a len : Nat) : List Byte :=
  Memory.readBytes localSize s.localMem a len

/-- A PCIe write as it is issued (R150). -/
def writeSystem (a : Nat) (bs : List Byte) (s : State) : State :=
  s.setSysMem (Memory.writeBytes systemSize s.sysMem a bs)

/-! ## Time -/

/-- Cabin time in whole µs, before it is cut to 64 bits (3.2, R202). -/
def now (s : State) : Nat := s.clockNs / 1000

/-- Cabin time as the part shows it: unsigned, 64 bits, wrapping (R202). -/
def cabin (s : State) : Dword := BitVec.ofNat 64 (now s)

/-- The instant of a timed event has come: the clock stands at that instant or later (log entry 1). -/
def reachNs (t : Nat) (s : State) : State := s.setClock (max s.clockNs t)

/-- The same for an instant given in µs. -/
def reach (t : Nat) (s : State) : State := reachNs (t * 1000) s

/-- A duration in ms since an instant, truncated and saturated to 32 bits (R17, R36). -/
def msSince (t : Nat) (s : State) : Word := BitVec.ofNat 32 (min ((now s - t) / 1000) 0xFFFFFFFF)

/-! ## One of each pipe, stream and output -/

def PerPipe.get {α : Type} (v : PerPipe α) : PipeId → α
  | .centre => v.centre
  | .rearL => v.rearL
  | .rearR => v.rearR

def PerPipe.set {α : Type} (v : PerPipe α) (p : PipeId) (x : α) : PerPipe α :=
  match p with
  | .centre => { v with centre := x }
  | .rearL => { v with rearL := x }
  | .rearR => { v with rearR := x }

def PerStream.get {α : Type} (v : PerStream α) : StreamId → α
  | .a => v.a
  | .b => v.b

def PerStream.set {α : Type} (v : PerStream α) (st : StreamId) (x : α) : PerStream α :=
  match st with
  | .a => { v with a := x }
  | .b => { v with b := x }

def pipeOf (s : State) (p : PipeId) : Pipe := s.cmp.pipes.get p

def setPipe (p : PipeId) (x : Pipe) (s : State) : State :=
  s.setCmp { s.cmp with pipes := s.cmp.pipes.set p x }

def filmOf (s : State) (st : StreamId) : Film := s.flm.streams.get st

def setFilm (st : StreamId) (x : Film) (s : State) : State :=
  s.setFlm { s.flm with streams := s.flm.streams.set st x }

def setVideo (st : StreamId) (v : FilmVideo) (s : State) : State :=
  setFilm st { filmOf s st with video := v } s

def setAudio (st : StreamId) (a : FilmAudio) (s : State) : State :=
  setFilm st { filmOf s st with audio := a } s

/-- Every pipe in turn. -/
def onPipes (f : PipeId → State → State) (s : State) : State :=
  f .rearR (f .rearL (f .centre s))

/-- Both streams in turn. DESIGN CHOICE (log entry 44): A before B, where one event acts on both (R99, R106, R109, R111). -/
def onStreams (f : StreamId → State → State) (s : State) : State :=
  f .b (f .a s)

/-! ## Status shorthands (3.5, Table 8-3) -/

def answerDone : Answer := ⟨⟨.done, .none⟩, 0⟩
def answerPending : Answer := ⟨⟨.pending, .none⟩, 0⟩
def answerInvalid (m : Minor) : Answer := ⟨⟨.refusedInvalid, m⟩, 0⟩
def answerState (m : Minor) : Answer := ⟨⟨.refusedState, m⟩, 0⟩

/-- DONE, or DONE_ADJUSTED with the number of adjustments saturated to 0xFFFF (R176). -/
def answerAdjusted (n : Nat) : Answer :=
  if n = 0 then answerDone else ⟨⟨.doneAdjusted, .none⟩, min n 0xFFFF⟩

def statusDone : Status := ⟨.done, .none⟩
def statusFailed (m : Minor) : Status := ⟨.failed, m⟩

def Answer.refused (a : Answer) : Bool :=
  a.status.major == .refusedInvalid || a.status.major == .refusedState

/-! ## Notices -/

/-- Slot numbers of Table 8-7. -/
def slotNumber : NoticeKind → Nat
  | .reverseChange => 0
  | .viewChange => 1
  | .cameraLockChange => 2
  | .cameraFrozen => 3
  | .vslKindChange => 4
  | .vslFrameError => 5
  | .reverseDisagree => 6
  | .supplyChange => 7
  | .pipeStateChange => 8
  | .pipeUnderflow => 9
  | .fetchFault => 10
  | .filmStarved => 11
  | .filmAudioUnderrun => 12
  | .chimeDropped => 13
  | .chimeFinished => 14
  | .pendingDone => 15
  | .pageSequenceFault => 16
  | .settingsState => 17
  | .cameraTestEnd => 18
  | .guideState => 19

/-- R180: whether an occurrence marks its slot dirty: ATTACHED, or ATTACHING after the initial board handing. -/
def boardLive (w : Wai) : Bool :=
  w.st == .attached || (w.st == .attaching && w.boardHanded)

/-- R180: an occurrence as it is recorded in an enabled slot. -/
def occurrence (t : Dword) (d0 d1 : Word) (live : Bool) (x : Slot) : Slot :=
  { x with count := x.count + 1, time := t, d0 := d0, d1 := d1, dirty := x.dirty || live }

/-- R180: raise a notice. -/
def raise (k : NoticeKind) (d0 d1 : Word) (s : State) : State :=
  match s.wai.slots[slotNumber k]? with
  | none => s
  | some x =>
    if x.enable then
      s.setWai { s.wai with
        slots := s.wai.slots.set (slotNumber k) (occurrence (cabin s) d0 d1 (boardLive s.wai) x)
        wanted := s.wai.wanted || (boardLive s.wai && !x.mask) }
    else s

/-- Detail word 0 of a state change: the new code in the low byte, the old one in the next (R10, R27, R53, R60). -/
def changeWord (new old : Nat) : Word := BitVec.ofNat 32 (new + 256 * old)

/-! ## The end of a long request -/

/-- Whether an entry of the taken-page table is the page of a record. -/
def TakenPage.isOf (p : TakenPage) (r : RecordRef) : Bool := p.page == r.page && p.seq == r.seq

/-- R177: the final status takes the place of a PENDING answer not yet handed. -/
def ScanItem.finish (r : RecordRef) (st : Status) : ScanItem → ScanItem
  | .answer ref status count final counted =>
    if ref = r ∧ status.major = .pending then .answer ref st count true counted
    else .answer ref status count final counted
  | i => i

/-- Whether the PENDING answer of a record still waits to be handed. -/
def ScanItem.isPendingOf (r : RecordRef) : ScanItem → Bool
  | .answer ref status _ _ _ => ref == r && status.major == .pending
  | _ => false

/-- R177, R179: an owner gives a long request its final status. Nothing is written for a request whose page was abandoned. -/
def completeRequest (q : LongReq) (st : Status) (s : State) : State :=
  match q.ref with
  | none => s
  | some r =>
    if s.wai.taken.any (·.isOf r) then
      if s.wai.scanQueue.any (·.isPendingOf r) then
        s.setWai { s.wai with scanQueue := s.wai.scanQueue.map (·.finish r st) }
      else s.setWai { s.wai with answers := s.wai.answers ++ [.final r st] }
    else s

/-- Complete every request of a list, in order (R75). -/
def completeAll (qs : List LongReq) (st : Status) (s : State) : State :=
  qs.foldl (fun t q => completeRequest q st t) s

/-! ## Ranges and progress records -/

/-- The ranges left after the first `n` bytes of the first range. -/
def advance (n : Nat) : List Range → List Range
  | [] => []
  | r :: t => if r.len ≤ n then t else ⟨r.addr + n, r.len - n⟩ :: t

/-- R144: the remaining bytes of a transfer. -/
def Channel.remaining (c : Channel) : Nat := (c.toMove.map (·.len)).sum

/-- R144: the next address of the range in progress; 0 with no transfer. -/
def Channel.nextAddress (c : Channel) : Nat :=
  match c.toMove with
  | [] => 0
  | r :: _ => r.addr

/-- R145: a channel as it is started with a transfer; empty ranges bring no unit. -/
def Channel.started (rs : List Range) (dir : Direction := .read) : Channel :=
  let rs := rs.filter (fun r => 0 < r.len)
  ⟨if rs.isEmpty then .idle else .active, rs.map (fun r => ⟨r.addr, r.len, dir⟩), rs, rs, none⟩

/-- Table 7-1, R149: the direction of a BULK transfer on the system port. -/
def BulkId.dir : BulkId → Direction
  | .settingsOut => .write
  | _ => .read

/-- Table 7-1: the direction of a transfer on WORK's list. -/
def WorkJob.dir : WorkJob → Direction
  | .write => .write
  | .lastBoardWrite => .write
  | .msi => .write
  | _ => .read

/-- Table 7-1: the direction of the transfers that an owner starts a channel with. -/
def ChanId.dir : ChanId → Direction
  | .camWr => .write
  | .guideWr => .write
  | .bulk id => id.dir
  | _ => .read

/-- R152. -/
def Channel.suspended (c : Channel) : Channel :=
  if c.st = .active then { c with st := .suspended } else c

/-- R152. -/
def Channel.resumed (c : Channel) : Channel :=
  if c.st = .suspended then { c with st := .active } else c

/-- R154: ERROR keeps its first error address. -/
def Channel.failed (a : Nat) (c : Channel) : Channel :=
  if c.st = .error then c else { c with st := .error, err := some a }

/-- Entry `n` of a list, or `d`. -/
def nth {α : Type} (l : List α) (n : Nat) (d : α) : α := (l[n]?).getD d

def bulkChannel (l : List BulkItem) (id : BulkId) : Channel :=
  match l.find? (fun b => b.id == id) with
  | some b => b.chan
  | none => idleChannel

/-- The progress record of a channel; WORK's is that of the transfer at the head of its list. -/
def channelOf (f : Fen) : ChanId → Channel
  | .plane p slot => nth (f.planes.get p) slot idleChannel
  | .audio st => f.audio.get st
  | .camWr => f.camWr
  | .guideWr => f.guideWr
  | .work => match f.work with
    | [] => idleChannel
    | i :: _ => i.chan
  | .bulk id => bulkChannel f.bulk id

/-- Replace a progress record. -/
def setChannel (f : Fen) (c : ChanId) (x : Channel) : Fen :=
  match c with
  | .plane p slot => { f with planes := f.planes.set p ((f.planes.get p).set slot x) }
  | .audio st => { f with audio := f.audio.set st x }
  | .camWr => { f with camWr := x }
  | .guideWr => { f with guideWr := x }
  | .work => match f.work with
    | [] => f
    | i :: t => { f with work := { i with chan := x } :: t }
  | .bulk id => { f with bulk := f.bulk.map (fun b => if b.id = id then { b with chan := x } else b) }

/-- R145, R153, R154: the units in flight of a transfer that was replaced, stopped or failed keep their places, and what they bring
is discarded; a completion that was held is discarded at once. -/
def orphanUnits (c : ChanId) (us : List FetchUnit) : List FetchUnit :=
  (us.filter (fun u => !(u.chan == c && match u.phase with | .held _ => true | _ => false))).map
    (fun u => if u.chan = c ∧ u.phase = .inFlight then { u with phase := .orphan } else u)

/-- R145: an owner starts a channel with a transfer. -/
def startChannel (c : ChanId) (rs : List Range) (s : State) : State :=
  s.setFen (setChannel { s.fen with units := orphanUnits c s.fen.units } c (Channel.started rs c.dir))

/-- R153: an owner stops a channel. -/
def stopChannel (c : ChanId) (s : State) : State :=
  s.setFen (setChannel { s.fen with units := orphanUnits c s.fen.units } c idleChannel)

/-- R152: an owner suspends a channel cleanly. -/
def suspendChannel (c : ChanId) (s : State) : State :=
  s.setFen (setChannel s.fen c (channelOf s.fen c).suspended)

/-- R152: an owner resumes a channel. -/
def resumeChannel (c : ChanId) (s : State) : State :=
  s.setFen (setChannel s.fen c (channelOf s.fen c).resumed)

/-- R151: a local unit in progress whose user no longer wants it completes: what it writes reaches local memory, and what it reads
is discarded. -/
def cutLocal (user : LocalUser) (s : State) : State :=
  match s.fen.localUnit with
  | some u => if u.user = user then s.setFen { s.fen with localUnit := some { u with live := false } } else s
  | none => s

/-- R149: an owner hands BULK a copy. -/
def handBulk (id : BulkId) (rs : List Range) (s : State) : State :=
  s.setFen { s.fen with
    units := orphanUnits (.bulk id) s.fen.units
    bulk := s.fen.bulk ++ [⟨id, Channel.started rs id.dir, 0⟩] }

/-- R149, R153: a BULK transfer is stopped, has failed or is complete: it leaves the list, and its data leaves the data store. -/
def dropBulk (id : BulkId) (s : State) : State :=
  let s := cutLocal (.bulk id) s
  s.setFen { s.fen with
    units := orphanUnits (.bulk id) s.fen.units
    bulk := s.fen.bulk.filter (fun b => b.id != id)
    store := s.fen.store.filter (fun d => d.1 != id) }

/-! ## The host window -/

/-- 8.5: the range of `len` bytes from `a` lies wholly inside the window; a range of length 0 names no memory and is not checked. -/
def insideWindow (w : Option Window) (a len : Nat) : Bool :=
  if len = 0 then true
  else match w with
    | none => false
    | some w => decide (w.base ≤ a) && decide (a + len ≤ w.base + w.size)

/-- The window of the anchor copy, against which the requests are checked (8.5). -/
def requestWindow (s : State) : Option Window :=
  s.wai.anchor.map (fun a => ⟨a.winBase, a.winSize⟩)

end Sys2Proof.Machine
end

