-- ==== Sys2Proof/Machine/Flags.lean ====
section
/-! DEFINITION. The derived conditions (capitals in the spec: REVERSE sources, PARKED, known speed, hidden dynamic lines, the
parking cadence condition) and the codes that notices and status mirrors carry. -/

namespace Sys2Proof.Machine

/-! ## Codes -/

/-- Table 8-3. -/
def majorCode : Major → Nat
  | .notYet => 0
  | .done => 1
  | .doneAdjusted => 2
  | .refusedInvalid => 3
  | .refusedState => 4
  | .failed => 5
  | .pending => 6

/-- Table 8-4. -/
def minorCode : Minor → Nat
  | .none => 0
  | .envelope => 1
  | .kind => 2
  | .length => 3
  | .range => 4
  | .address => 5
  | .tooMany => 6
  | .tokenOrder => 7
  | .queueFull => 8
  | .notOpen => 9
  | .closing => 10
  | .isOpen => 11
  | .viewActive => 12
  | .speed => 13
  | .busy => 14
  | .noTiming => 15
  | .inUse => 16
  | .internal => 17
  | .empty => 18
  | .noRoom => 19
  | .pipeOff => 20
  | .fetch => 21
  | .image => 22
  | .verify => 23

/-- R5. -/
def gearCode : Gear → Nat
  | .p => 0
  | .r => 1
  | .n => 2
  | .d => 3
  | .unknown => 4

/-- R10. -/
def freshCode : Fresh → Nat
  | .none => 0
  | .acquiring => 1
  | .valid => 2
  | .stale => 3

/-- R10. -/
def kindCode : VslKind → Nat
  | .motion => 1
  | .parkAssist => 2

/-- Table 1-2. -/
def vslErrorCode : VslError → Nat
  | .badStart => 1
  | .shortFrame => 2
  | .badCheck => 3
  | .unknownKind => 4
  | .range => 5

/-- R27. -/
def camStreamCode : CamStream → Nat
  | .absent => 0
  | .acquiring => 1
  | .locked => 2
  | .lost => 3

/-- Table 2-2; 0 is none. -/
def faultCode : Option FaultCause → Nat
  | none => 0
  | some .lineLength => 1
  | some .lineCount => 2
  | some .badCode => 3
  | some .codeOrder => 4
  | some .cut => 5

/-- R53. -/
def viewCode : ViewState → Nat
  | .off => 0
  | .starting => 1
  | .live => 2
  | .noSignal => 3
  | .exitHold => 4

/-- Table 3-4. -/
def viewCauseCode : ViewCause → Nat
  | .reverseOn => 1
  | .reverseOff => 2
  | .requestOn => 3
  | .requestOff => 4
  | .cameraReady => 5
  | .startTimeout => 6
  | .cameraLost => 7
  | .cameraFrozen => 8
  | .exitDelay => 9
  | .exitSpeed => 10
  | .manualSpeed => 11

/-- R60. -/
def guideCode : GuideMode → Nat
  | .none => 0
  | .noCalibration => 1
  | .staticOnly => 2
  | .full => 3

/-- Table 4-1. -/
def pipeCode : PipeId → Nat
  | .centre => 0
  | .rearL => 1
  | .rearR => 2

/-- R77. -/
def pipeStateCode : PipeState → Nat
  | .off => 0
  | .starting => 1
  | .running => 2

/-- Table 4-4. -/
def pipeCauseCode : PipeCause → Nat
  | .setTiming => 1
  | .restart => 2
  | .off => 3
  | .view => 4
  | .startComplete => 5

/-- Table 4-7; FILL planes have no reader. -/
def planeKindCode : PlaneKind → Nat
  | .surface => 0
  | .filmA => 1
  | .filmB => 2
  | .fill => 3

/-- 5.1. -/
def streamCode : StreamId → Nat
  | .a => 0
  | .b => 1

/-- Table 10-10. -/
def streamStateCode : StreamState → Nat
  | .closed => 0
  | .opened => 1
  | .held => 2

/-- Table 6-5. -/
def classCode : ChimeClass → Nat
  | .safety => 0
  | .alert => 1
  | .comfort => 2

/-- R130. -/
def originCode : Origin → Nat
  | .request => 0
  | .internal => 1

/-- 8.1. -/
def attachCode : AttachState → Nat
  | .detached => 0
  | .attaching => 1
  | .attached => 2
  | .faulted => 3

/-- Table 8-1. -/
def attachCauseCode : AttachCause → Nat
  | .none => 0
  | .align => 1
  | .anchorFetch => 2
  | .magic => 3
  | .pageCount => 4
  | .overlap => 5
  | .window => 6
  | .workFetch => 7

/-- R196. -/
def sourceCode : SettingsSource → Nat
  | .loading => 0
  | .image => 1
  | .defaults => 2

/-- R196. -/
def imageReasonCode : ImageReason → Nat
  | .magic => 1
  | .format => 2
  | .length => 3
  | .crc => 4

/-- Table 9-2. -/
def writeReasonCode : WriteReason → Nat
  | .image r => imageReasonCode r
  | .fetch => 5
  | .eraseTimeout => 6
  | .programTimeout => 7
  | .compare => 8
  | .aborted => 9

/-- Table 10-9. -/
def writePhaseCode : WritePhase → Nat
  | .idle => 0
  | .copying => 1
  | .waitSupply => 2
  | .erasing => 3
  | .programming => 4
  | .verifying => 5

/-- Table 10-9. -/
def readPhaseCode : ReadPhase → Nat
  | .idle => 0
  | .flashRead => 1
  | .copyOut => 2

/-! ## Conditions of the vehicle -/

/-- R13: the line source. -/
def lineSource (v : Vsr) : Bool := v.debRev

/-- R13: the gear source. -/
def gearSource (v : Vsr) : Bool := v.motionFresh.st == .valid && v.motion.gear == .r

/-- R14: the form of the disagreement of the two sources, 1 or 2, or none. -/
def disagreement (v : Vsr) : Option Nat :=
  if v.motionFresh.st ≠ .valid then none
  else if v.debRev ∧ v.motion.gear ≠ .r then some 1
  else if ¬ v.debRev ∧ v.motion.gear = .r then some 2
  else none

/-- R15. -/
def parkedNow (v : Vsr) : Bool :=
  v.motionFresh.st == .valid && v.motion.gear == .p && v.motion.speedValid && v.motion.speed == 0

/-- R39: a known speed. -/
def speedKnown (v : Vsr) : Bool := v.motionFresh.st == .valid && v.motion.speedValid

/-- R60: dynamic lines are hidden. -/
def linesHidden (v : Vsr) : Bool := !(v.motionFresh.st == .valid && v.motion.steeringValid)

/-- R135: the nearest distance, over the distances that are not 255. -/
def nearest (p : ParkPart) : Option Nat :=
  let d := min (min p.leftOuter.toNat p.leftInner.toNat) (min p.rightInner.toNat p.rightOuter.toNat)
  if d = 255 then none else some d

/-- R135: the parking cadence condition. -/
def cadenceNow (v : Vsr) : Bool :=
  v.reverse && v.parkFresh.st == .valid && match nearest v.park with
    | none => false
    | some d => d < 150

/-- R42, R43, R45: the picture can be shown. -/
def pictureReady (s : State) : Bool :=
  (pipeOf s .centre).st == .running && s.cin.stream == .locked && !s.cin.frozen

/-- Whether a plane shows a film stream, and which. -/
def PlaneKind.film : PlaneKind → Option StreamId
  | .filmA => some .a
  | .filmB => some .b
  | _ => none

/-- R82: planes that use a plane reader. -/
def PlaneKind.fetches : PlaneKind → Bool
  | .fill => false
  | _ => true

end Sys2Proof.Machine
end

