-- ==== Sys2Proof/Machine/Film.lean ====
section
/-! DEFINITION. The Film Streams block (chapter 5): presentation, latches, retirement, film sound, and the requests OPEN_STREAM,
QUEUE_FRAME, QUEUE_AUDIO, FLUSH_STREAM and CLOSE_STREAM. -/

namespace Sys2Proof.Machine

/-! ## Retirement (R101) and the end of flushes and closes (R109, R111) -/

/-- A frame joins the retiring list at its place in token order (R98, R108). -/
def insertFrame (f : Frame) : List Frame → List Frame
  | [] => [f]
  | g :: t => if f.token < g.token then f :: g :: t else g :: insertFrame f t

def insertFrames (fs l : List Frame) : List Frame := fs.foldl (fun acc f => insertFrame f acc) l

/-- Whether some pipe holds the frame of a token. -/
def latched (l : PerPipe (Option Frame)) (tok : Word) : Bool :=
  [l.centre, l.rearL, l.rearR].any (fun o => match o with
    | some f => f.token == tok
    | none => false)

/-- R101: whether the frame of a token, at the head of the retiring list, is the oldest frame held and no pipe holds it. -/
def retirable (v : FilmVideo) (tok : Word) : Bool :=
  (match v.current with
    | some c => decide (tok < c.token)
    | none => true)
  && v.queue.all (fun g => decide (tok < g.token)) && !latched v.latches tok

/-- R101 over the retiring list, which is in token order: the list that remains and the last token retired. -/
def retireList (v : FilmVideo) (last : Word) : List Frame → List Frame × Word
  | [] => ([], last)
  | f :: t => if retirable v f.token then retireList v f.token t else (f :: t, last)

/-- R101: the retirement rule. -/
def retire (v : FilmVideo) : FilmVideo :=
  let r := retireList v v.lastRetired v.retiring
  { v with retiring := r.1, lastRetired := r.2 }

/-- Whether a unit of a stream's audio reader is in flight (R111). -/
def audioFlying (s : State) (st : StreamId) : Bool :=
  s.fen.units.any (fun u => u.chan == .audio st && match u.phase with
    | .timedOut _ => false
    | _ => true)

/-- Whether a unit of a stream's audio reader for a discarded buffer is in flight (R104, R109). -/
def discardFlying (s : State) (st : StreamId) : Bool :=
  s.fen.units.any (fun u => u.chan == .audio st && u.discard && match u.phase with
    | .timedOut _ => false
    | _ => true)

/-- R109: the condition of a pending flush. -/
def flushReady (s : State) (st : StreamId) : Bool :=
  let v := (filmOf s st).video
  !discardFlying s st && match v.current with
    | some c => v.retiring.all (fun f => decide (¬ f.token < c.token))
    | none => v.retiring.isEmpty

/-- R109, R106: a pending flush completes DONE. DESIGN CHOICE (log entry 45): R106's latest flush counts from its completion, so that a
sample frame played while the flush was pending does not count, and a pending flush bars no episode. -/
def completeFlush (st : StreamId) (s : State) : State :=
  let f := filmOf s st
  match f.flush with
  | none => s
  | some q =>
    completeRequest q statusDone
      (setFilm st { f with flush := none, audio := { f.audio with playedSince := false } } s)

/-- R111: a pending close completes, after a flush pending on the stream. -/
def completeClose (st : StreamId) (s : State) : State :=
  let t := completeFlush st s
  let f := filmOf t st
  match f.close with
  | none => s
  | some q =>
    completeRequest q statusDone (setFilm st { f with st := .closed, closing := false, close := none } t)

/-- R109, R111: examine the pending close, or else the pending flush. -/
def examineStream (st : StreamId) (s : State) : State :=
  let f := filmOf s st
  if f.close.isSome then
    if f.video.retiring.isEmpty ∧ ¬ audioFlying s st then completeClose st s else s
  else if f.flush.isSome ∧ flushReady s st then completeFlush st s else s

/-- R101 applied to a stream, with what is examined after it. -/
def retireStream (st : StreamId) (s : State) : State :=
  examineStream st (setVideo st (retire (filmOf s st).video) s)

/-! ## Latches (R100) -/

/-- R100: a pipe's entry in a stream's latch set, for a set that holds the stream or not. -/
def latchVideo (p : PipeId) (shown : Bool) (v : FilmVideo) : FilmVideo :=
  { v with latches := v.latches.set p (if shown then v.current else none) }

/-- R100: CMP hands FLM the set of displayed streams of a pipe. DESIGN CHOICE (log entry 44): where one set completes a flush or a
close of both streams (R109, R111), A's final status joins the answer queue before B's. -/
def handSet (p : PipeId) (showsA showsB : Bool) (s : State) : State :=
  let s := setVideo .a (latchVideo p showsA (filmOf s .a).video) s
  let s := setVideo .b (latchVideo p showsB (filmOf s .b).video) s
  retireStream .b (retireStream .a s)

/-! ## Presentation (R98, R99) -/

/-- R98: the queue split at its newest due frame. -/
def newestDue (limit : Nat) : List Frame → Option (List Frame × Frame × List Frame)
  | [] => none
  | f :: t =>
    match newestDue limit t with
    | some (ahead, g, rest) => some (f :: ahead, g, rest)
    | none => if f.time.toNat ≤ limit then some ([], f, t) else none

/-- R98: the presentation when a frame is due. -/
def presentFrame (ahead : List Frame) (f : Frame) (rest : List Frame) (v : FilmVideo) : FilmVideo :=
  let old := match v.current with
    | some c => [c]
    | none => []
  { v with
    queue := rest
    current := some f
    retiring := insertFrames ahead (insertFrames old v.retiring)
    dropped := v.dropped + BitVec.ofNat 32 ahead.length
    starved := false }

/-- R69: Table 4-2, in units of 0.1 MHz. -/
def pixelRate (code : Nat) : Nat := nth [252, 408, 672, 936, 1080, 1188, 1344, 1488] code 0

/-- R69: the frame period of a timing, in ns. -/
def framePeriodNs (t : Timing) : Nat := t.totalW * t.totalH * 10000 / pixelRate t.rate

/-- The frame period of a pipe's timing record. -/
def periodOf (p : Pipe) : Nat :=
  match p.timing with
  | some t => framePeriodNs t
  | none => 0

/-- R98, R99: the presentation of one stream at a vblank of its pacing pipe. -/
def presentStream (st : StreamId) (half : Nat) (s : State) : State :=
  let f := filmOf s st
  let v := f.video
  match newestDue ((cabin s).toNat + half) v.queue with
  | some (ahead, g, rest) => retireStream st (setVideo st (presentFrame ahead g rest v) s)
  | none =>
    match v.current with
    | none => retireStream st s
    | some c =>
      let s := setVideo st { v with repeats := v.repeats + 1, starved := v.starved || v.queue.isEmpty } s
      let s := if v.queue.isEmpty ∧ ¬ v.starved then
          raise .filmStarved (BitVec.ofNat 32 (streamCode st)) c.token s
        else s
      retireStream st s

/-- R98: the presentations at a vblank of a pipe. -/
def present (p : PipeId) (s : State) : State :=
  let half := periodOf (pipeOf s p) / 2000
  onStreams (fun st t =>
    if (pipeOf t p).st = .running ∧ (filmOf t st).pacing = p ∧ (filmOf t st).st ≠ .closed then
      presentStream st half t
    else t) s

/-! ## Film sound (R104 to R107) -/

/-- R104: FLM starts the audio reader on the head buffer where the rule's conditions hold. -/
def startReader (st : StreamId) (s : State) : State :=
  let f := filmOf s st
  match f.audio.queue with
  | [] => s
  | b :: _ =>
    let c := s.fen.audio.get st
    let gone : Bool := match f.audio.reading with
      | none => true
      | some tok => !f.audio.queue.any (fun x => x.token == tok)
    if f.st = .opened ∧ ¬ discardFlying s st ∧ (c.st = .idle ∨ c.st = .error ∨ (c.st = .suspended ∧ gone)) then
      startChannel (.audio st) [⟨b.addr.toNat + 4 * b.off, 4 * (b.len - b.off)⟩]
        (setAudio st { f.audio with reading := some b.token } s)
    else s

/-- R102: at entry into OPEN the reader is resumed on a buffer still in the queue, or else started under R104. -/
def reopenReader (st : StreamId) (s : State) : State :=
  let a := (filmOf s st).audio
  let here : Bool := match a.reading with
    | none => false
    | some tok => a.queue.any (fun x => x.token == tok)
  if (s.fen.audio.get st).st = .suspended ∧ here then resumeChannel (.audio st) s else startReader st s

/-- R108: the discarded buffers retire once no unit of theirs is in flight. -/
def retireDiscarded (st : StreamId) (s : State) : State :=
  let a := (filmOf s st).audio
  if discardFlying s st then s
  else setAudio st { a with lastRetired := a.discarded.getLastD a.lastRetired, discarded := [] } s

/-- After an audio unit has completed or failed: R108's buffers, R104's start, R109's and R111's completions. -/
def afterAudioUnit (st : StreamId) (s : State) : State :=
  examineStream st (startReader st (retireDiscarded st s))

/-- The sample frames of a unit: 16-bit little-endian pairs (5.8). -/
def samplesOf : List Byte → List Sample
  | a :: b :: c :: d :: t => ⟨BitVec.ofNat 16 (leNat [a, b]), BitVec.ofNat 16 (leNat [c, d])⟩ :: samplesOf t
  | _ => []

/-- R104: a unit's sample frames join the staging store; the unit that holds a buffer's last sample frame retires the buffer. -/
def takeSamples (data : List Byte) (a : FilmAudio) : FilmAudio :=
  match a.queue with
  | [] => a
  | b :: t =>
    let off := b.off + data.length / 4
    let a := { a with staging := a.staging ++ samplesOf data }
    if b.len ≤ off then { a with queue := t, lastRetired := b.token, reading := none }
    else { a with queue := { b with off := off } :: t }

/-- R104, R108: FLM takes a completed audio unit; a discarded buffer's samples are dropped. -/
def audioUnitDone (st : StreamId) (discard : Bool) (data : List Byte) (s : State) : State :=
  if discard then afterAudioUnit st s
  else afterAudioUnit st (setAudio st (takeSamples data (filmOf s st).audio) s)

/-- Detail word 0 of FILM_AUDIO_UNDERRUN (Table 5-3). -/
def underrunWord (st : StreamId) (cause : Nat) (f : Film) : Word :=
  BitVec.ofNat 32 (streamCode st + 256 * cause + bit (f.st == .held) 16)

/-- The token of the buffer an audio reader error ends: the head of the queue, or the oldest discarded buffer (R107, R108). -/
def failedToken (a : FilmAudio) (discard : Bool) : Word :=
  if discard then a.discarded.headD a.lastRetired
  else match a.queue with
    | [] => a.lastRetired
    | b :: _ => b.token

/-- R107: the Fetch Engine reports an error on the audio reader. The head buffer ends; the reader is started on the next buffer or
stopped. A buffer that a flush discarded has left the queue already and retires under R108. -/
def audioError (st : StreamId) (discard : Bool) (s : State) : State :=
  let f := filmOf s st
  let a := f.audio
  let tok := failedToken a discard
  let a := if discard then a else { a with queue := a.queue.tail, lastRetired := tok, reading := none }
  let s := setAudio st { a with errors := a.errors + 1, lastError := tok } s
  let s := raise .filmAudioUnderrun (underrunWord st 2 f) tok s
  let s := startReader st (retireDiscarded st s)
  let s := if (s.fen.audio.get st).st = .error then stopChannel (.audio st) s else s
  examineStream st s

/-- R105: the sample frame a stream's source is handed. -/
def filmSample (s : State) (st : StreamId) : Stereo :=
  let f := filmOf s st
  if f.st = .closed then ⟨0, 0⟩
  else match f.audio.staging with
    | [] => ⟨0, 0⟩
    | x :: _ => ⟨x.l.toInt, x.r.toInt⟩

/-- R105, R106: what the handing does to the stream. -/
def handSample (st : StreamId) (s : State) : State :=
  let f := filmOf s st
  let a := f.audio
  if f.st = .closed then s
  else match a.staging with
    | _ :: t => setAudio st { a with staging := t, played := a.played + 1, underrun := false, playedSince := true } s
    | [] =>
      if ¬ f.closing ∧ ¬ a.underrun ∧ a.playedSince then
        raise .filmAudioUnderrun (underrunWord st 1 f) (a.played.setWidth 32)
          (setAudio st { a with underrun := true } s)
      else s

/-! ## Supply LOW (R102), and DETACH, FAULTED and link reset (R112) -/

/-- R102: a stream at a change of the supply state to LOW. -/
def holdStream (st : StreamId) (s : State) : State :=
  let f := filmOf s st
  if f.st = .opened then suspendChannel (.audio st) (setFilm st { f with st := .held } s) else s

/-- R102: a stream at a change of the supply state to NORMAL. -/
def releaseStream (st : StreamId) (s : State) : State :=
  let f := filmOf s st
  if f.st = .held then reopenReader st (setFilm st { f with st := .opened } s) else s

/-- R112: a stream closes without retirement. -/
def closedFilm (f : Film) : Film :=
  { f with
    st := .closed
    closing := false
    video := { f.video with queue := [], current := none, retiring := [], latches := PerPipe.all none, starved := false }
    audio := { f.audio with queue := [], staging := [], reading := none, discarded := [], underrun := false }
    flush := none
    close := none }

/-- R112, R158. DESIGN CHOICE (log entry 46): of a stream that is CLOSED already the record is left as it is, and the audio reader that
its CLOSE_STREAM left SUSPENDED is stopped. -/
def detachStream (st : StreamId) (s : State) : State :=
  let f := filmOf s st
  stopChannel (.audio st) (if f.st = .closed then s else setFilm st (closedFilm f) s)

/-! ## Requests -/

/-- The stream codes are checked first in every film request. -/
def withStream (c : Byte) (s : State) (k : StreamId → State × Answer) : State × Answer :=
  match streamOfCode c with
  | none => (s, answerInvalid .range)
  | some st => k st

/-- R95. -/
def ownOpenStream (p : OpenParams) (s : State) : State × Answer :=
  withStream p.stream s fun st =>
    let f := filmOf s st
    let w := p.width.toNat
    let h := p.height.toNat
    if f.st ≠ .closed then (s, answerState .isOpen)
    else if p.format ≠ 0 ∧ p.format ≠ 1 then (s, answerInvalid .range)
    else if w < 16 ∨ 1920 < w ∨ h < 16 ∨ 1080 < h ∨ (p.format = 0 ∧ (w % 2 = 1 ∨ h % 2 = 1)) then
      (s, answerInvalid .range)
    else match pipeOfCode p.pacing with
      | none => (s, answerInvalid .range)
      | some pacing =>
        (setFilm st { resetFilm with
            st := if s.smn.low then .held else .opened
            format := p.format.toNat
            width := w
            height := h
            pacing := pacing } s, answerDone)

/-- R96: the row size of a stream's frames. -/
def rowSize (f : Film) : Nat := if f.format = 1 then 4 * f.width else f.width

/-- R96: the address checks of a frame. -/
def frameAddressOk (f : Film) (p : FrameParams) (w : Option Window) : Bool :=
  let stride := p.stride.toNat
  decide (p.luma.toNat % 64 = 0)
  && insideWindow w p.luma.toNat (stride * (f.height - 1) + rowSize f)
  && (f.format == 1
    || (decide (p.chroma.toNat % 64 = 0)
      && insideWindow w p.chroma.toNat (stride * (f.height / 2 - 1) + f.width)))

/-- R96. -/
def ownQueueFrame (p : FrameParams) (s : State) : State × Answer :=
  withStream p.stream s fun st =>
    let f := filmOf s st
    let v := f.video
    if f.st = .closed then (s, answerState .notOpen)
    else if f.closing then (s, answerState .closing)
    else if p.token ≤ v.lastQueued then (s, answerInvalid .tokenOrder)
    else if p.stride.toNat % 64 ≠ 0 ∨ p.stride.toNat < rowSize f then (s, answerInvalid .range)
    else if ¬ frameAddressOk f p (requestWindow s) then (s, answerInvalid .address)
    else if 8 ≤ v.queue.length then (s, answerState .queueFull)
    else
      (setVideo st { v with
          queue := v.queue ++ [⟨p.token, p.luma, p.chroma, p.stride.toNat, p.time⟩]
          lastQueued := p.token } s, answerDone)

/-- R103. -/
def ownQueueAudio (p : AudioParams) (s : State) : State × Answer :=
  withStream p.stream s fun st =>
    let f := filmOf s st
    let a := f.audio
    let len := p.len.toNat
    if f.st = .closed then (s, answerState .notOpen)
    else if f.closing then (s, answerState .closing)
    else if p.token ≤ a.lastQueued then (s, answerInvalid .tokenOrder)
    else if len < 256 ∨ 8192 < len then (s, answerInvalid .range)
    else if p.addr.toNat % 4 ≠ 0 ∨ ¬ insideWindow (requestWindow s) p.addr.toNat (4 * len) then
      (s, answerInvalid .address)
    else if 16 ≤ a.queue.length then (s, answerState .queueFull)
    else
      (startReader st (setAudio st { a with
          queue := a.queue ++ [⟨p.token, p.addr, len, 0⟩]
          lastQueued := p.token } s), answerDone)

/-- R108: the pictures of a flush. -/
def flushVideo (v : FilmVideo) : FilmVideo :=
  { v with queue := [], retiring := insertFrames v.queue v.retiring }

/-- A unit whose data its channel still awaits or holds. -/
def FetchUnit.live (u : FetchUnit) : Bool :=
  match u.phase with
  | .inFlight => true
  | .held _ => true
  | _ => false

/-- R108: mark a stream's units in flight as those of a discarded buffer. -/
def discardUnits (st : StreamId) (s : State) : State :=
  s.setFen { s.fen with units := s.fen.units.map (fun u =>
    if u.chan == .audio st && u.live then { u with discard := true } else u) }

/-- R108: the sound of a flush; the buffers retire at once where no unit is in flight. -/
def flushAudio (st : StreamId) (s : State) : State :=
  let s := discardUnits st (suspendChannel (.audio st) s)
  let a := (filmOf s st).audio
  let s := setAudio st { a with
    queue := []
    staging := []
    reading := none
    discarded := a.discarded ++ a.queue.map (·.token)
    underrun := false } s
  retireDiscarded st s

/-- R108: what a flush does to its stream. -/
def flushStreamNow (st : StreamId) (s : State) : State :=
  flushAudio st (setVideo st (flushVideo (filmOf s st).video) s)

/-- R108, R109. -/
def ownFlushStream (q : LongReq) (c : Byte) (s : State) : State × Answer :=
  withStream c s fun st =>
    let f := filmOf s st
    if f.st = .closed then (s, answerState .notOpen)
    else if f.closing then (s, answerState .closing)
    else if f.flush.isSome then (s, answerState .busy)
    else
      let s := setFilm st { f with flush := some q } s
      (startReader st (retireStream st (flushStreamNow st s)), answerPending)

/-- R110: the current frame joins the retiring list. -/
def releaseCurrent (v : FilmVideo) : FilmVideo :=
  match v.current with
  | none => { v with starved := false }
  | some c => { v with current := none, retiring := insertFrame c v.retiring, starved := false }

/-- R110, R111. -/
def ownCloseStream (q : LongReq) (c : Byte) (s : State) : State × Answer :=
  withStream c s fun st =>
    let f := filmOf s st
    if f.st = .closed then (s, answerState .notOpen)
    else if f.closing then (s, answerState .closing)
    else
      let s := setFilm st { f with closing := true, close := some q } s
      let s := flushStreamNow st s
      (retireStream st (setVideo st (releaseCurrent (filmOf s st).video) s), answerPending)

end Sys2Proof.Machine
end

