-- ==== Sys2Proof/Machine/Mixer.lean ====
section
/-! DEFINITION. The Audio Mixer (6.1 to 6.3): gain multipliers, targets, ramps, ducking, the safety and supply steps, and the
arithmetic of an output sample; and the sine table of the chime voice (R125). -/

namespace Sys2Proof.Machine

/-! ## Tables -/

/-- R116: round(32768 × 10^(−g/40)) for g in 0..191, and 0 for 192 (`gainTable_rounds` in Laws/Audio checks each entry), part 0. -/
def gainTable0 : List Nat :=
  [32768, 30935, 29205, 27571, 26029, 24573, 23198, 21900, 20675, 19519, 18427, 17396, 16423, 15504, 14637, 13818, 13045, 12315, 11627, 10976, 10362, 9783, 9235, 8719,
   8231, 7771, 7336, 6925, 6538, 6172, 5827, 5501, 5193, 4903, 4629, 4370, 4125, 3894, 3677, 3471, 3277, 3093, 2920, 2757, 2603, 2457, 2320, 2190,
   2068, 1952, 1843, 1740, 1642, 1550, 1464, 1382, 1305, 1232, 1163, 1098, 1036, 978, 924, 872, 823, 777, 734, 693, 654, 617, 583, 550,
   519, 490, 463, 437, 413, 389, 368, 347, 328, 309, 292, 276, 260, 246, 232, 219, 207, 195, 184, 174, 164, 155, 146, 138]

/-- R116: round(32768 × 10^(−g/40)) for g in 0..191, and 0 for 192 (`gainTable_rounds` in Laws/Audio checks each entry), part 1. -/
def gainTable1 : List Nat :=
  [130, 123, 116, 110, 104, 98, 92, 87, 82, 78, 73, 69, 65, 62, 58, 55, 52, 49, 46, 44, 41, 39, 37, 35,
   33, 31, 29, 28, 26, 25, 23, 22, 21, 20, 18, 17, 16, 16, 15, 14, 13, 12, 12, 11, 10, 10, 9, 9,
   8, 8, 7, 7, 7, 6, 6, 6, 5, 5, 5, 4, 4, 4, 4, 3, 3, 3, 3, 3, 3, 2, 2, 2,
   2, 2, 2, 2, 2, 2, 1, 1, 1, 1, 1, 1, 1, 1, 1, 1, 1, 1, 1, 1, 1, 1, 1, 1]

/-- R116: round(32768 × 10^(−g/40)) for g in 0..191, and 0 for 192 (`gainTable_rounds` in Laws/Audio checks each entry), part 2. -/
def gainTable2 : List Nat :=
  [0]

/-- R116: round(32768 × 10^(−g/40)) for g in 0..191, and 0 for 192 (`gainTable_rounds` in Laws/Audio checks each entry). -/
def gainTable : List Nat := gainTable0 ++ gainTable1 ++ gainTable2

/-- R125: round(32767 × sin(2π × i / 1024)) for i in 0..256 (`sineQuarter_circle` in Laws/Audio holds it against the unit circle), part 0. -/
def sineQuarter0 : List Nat :=
  [0, 201, 402, 603, 804, 1005, 1206, 1407, 1608, 1809, 2009, 2210, 2410, 2611, 2811, 3012, 3212, 3412, 3612, 3811, 4011, 4210, 4410, 4609,
   4808, 5007, 5205, 5404, 5602, 5800, 5998, 6195, 6393, 6590, 6786, 6983, 7179, 7375, 7571, 7767, 7962, 8157, 8351, 8545, 8739, 8933, 9126, 9319,
   9512, 9704, 9896, 10087, 10278, 10469, 10659, 10849, 11039, 11228, 11417, 11605, 11793, 11980, 12167, 12353, 12539, 12725, 12910, 13094, 13279, 13462, 13645, 13828,
   14010, 14191, 14372, 14553, 14732, 14912, 15090, 15269, 15446, 15623, 15800, 15976, 16151, 16325, 16499, 16673, 16846, 17018, 17189, 17360, 17530, 17700, 17869, 18037]

/-- R125: round(32767 × sin(2π × i / 1024)) for i in 0..256 (`sineQuarter_circle` in Laws/Audio holds it against the unit circle), part 1. -/
def sineQuarter1 : List Nat :=
  [18204, 18371, 18537, 18703, 18868, 19032, 19195, 19357, 19519, 19680, 19841, 20000, 20159, 20317, 20475, 20631, 20787, 20942, 21096, 21250, 21403, 21554, 21705, 21856,
   22005, 22154, 22301, 22448, 22594, 22739, 22884, 23027, 23170, 23311, 23452, 23592, 23731, 23870, 24007, 24143, 24279, 24413, 24547, 24680, 24811, 24942, 25072, 25201,
   25329, 25456, 25582, 25708, 25832, 25955, 26077, 26198, 26319, 26438, 26556, 26674, 26790, 26905, 27019, 27133, 27245, 27356, 27466, 27575, 27683, 27790, 27896, 28001,
   28105, 28208, 28310, 28411, 28510, 28609, 28706, 28803, 28898, 28992, 29085, 29177, 29268, 29358, 29447, 29534, 29621, 29706, 29791, 29874, 29956, 30037, 30117, 30195]

/-- R125: round(32767 × sin(2π × i / 1024)) for i in 0..256 (`sineQuarter_circle` in Laws/Audio holds it against the unit circle), part 2. -/
def sineQuarter2 : List Nat :=
  [30273, 30349, 30424, 30498, 30571, 30643, 30714, 30783, 30852, 30919, 30985, 31050, 31113, 31176, 31237, 31297, 31356, 31414, 31470, 31526, 31580, 31633, 31685, 31736,
   31785, 31833, 31880, 31926, 31971, 32014, 32057, 32098, 32137, 32176, 32213, 32250, 32285, 32318, 32351, 32382, 32412, 32441, 32469, 32495, 32521, 32545, 32567, 32589,
   32609, 32628, 32646, 32663, 32678, 32692, 32705, 32717, 32728, 32737, 32745, 32752, 32757, 32761, 32765, 32766, 32767]

/-- R125: round(32767 × sin(2π × i / 1024)) for i in 0..256 (`sineQuarter_circle` in Laws/Audio holds it against the unit circle). -/
def sineQuarter : List Nat := sineQuarter0 ++ sineQuarter1 ++ sineQuarter2

/-- R116: the multiplier m(g). -/
def gain (g : Nat) : Int := (nth gainTable g 0 : Nat)

/-- R125: the table value T[i] for i in 0..1023, from its first quarter by the symmetries of the sine. -/
def sine (i : Nat) : Int :=
  if i ≤ 256 then (nth sineQuarter i 0 : Nat)
  else if i ≤ 512 then (nth sineQuarter (512 - i) 0 : Nat)
  else if i ≤ 768 then -(nth sineQuarter (i - 512) 0 : Nat)
  else -(nth sineQuarter (1024 - i) 0 : Nat)

/-- R116, R125: add 16384 and shift right arithmetically by 15 places. -/
def scaleDown (v : Int) : Int := (v + 16384) / 32768

/-- R116: saturated to a 16-bit sample. -/
def clip16 (v : Int) : Int := saturate (-32768) 32767 v

/-! ## Targets (R118) -/

def PerOutput.get {α : Type} (v : PerOutput α) : OutputId → α
  | .cabin => v.cabin
  | .headA => v.headA
  | .headB => v.headB

/-- R118, step 3: FILM and UI codes while the supply is LOW. -/
def lowMuted (low : Bool) (g : Nat) : Nat := if low then 192 else g

/-- R118: the playing chime is of class SAFETY. -/
def safetyPlaying (s : State) : Bool :=
  match s.che.playing with
  | some p => p.chime.cls == .safety
  | none => false

/-- R118: the targets of one output, the six steps in order. -/
def targetOf (s : State) (o : OutputId) : OutGains :=
  let g := s.mix.matrix.get o
  let cabin := o == .cabin
  let duck := if cabin then s.mix.duck else 0
  let chime := if cabin ∧ safetyPlaying s then min g.chime 24 else g.chime
  let chime := if cabin ∧ s.smn.low then max chime 24 else chime
  { filmA := min (lowMuted s.smn.low (g.filmA + duck)) 192
    filmB := min (lowMuted s.smn.low (g.filmB + duck)) 192
    ui := min (lowMuted s.smn.low g.ui) 192
    chime := min chime 192
    master := g.master }

def targets (s : State) : PerOutput OutGains :=
  ⟨targetOf s .cabin, targetOf s .headA, targetOf s .headB⟩

/-! ## Effective gains -/

/-- R119: one code toward the target. -/
def rampGain (g t : Nat) : Nat := if g < t then g + 1 else if t < g then g - 1 else g

def rampOut (g t : OutGains) : OutGains :=
  ⟨rampGain g.filmA t.filmA, rampGain g.filmB t.filmB, rampGain g.ui t.ui, rampGain g.chime t.chime,
   rampGain g.master t.master⟩

/-- R119: the first instant of a ramp block. -/
def rampAll (s : State) : State :=
  let t := targets s
  let e := s.mix.effective
  s.setMix { s.mix with
    effective := ⟨rampOut e.cabin t.cabin, rampOut e.headA t.headA, rampOut e.headB t.headB⟩ }

def muteOut (g : OutGains) : OutGains := { g with filmA := 192, filmB := 192, ui := 192 }

/-- R120: the effective gains that are set at once when the supply state becomes LOW. -/
def muteForLow (s : State) : State :=
  let e := s.mix.effective
  s.setMix { s.mix with
    effective := ⟨{ muteOut e.cabin with chime := max e.cabin.chime 24 }, muteOut e.headA, muteOut e.headB⟩ }

/-- R121: a SAFETY chime that becomes playing is heard at its floor level from its first sample. -/
def safetyDrop (s : State) : State :=
  let e := s.mix.effective
  let t := (targetOf s .cabin).chime
  if safetyPlaying s ∧ t < e.cabin.chime then
    s.setMix { s.mix with effective := { e with cabin := { e.cabin with chime := t } } }
  else s

/-! ## Ducking (R122) -/

/-- R122: the duck hold, 300 ms. -/
def duckHold : Nat := 300000

/-- R122: a change of the playing chime to one of the given duck depth, or (none) to no playing chime. -/
def duckChange (depth : Option Nat) (s : State) : State :=
  match depth with
  | some (d + 1) => s.setMix { s.mix with duck := d + 1, duckTimer := none }
  | _ =>
    if 0 < s.mix.duck ∧ s.mix.duckTimer = none then
      s.setMix { s.mix with duckTimer := some (now s + duckHold) }
    else s

/-! ## Samples (R116) -/

/-- What the four sources hand at an instant. -/
structure Sources where
  filmA : Stereo
  filmB : Stereo
  ui    : Int
  chime : Int
  deriving DecidableEq, Repr

/-- R116: one channel of one output. -/
def mixChannel (g : OutGains) (a b ui chime : Int) : Int :=
  let y := clip16 (scaleDown (a * gain g.filmA + b * gain g.filmB + ui * gain g.ui + chime * gain g.chime))
  clip16 (scaleDown (y * gain g.master))

/-- R116, R118: one output; the chime is taken as 0 on a headphone output while the switch is open. -/
def mixOutput (g : OutGains) (x : Sources) (chimeOn : Bool) : Stereo :=
  let c := if chimeOn then x.chime else 0
  ⟨mixChannel g x.filmA.l x.filmB.l x.ui c, mixChannel g x.filmA.r x.filmB.r x.ui c⟩

/-- R115, R116: the three outputs at an instant. -/
def mixAll (x : Sources) (headphone : Bool) (m : Mix) : PerOutput Stereo :=
  ⟨mixOutput m.effective.cabin x true, mixOutput m.effective.headA x headphone, mixOutput m.effective.headB x headphone⟩

/-! ## SET_MIX (R117) -/

def clampCode (c : Byte) : Nat := min c.toNat 192

def clampCodes (c : MixCodes) : OutGains :=
  ⟨clampCode c.filmA, clampCode c.filmB, clampCode c.ui, clampCode c.chime, clampCode c.master⟩

/-- How many of an output's codes are clamped. -/
def clampCount (c : MixCodes) : Nat :=
  ([c.filmA, c.filmB, c.ui, c.chime, c.master].filter (fun b => 192 < b.toNat)).length

/-- R117. -/
def ownSetMix (p : MixParams) (s : State) : State × Answer :=
  (s.setMix { s.mix with matrix := ⟨clampCodes p.cabin, clampCodes p.headA, clampCodes p.headB⟩ },
   answerAdjusted (clampCount p.cabin + clampCount p.headA + clampCount p.headB))

end Sys2Proof.Machine
end

