-- ==== Sys2Proof/Machine/Chime.lean ====
section
/-! DEFINITION. The Chime Engine (6.4 to 6.9): definitions, the queue and the voice, tones and release tails, the parking cadence,
the sound bank and the UI voice, and the requests DEFINE_CHIME, PLAY_CHIME, CANCEL_CHIME, LOAD_SOUND and PLAY_SOUND. -/

namespace Sys2Proof.Machine

/-! ## Definitions -/

/-- A definition of the table, or none if its entry is EMPTY. -/
def defOf (c : Che) (n : Nat) : Option ChimeDef := nth c.defs n none

/-- Whether a definition is playing. -/
def isPlaying (c : Che) (n : Nat) : Bool :=
  match c.playing with
  | some p => p.chime.num == n
  | none => false

/-- Whether a definition is in the queue. -/
def isQueued (c : Che) (n : Nat) : Bool := c.queue.any (fun r => r.num == n)

def inUse (c : Che) (n : Nat) : Bool := isPlaying c n || isQueued c n

/-- R123: a held value replaces entry `n` once the entry is neither queued nor playing. -/
def replaceHeld (n : Nat) (c : Che) : Che :=
  match nth c.waiting n none with
  | none => c
  | some d =>
    if inUse c n then c
    else { c with defs := c.defs.set n (some d), waiting := c.waiting.set n none }

/-- R123: examined after every change of the voice or the queue. -/
def settleDefs (s : State) : State :=
  s.setChe (replaceHeld 2 (replaceHeld 1 (replaceHeld 0 s.che)))

/-- R123: entry `n` takes a definition of new running settings, at once or when it is free. -/
def takeDef (n : Nat) (d : ChimeDef) (c : Che) : Che :=
  if inUse c n then { c with waiting := c.waiting.set n (some d) }
  else { c with defs := c.defs.set n (some d), waiting := c.waiting.set n none }

/-- R123: CHE takes definitions 0 to 2 of new running settings. -/
def takeDefs (ds : List ChimeDef) (c : Che) : Che :=
  match ds with
  | [a, b, d] => takeDef 2 d (takeDef 1 b (takeDef 0 a c))
  | _ => c

/-! ## The queue (R127, R130) -/

def classRank : ChimeClass → Nat
  | .safety => 2
  | .alert => 1
  | .comfort => 0

/-- R127: one arrival is earlier than another when the difference, read as a signed 32-bit value, is negative. -/
def earlier (a b : Word) : Bool := decide ((a - b).toInt < 0)

/-- R127: the ranking of records. -/
def outranks (a b : ChimeRec) : Bool :=
  if classRank a.cls ≠ classRank b.cls then decide (classRank b.cls < classRank a.cls)
  else if a.priority ≠ b.priority then decide (b.priority < a.priority)
  else earlier a.arrival b.arrival

/-- A record at its place in the ranking. -/
def insertRec (r : ChimeRec) : List ChimeRec → List ChimeRec
  | [] => [r]
  | q :: t => if outranks r q then r :: q :: t else q :: insertRec r t

/-- Detail word 0 of CHIME_DROPPED (R130); causes 1 EVICTED, 2 QUEUE_FULL, 3 REQUEUE. -/
def droppedWord (r : ChimeRec) (cause : Nat) : Word :=
  BitVec.ofNat 32 (r.num + 256 * originCode r.origin + 65536 * cause)

def raiseDropped (r : ChimeRec) (cause : Nat) (s : State) : State :=
  raise .chimeDropped (droppedWord r cause) r.arrival s

/-- R130: a record enters the queue, or not; says which. -/
def enqueue (r : ChimeRec) (s : State) : State × Bool :=
  if s.che.queue.length < 8 then (s.setChe { s.che with queue := insertRec r s.che.queue }, true)
  else match s.che.queue.getLast? with
    | none => (s, false)
    | some low =>
      if outranks r low then
        (raiseDropped low 1 (s.setChe { s.che with queue := insertRec r s.che.queue.dropLast }), true)
      else (s, false)

/-! ## The voice -/

/-- R125: the phase increment of a frequency, round(2^32 × f / 48000). -/
def increment (f : Nat) : Word := BitVec.ofInt 32 (roundDiv (4294967296 * f) 48000)

/-- R125, R126: the sample of a tone at a phase under an envelope; a silence gives 0. -/
def toneSample (freq level : Nat) (phase : Word) (env : Nat) : Int :=
  if freq = 0 then 0
  else truncDiv (scaleDown (sine (phase.toNat / 4194304) * gain level) * env) 96

/-- A record becomes the playing chime, at its first step (R127). -/
def Playing.begin (r : ChimeRec) : Playing := ⟨r, 0, 0, 0, 0, false, none, none⟩

/-- The duck depth of a chime's definition. -/
def duckOf (c : Che) (p : Option Playing) : Option Nat :=
  match p with
  | none => none
  | some p => some (match defOf c p.chime.num with
    | some d => d.duck
    | none => 0)

/-- The tone step of a definition, or a silence. -/
def stepOf (c : Che) (n k : Nat) : ToneStep :=
  match defOf c n with
  | some d => nth d.steps k ⟨0, 0, 0⟩
  | none => ⟨0, 0, 0⟩

def headphoneOf (c : Che) (n : Nat) : Bool :=
  match defOf c n with
  | some d => d.headphone
  | none => false

/-- R136: the instants of tone of a BEEP cycle. -/
def beepLength : Nat := 2880

/-- R126: the tone that the voice is in: a step's, or the cadence's (the first step of definition 1; a BEEP past its tone is silent). -/
def soundingTone (c : Che) (p : Playing) : ToneStep :=
  if p.chime.num = 1 then
    let t := stepOf c 1 0
    match p.cycle with
    | some cyc => if cyc.kind = .beep ∧ beepLength ≤ p.k then { t with freq := 0 } else t
    | none => t
  else stepOf c p.chime.num p.step

/-- R126: the release tail of a stop. A tail already sounding runs on, and a chime that has not sounded makes none. DESIGN CHOICE
(log entry 49): the tail keeps the headphone flag that its definition had at the stop. DESIGN CHOICE (log entry 50): a stop between
the last instant of a step or cycle and the first of the next makes a tail of the next one's tone, at its phase, under the envelope of
the last instant played. -/
def tailOf (c : Che) : Option Tail :=
  match c.tail with
  | some t => some t
  | none =>
    match c.playing with
    | none => none
    | some p =>
      if p.sounded then
        let t := soundingTone c p
        some ⟨t.freq, t.level, p.phase, p.env, 0, headphoneOf c p.chime.num⟩
      else none

/-- A change of the playing chime, with what hangs on it: the duck (R122) and the safety floor (R121). -/
def setPlaying (p : Option Playing) (s : State) : State :=
  safetyDrop (duckChange (duckOf s.che p) (s.setChe { s.che with playing := p }))

/-- R127: with no playing chime, the highest-ranked queue entry becomes the playing chime. -/
def startNext (s : State) : State :=
  match s.che.playing with
  | some _ => s
  | none =>
    match s.che.queue with
    | [] => s
    | r :: t => setPlaying (some (Playing.begin r)) (s.setChe { s.che with queue := t })

/-- The voice is left without a playing chime, and the next entry starts (R127); one change of the playing chime. -/
def endPlaying (s : State) : State :=
  match s.che.queue with
  | [] => setPlaying none s
  | r :: t => setPlaying (some (Playing.begin r)) (s.setChe { s.che with queue := t })

/-- R126: the playing chime stops at once with a release tail. -/
def stopPlaying (s : State) : State :=
  endPlaying (s.setChe { s.che with tail := tailOf s.che })

/-! ## Arrivals (R128 to R130) -/

/-- R128: a definition's repeat count, 0 taken as INFINITE. -/
def repeatsOf (d : ChimeDef) : Option Nat := if d.repeats = 0 then none else some d.repeats

/-- R128: the renewal of a record that is playing or queued. -/
def renew (rep : Option Nat) (o : Origin) (r : ChimeRec) : ChimeRec :=
  { r with remaining := rep, origin := if o = .request then .request else r.origin }

/-- R127: the arrival counter wraps from 0xFFFFFFFF to 1. -/
def nextArrival (c : Word) : Word := if c = 0xFFFFFFFF then 1 else c + 1

/-- R129, R130: a record that enters the queue, or is refused or discarded there. -/
def arriveQueued (r : ChimeRec) (s : State) : State × Answer :=
  match enqueue r s with
  | (t, true) => (startNext t, answerDone)
  | (t, false) =>
    if r.origin = .request then (t, answerState .queueFull)
    else (raiseDropped r 2 t, answerState .queueFull)

/-- R129: a new record preempts the playing chime `p`, which is put back into the queue under R130. -/
def preempt (r : ChimeRec) (p : Playing) (s : State) : State :=
  let s := setPlaying (some (Playing.begin r)) (s.setChe { s.che with tail := tailOf s.che })
  match enqueue p.chime s with
  | (t, true) => t
  | (t, false) => raiseDropped p.chime 3 t

/-- R128, R129: an arrival of a DEFINED definition. DESIGN CHOICE (log entry 51): a new record takes its number from the arrival
counter, which goes on, also where R130 then refuses the request QUEUE_FULL and discards the record. -/
def arriveDef (n : Nat) (d : ChimeDef) (o : Origin) (s : State) : State × Answer :=
  let rep := repeatsOf d
  let fresh : ChimeRec := ⟨n, d.cls, d.priority, rep, s.che.counter, o⟩
  let counted := s.setChe { s.che with counter := nextArrival s.che.counter }
  match s.che.playing with
  | some p =>
    if p.chime.num = n then
      (s.setChe { s.che with playing := some { p with chime := renew rep o p.chime } }, answerDone)
    else if isQueued s.che n then
      (s.setChe { s.che with queue := s.che.queue.map (fun r => if r.num = n then renew rep o r else r) },
       ⟨⟨.doneAdjusted, .none⟩, 0⟩)
    else if classRank p.chime.cls < classRank d.cls then (preempt fresh p counted, answerDone)
    else arriveQueued fresh counted
  | none =>
    if isQueued s.che n then
      (s.setChe { s.che with queue := s.che.queue.map (fun r => if r.num = n then renew rep o r else r) },
       ⟨⟨.doneAdjusted, .none⟩, 0⟩)
    else arriveQueued fresh counted

/-- R128 to R130: an arrival; an EMPTY entry has none. -/
def arrive (n : Nat) (o : Origin) (s : State) : State × Answer :=
  match defOf s.che n with
  | none => (s, answerState .empty)
  | some d =>
    let r := arriveDef n d o s
    (settleDefs r.1, r.2)

/-- R54, R134, R135: an internal arrival. -/
def arriveInternal (n : Nat) (s : State) : State := (arrive n .internal s).1

/-! ## Steps and cycles (R125, R131) -/

/-- R131: the playing chime has ended; a REQUEST chime raises CHIME_FINISHED. -/
def finishPlaying (p : Playing) (s : State) : State :=
  let s := if p.chime.origin = .request then
      raise .chimeFinished (BitVec.ofNat 32 p.chime.num) p.chime.arrival s
    else s
  settleDefs (endPlaying s)

/-- R131: the last step of a cycle ends. -/
def cycleEnd (p : Playing) (s : State) : State :=
  let again (rem : Option Nat) : State :=
    s.setChe { s.che with playing := some { p with chime := { p.chime with remaining := rem }, step := 0, k := 0, phase := 0 } }
  match p.chime.remaining with
  | none => again none
  | some r => if r ≤ 1 then finishPlaying p s else again (some (r - 1))

/-- R125: the instants of the playing chime's step have run out. A chime that waits for a tail has no step in progress, and the
cadence has cycles in place of steps (R136). -/
def stepEnd (s : State) : State :=
  match s.che.tail, s.che.playing with
  | none, some p =>
    if p.chime.num = 1 then s
    else match defOf s.che p.chime.num with
      | none => s
      | some d =>
        if p.step + 1 < d.steps.length then
          s.setChe { s.che with playing := some { p with step := p.step + 1, k := 0, phase := 0 } }
        else cycleEnd p s
  | _, _ => s

/-- R126: the release tail ends; a chime waiting to play begins its first step at the next instant. -/
def tailEnd (s : State) : State := s.setChe { s.che with tail := none }

/-! ## The parking cadence (R135, R136) -/

/-- R136: the cycle decided from the nearest distance; a CONTINUOUS cycle has an attack only where the one before it was not
CONTINUOUS. With no nearest distance the cadence has stopped already (R135), and the cycle is that of 149 cm (log entry 12). -/
def decideCycle (v : Vsr) (wasContinuous : Bool) : Cycle :=
  let d := (nearest v.park).getD 149
  if d ≤ 30 then ⟨.continuous, d, 4800, !wasContinuous⟩ else ⟨.beep, d, 48 * (100 + 5 * (d - 30)), true⟩

/-- R136: a decision point inside a cycle. -/
def cadenceDecision (s : State) : State :=
  match s.che.playing with
  | some p =>
    match p.cycle with
    | some c =>
      if p.chime.num = 1 then
        s.setChe { s.che with playing := some { p with decided := some (decideCycle s.vsr (c.kind == .continuous)) } }
      else s
    | none => s
  | none => s

/-- R136: a cadence cycle ends and the next begins; the remaining repeats stay INFINITE (R131). -/
def cadenceCycle (s : State) : State :=
  match s.che.playing with
  | some p =>
    match p.cycle with
    | some c =>
      if p.chime.num = 1 then
        let next := match p.decided with
          | some n => n
          | none => decideCycle s.vsr (c.kind == .continuous)
        s.setChe { s.che with playing := some { p with
          cycle := some next, decided := none, k := 0, phase := if next.attack then 0 else p.phase } }
      else s
    | none => s
  | none => s

/-- R136: the first cycle is decided at the instant at which the cadence begins to sound. -/
def cadenceBegun (v : Vsr) (p : Playing) : Playing :=
  match p.cycle with
  | some _ => p
  | none => { p with cycle := some (decideCycle v false), k := 0, phase := 0 }

/-- R135: definition 1 stops if it is playing, or leaves the queue. -/
def stopCadence (s : State) : State :=
  if isPlaying s.che 1 then settleDefs (stopPlaying s)
  else settleDefs (s.setChe { s.che with queue := s.che.queue.filter (fun r => r.num != 1) })

/-- R135: the parking cadence condition is evaluated; `frame` says that a good PARK_ASSIST frame is the event. -/
def evalCadence (frame : Bool) (s : State) : State :=
  let new := cadenceNow s.vsr
  let old := s.che.cadence
  let s := s.setChe { s.che with cadence := new }
  if new ∧ ¬ old then arriveInternal 1 s
  else if ¬ new ∧ old then stopCadence s
  else if new ∧ frame ∧ ¬ inUse s.che 1 then arriveInternal 1 s
  else s

/-! ## The chime voice at an output sample instant (R125, R126, R136) -/

/-- R125: the envelope of instant `k` of a step of `n` instants. -/
def stepEnvelope (k n : Nat) : Nat := min 96 (min (k + 1) (n - k))

/-- R136: the envelope of instant `k` of a cadence cycle, the next one being decided as `next`. -/
def cycleEnvelope (c : Cycle) (next : Option Cycle) (k : Nat) : Nat :=
  match c.kind with
  | .beep => stepEnvelope k beepLength
  | .continuous =>
    let up := if c.attack then k + 1 else 96
    let down := match next with
      | some n => if n.kind = .beep then c.len - k else 96
      | none => 96
    min 96 (min up down)

/-- The envelope of the playing chime at its instant. -/
def playingEnvelope (c : Che) (p : Playing) : Nat :=
  match p.cycle with
  | some cyc => cycleEnvelope cyc p.decided p.k
  | none => stepEnvelope p.k (48 * (stepOf c p.chime.num p.step).dur)

/-- How many instants the step or the cycle of the playing chime has. -/
def playingLength (c : Che) (p : Playing) : Nat :=
  match p.cycle with
  | some cyc => cyc.len
  | none => 48 * (stepOf c p.chime.num p.step).dur

/-- The playing chime as it stands at an instant: the cadence has its first cycle. -/
def atInstant (v : Vsr) (p : Playing) : Playing := if p.chime.num = 1 then cadenceBegun v p else p

/-- R125, R126: the sample the chime voice hands, and the voice after the instant. Past the end of its step, cycle or tail the
voice hands 0 until the end is taken. -/
def chimeInstant (v : Vsr) (c : Che) : Int × Che :=
  match c.tail with
  | some t =>
    if t.j < 96 then
      (toneSample t.freq t.level t.phase (min t.env (95 - t.j)),
       { c with tail := some { t with j := t.j + 1, phase := t.phase + increment t.freq } })
    else (0, c)
  | none =>
    match c.playing with
    | none => (0, c)
    | some p =>
      let p := atInstant v p
      let t := soundingTone c p
      let e := playingEnvelope c p
      if p.k < playingLength c p then
        (toneSample t.freq t.level p.phase e,
         { c with playing := some { p with k := p.k + 1, phase := p.phase + increment t.freq, env := e, sounded := true } })
      else (0, c)

/-- R118: the headphone switch: the flag of the definition whose sound is on the voice. -/
def headphoneOn (c : Che) : Bool :=
  match c.tail with
  | some t => t.headphone
  | none =>
    match c.playing with
    | some p => headphoneOf c p.chime.num
    | none => false

/-! ## The UI voice (R140, R151) -/

/-- The sample index of the first sample held. -/
def UiVoice.first (u : UiVoice) : Nat := u.fetched - u.held.length

/-- R140, R151: the sample the UI voice hands; 0 where it has not arrived. -/
def uiSample (c : Che) : Int :=
  match c.ui with
  | none => 0
  | some u => if u.first = u.pos then (match u.held with
      | [] => 0
      | x :: _ => x.toInt) else 0

def soundOf (c : Che) (n : Nat) : SoundEntry := nth c.bank n emptySound

/-- R140: the position advances; at the entry's length the voice becomes idle. -/
def uiAdvance (c : Che) : Che :=
  match c.ui with
  | none => c
  | some u =>
    if u.pos + 1 < (soundOf c u.entry).len then
      { c with ui := some { u with
        pos := u.pos + 1
        held := if u.first = u.pos then u.held.tail else u.held } }
    else { c with ui := none }

/-- R151: samples that the bank reader brings from index `i` on; those already passed are dropped. -/
def uiArrive (i : Nat) (xs : List Half) (u : UiVoice) : UiVoice :=
  let held := if i = u.fetched then u.held ++ xs else xs
  let done := i + xs.length
  { u with fetched := done, held := held.drop (u.pos - (done - held.length)) }

/-! ## The sound bank (R137 to R139) -/

def setSound (n : Nat) (e : SoundEntry) (c : Che) : Che := { c with bank := c.bank.set n e }

/-- Blocks return to the free set, which is kept in rising order. -/
def freeBlocks (bs : List Nat) (c : Che) : Che :=
  { c with free := (List.range 256).filter (fun b => c.free.contains b || bs.contains b) }

/-- R139: a load ends EMPTY: its blocks return and its copy leaves BULK. -/
def dropLoad (n : Nat) (s : State) : State :=
  let e := soundOf s.che n
  let c := freeBlocks e.blocks (setSound n emptySound s.che)
  dropBulk (.sound n) (s.setChe { c with loads := c.loads - 1 })

/-- R139: the last byte of a load has been written. -/
def finishLoad (n : Nat) (s : State) : State :=
  let e := soundOf s.che n
  let c := setSound n { e with st := .loaded, load := none } s.che
  let s := dropBulk (.sound n) (s.setChe { c with loads := c.loads - 1 })
  match e.load with
  | some q => completeRequest q statusDone s
  | none => s

/-- R139: the Fetch Engine reports an error on a load. -/
def failLoad (n : Nat) (s : State) : State :=
  match (soundOf s.che n).load with
  | some q => completeRequest q (statusFailed .fetch) (dropLoad n s)
  | none => dropLoad n s

/-- R139: a load ended by DETACH, FAULTED or link reset; its request is abandoned. -/
def abandonLoad (n : Nat) (s : State) : State :=
  if (soundOf s.che n).st = .loading then dropLoad n s else s

/-- Every entry of the sound bank in turn. -/
def onSounds (f : Nat → State → State) (s : State) : State :=
  (List.range 32).foldl (fun t n => f n t) s

def isSoundId : BulkId → Bool
  | .sound _ => true
  | _ => false

/-- R139: CHE suspends its copies on BULK at LOW. -/
def suspendLoads (s : State) : State :=
  s.setFen { s.fen with bulk := s.fen.bulk.map (fun b => if isSoundId b.id then { b with chan := b.chan.suspended } else b) }

/-- R139: CHE resumes them at NORMAL. -/
def resumeLoads (s : State) : State :=
  s.setFen { s.fen with bulk := s.fen.bulk.map (fun b => if isSoundId b.id then { b with chan := b.chan.resumed } else b) }

/-! ## Requests -/

def clampStep (e : StepEntry) : ToneStep where
  freq  := if e.freq.toNat = 0 then 0 else max 200 (min e.freq.toNat 5000)
  dur   := max 10 (min e.dur.toNat 2000)
  level := min e.level.toNat 192

/-- How many fields of a step R124 adjusts. -/
def stepAdjustments (e : StepEntry) : Nat :=
  let t := clampStep e
  (if t.freq = e.freq.toNat then 0 else 1) + (if t.dur = e.dur.toNat then 0 else 1)
    + (if t.level = e.level.toNat then 0 else 1)

/-- R124; the record must hold as many steps as its count says (R176, step 3). -/
def ownDefineChime (p : ChimeParams) (s : State) : State × Answer :=
  let n := p.entry.toNat
  let steps := p.steps.take p.count.toNat
  if 15 < n then (s, answerInvalid .range)
  else if n ≤ 2 then (s, answerState .internal)
  else if inUse s.che n then (s, answerState .inUse)
  else match classOfCode p.cls.toNat with
    | none => (s, answerInvalid .range)
    | some cls =>
      if 8 < p.count.toNat ∨ 15 < p.priority.toNat then (s, answerInvalid .range)
      else if p.steps.length < p.count.toNat then (s, answerInvalid .length)
      else if p.count = 0 then (s.setChe { s.che with defs := s.che.defs.set n none }, answerDone)
      else
        (s.setChe { s.che with defs := s.che.defs.set n (some
            { cls := cls
              priority := p.priority.toNat
              duck := min p.duck.toNat 48
              repeats := p.repeats.toNat
              headphone := p.flags.getLsbD 0
              steps := steps.map clampStep }) },
         answerAdjusted ((if p.duck.toNat ≤ 48 then 0 else 1) + (steps.map stepAdjustments).sum))

/-- R132. -/
def ownPlayChime (c : Byte) (s : State) : State × Answer :=
  if 15 < c.toNat then (s, answerInvalid .range)
  else if c = 1 then (s, answerState .internal)
  else arrive c.toNat .request s

/-- R133. -/
def ownCancelChime (c : Byte) (s : State) : State × Answer :=
  if 15 < c.toNat then (s, answerInvalid .range)
  else if c = 1 then (s, answerState .internal)
  else if isQueued s.che c.toNat then
    (settleDefs (s.setChe { s.che with queue := s.che.queue.filter (fun r => r.num != c.toNat) }), answerDone)
  else if isPlaying s.che c.toNat then (settleDefs (stopPlaying s), answerDone)
  else (s, answerDone)

/-- R137: the blocks of an entry of `len` samples. -/
def blocksFor (len : Nat) : Nat := (len + 2047) / 2048

/-- R138. A load taken while the supply is LOW starts ACTIVE as R145 gives it (log entry 23). -/
def ownLoadSound (q : LongReq) (p : LoadParams) (s : State) : State × Answer :=
  let n := p.entry.toNat
  let len := p.len.toNat
  let e := soundOf s.che n
  let c := freeBlocks e.blocks s.che
  if 31 < n ∨ 262144 < len then (s, answerInvalid .range)
  else if 0 < len ∧ (p.addr.toNat % 2 ≠ 0 ∨ ¬ insideWindow (requestWindow s) p.addr.toNat (2 * len)) then
    (s, answerInvalid .address)
  else if e.st = .loading then (s, answerState .busy)
  else if (match s.che.ui with
      | some u => u.entry == n
      | none => false) then (s, answerState .inUse)
  else if 0 < len ∧ 2 ≤ s.che.loads then (s, answerState .busy)
  else if c.free.length < blocksFor len then (s, answerState .noRoom)
  else if len = 0 then
    (completeRequest q statusDone (s.setChe (setSound n ⟨.loaded, 0, [], none⟩ c)), answerPending)
  else
    let blocks := c.free.take (blocksFor len)
    let c := setSound n ⟨.loading, len, blocks, some q⟩ { c with free := c.free.drop (blocksFor len), loads := c.loads + 1 }
    (handBulk (.sound n) [⟨p.addr.toNat, 2 * len⟩] (s.setChe c), answerPending)

/-- R140, R151: a bank unit in progress is for the sound that is cut off, and brings nothing. -/
def cutBankUnit (s : State) : State := cutLocal .bank s

/-- R140. -/
def ownPlaySound (c : Byte) (s : State) : State × Answer :=
  let e := soundOf s.che c.toNat
  if 31 < c.toNat then (s, answerInvalid .range)
  else if e.st ≠ .loaded then (s, answerState .empty)
  else
    (cutBankUnit (s.setChe { s.che with ui := if e.len = 0 then none else some ⟨c.toNat, 0, 0, []⟩ }), answerDone)

end Sys2Proof.Machine
end

