-- ==== Sys2Proof/Machine/Settings.lean ====
section
/-! DEFINITION. The Settings Store (chapter 9): the image, its checks and its values (R187, R189, R199, Table 10-11), the flash
port, the phases of a rewrite, the application of a waiting image, and the requests WRITE_SETTINGS and READ_SETTINGS. -/

namespace Sys2Proof.Machine

/-! ## The image -/

/-- R187: one shift of the CRC register. -/
def crc32Shift (r : Word) : Word := if r.getLsbD 0 then (r >>> 1) ^^^ 0xEDB88320 else r >>> 1

/-- R187: the CRC register after one byte. -/
def crc32Byte (r : Word) (b : Byte) : Word :=
  let r := r ^^^ b.setWidth 32
  crc32Shift (crc32Shift (crc32Shift (crc32Shift (crc32Shift (crc32Shift (crc32Shift (crc32Shift r)))))))

/-- R187: the CRC of a byte string. -/
def crc32 (bs : List Byte) : Word := ~~~(bs.foldl crc32Byte 0xFFFFFFFF)

/-- R187: the first check that an image fails, or none. -/
def imageFault (img : List Byte) : Option ImageReason :=
  if u32At img 0 ≠ 0x49534346 then some .magic
  else if u16At img 4 ≠ 1 then some .format
  else if u16At img 6 ≠ 1024 then some .length
  else if crc32 ((img.drop 16).take 1008) ≠ u32At img 8 then some .crc
  else none

/-- The serial field of an image (Table 10-11). -/
def imageSerial (img : List Byte) : Word := u32At img 12

/-- R40: a policy value of an image, clamped. -/
def imagePolicy (img : List Byte) : Policy where
  exitDelay   := min (u16At img 48).toNat 10000
  exitSpeed   := min (u16At img 50).toNat 30000
  manualLimit := min (u16At img 52).toNat 30000
  chimeEnable := u8At img 54 != 0

/-- Table 3-5: the calibration as the image holds it. -/
def imageCalibration (img : List Byte) : Calibration where
  present    := u8At img 56 != 0
  curvature  := (List.range 17).map (fun i => s32At img (64 + 4 * i))
  shift      := (u8At img 57).toNat
  stepLen    := (u16At img 60).toNat
  guideWidth := (u16At img 62).toNat
  homography := (List.range 9).map (fun i => s32At img (132 + 4 * i))
  marks      := (List.range 3).map (fun i => (u16At img (168 + 2 * i)).toNat)
  lineWidth  := (u8At img 58).toNat
  near       := u32At img 176
  middle     := u32At img 180
  far        := u32At img 184

/-- R199: a chime definition of the image at an offset. -/
def imageChime (img : List Byte) (o : Nat) : ChimeDef where
  cls       := (classOfCode (u8At img o).toNat).getD .comfort
  priority  := min (u8At img (o + 1)).toNat 15
  duck      := min (u8At img (o + 2)).toNat 48
  repeats   := (u8At img (o + 3)).toNat
  headphone := (u8At img (o + 4)).getLsbD 0
  steps     := (List.range (max 1 (min (u8At img (o + 5)).toNat 8))).map
    (fun i => clampStep (stepEntryAt img (o + 8 + 8 * i)))

/-- R123, R199: definition 1 takes class SAFETY and repeat count 0. -/
def asCadence (d : ChimeDef) : ChimeDef := { d with cls := .safety, repeats := 0 }

/-- R189, Table 10-11: the running settings that a valid image gives. -/
def imageSettings (img : List Byte) : Settings where
  timing   := ⟨(u16At img 16).toNat, (u16At img 18).toNat, (u16At img 20).toNat, (u16At img 22).toNat, (u8At img 24).toNat⟩
  camW     := max 640 (min (u16At img 28).toNat 1280)
  camH     := max 480 (min (u16At img 30).toNat 800)
  mirror   := u8At img 32 != 0
  cx       := s16At img 36
  cy       := s16At img 38
  backdrop := u32At img 40
  noSignal := u32At img 44
  policy   := imagePolicy img
  calib    := imageCalibration img
  chimes   := [imageChime img 188, asCadence (imageChime img 260), imageChime img 332]
  serial   := imageSerial img
  crc      := u32At img 8

/-- R58: whether every item of Table 3-5 lies in its required range. -/
def calibrationValid (c : Calibration) : Bool :=
  c.present
  && c.curvature.all (fun k => decide (-200000 ≤ k) && decide (k ≤ 200000))
  && decide (c.shift ≤ 4)
  && decide (250 ≤ c.stepLen) && decide (c.stepLen ≤ 750)
  && decide (1200 ≤ c.guideWidth) && decide (c.guideWidth ≤ 2200)
  && c.marks.all (fun m => decide (m ≤ 10000))
  && decide (1 ≤ c.lineWidth) && decide (c.lineWidth ≤ 8)

/-! ## Taking running settings (R189) -/

/-- R189: running settings are taken, and VWC, GLG and CHE take theirs. CIN and CMP read the running settings at their own events. -/
def takeSettings (x : Settings) (src : SettingsSource) (s : State) : State :=
  let s := s.setSto { s.sto with running := x, source := src }
  let s := s.setVwc { s.vwc with policy := x.policy }
  let s := s.setGlg { s.glg with valid := calibrationValid x.calib }
  settleDefs (s.setChe (takeDefs x.chimes s.che))

/-- R196: raise SETTINGS_STATE with an event code, a reason and a serial. -/
def raiseSettings (event reason : Nat) (serial : Word) (s : State) : State :=
  raise .settingsState (BitVec.ofNat 32 (event + 256 * sourceCode s.sto.source + 65536 * reason)) serial s

/-- R188: the start-up image is taken or rejected. -/
def takeStartImage (img : List Byte) (s : State) : State :=
  match imageFault img with
  | none =>
    raiseSettings 1 0 (imageSerial img)
      (takeSettings (imageSettings img) .image (s.setSto { s.sto with staged := img }))
  | some r =>
    let s := takeSettings defaultSettings .defaults s
    raiseSettings 2 (imageReasonCode r) 0 (s.setSto { s.sto with rejection := some r })

/-- R193: the waiting image, if any, is applied. -/
def applyWaiting (s : State) : State :=
  match s.sto.waiting with
  | none => s
  | some img =>
    raiseSettings 4 0 (imageSerial img) (takeSettings (imageSettings img) .image (s.setSto { s.sto with waiting := none }))

/-! ## The flash port (R191, R195) -/

/-- R191: 1000 ms, 20 ms, in ns. -/
def eraseLimitNs : Nat := 1000000000
def programLimitNs : Nat := 20000000

def setFlash (op : Option FlashOp) (s : State) : State := s.setSto { s.sto with flash := op }

/-- R191: the port is free for an operation; after a write that ended by a timeout the device is first waited for. The erase of a
write in ERASING is not begun while the supply is LOW (log entry 20), and a read waits until the write's flash phases have ended. -/
def serveFlash (s : State) : State :=
  match s.sto.flash with
  | some _ => s
  | none =>
    if s.sto.writePhase = .erasing then
      if s.sto.notReady then setFlash (some (.readyWait true (s.clockNs + eraseLimitNs))) s
      else if s.smn.low then s
      else setFlash (some (.erase (s.clockNs + eraseLimitNs))) s
    else if s.sto.writePhase = .programming ∨ s.sto.writePhase = .verifying then s
    else if s.sto.readPhase = .flashRead then
      if s.sto.notReady then setFlash (some (.readyWait false (s.clockNs + eraseLimitNs))) s
      else setFlash (some (.read (s.clockNs + flashReadNs))) s
    else s

/-- The flash port falls free. -/
def freeFlash (s : State) : State := serveFlash (setFlash none s)

/-! ## The end of a write (R190, R191, R192) -/

/-- Table 9-2: the final status of a failed write. -/
def writeFailure : WriteReason → Status
  | .image _ => statusFailed .image
  | .fetch => statusFailed .fetch
  | _ => statusFailed .verify

/-- Table 9-5: detail word 1 of WRITE_FAILED. -/
def failedSerial (r : WriteReason) (staged : List Byte) : Word :=
  match r with
  | .fetch => imageSerial staged
  | .eraseTimeout => imageSerial staged
  | .programTimeout => imageSerial staged
  | .compare => imageSerial staged
  | _ => 0

/-- R190, R191: a write fails: its request completes, the reason is recorded and the notice raised. -/
def failWrite (r : WriteReason) (s : State) : State :=
  let s := match s.sto.writeReq with
    | some q => completeRequest q (writeFailure r) s
    | none => s
  let s := s.setSto { s.sto with writePhase := .idle, lastOutcome := some r, writeReq := none }
  raiseSettings 5 (writeReasonCode r) (failedSerial r s.sto.staged) s

/-- R192: a write succeeds. -/
def finishWrite (s : State) : State :=
  let s := match s.sto.writeReq with
    | some q => completeRequest q statusDone s
    | none => s
  let s := s.setSto { s.sto with writePhase := .idle, lastOutcome := none, writeReq := none, waiting := some s.sto.staged }
  if s.vwc.view = .off then applyWaiting s else raiseSettings 3 0 (imageSerial s.sto.staged) s

/-- R190: the copy is complete. -/
def copyInDone (s : State) : State :=
  match imageFault s.sto.staged with
  | some r => failWrite (.image r) s
  | none =>
    if s.smn.low then s.setSto { s.sto with writePhase := .waitSupply }
    else serveFlash (s.setSto { s.sto with writePhase := .erasing })

/-- R190: the Fetch Engine reports an error on the copy. -/
def copyInFailed (s : State) : State := failWrite .fetch s

/-- R191: the supply returns to NORMAL, for the write and its erase. -/
def eraseAtNormal (s : State) : State :=
  if s.sto.writePhase = .waitSupply then serveFlash (s.setSto { s.sto with writePhase := .erasing }) else serveFlash s

/-- R191: programming of a page begins. -/
def programPage (n : Nat) (s : State) : State :=
  setFlash (some (.program n (s.clockNs + programLimitNs))) (s.setSto { s.sto with writePhase := .programming })

/-- R191: the verify read begins. -/
def startVerify (s : State) : State :=
  setFlash (some (.verify (s.clockNs + flashReadNs))) (s.setSto { s.sto with writePhase := .verifying })

/-- R191: a write ended by a timeout; the next flash operation first waits for the device. -/
def timeoutWrite (r : WriteReason) (s : State) : State :=
  freeFlash (failWrite r (s.setSto { s.sto with notReady := true }))

/-- R192: the comparison. -/
def compareImage (bytes : List Byte) (s : State) : State :=
  freeFlash (if bytes = s.sto.staged then finishWrite s else failWrite .compare s)

/-! ## READ_SETTINGS (R195) -/

/-- A pending read reaches a final status. -/
def endRead (st : Status) (s : State) : State :=
  let s := match s.sto.readReq with
    | some q => completeRequest q st s
    | none => s
  s.setSto { s.sto with readPhase := .idle, readReq := none }

/-- R195: the flash read has ended: the copy out begins. -/
def startCopyOut (bytes : List Byte) (s : State) : State :=
  let s := handBulk .settingsOut [⟨s.sto.readAddr, 1024⟩]
    (s.setSto { s.sto with readPhase := .copyOut, readImage := bytes })
  freeFlash (if s.smn.low then suspendChannel (.bulk .settingsOut) s else s)

/-! ## Supply LOW and NORMAL for the copies (R190, R195) -/

def suspendCopies (s : State) : State :=
  suspendChannel (.bulk .settingsOut) (suspendChannel (.bulk .settingsIn) s)

def resumeCopies (s : State) : State :=
  resumeChannel (.bulk .settingsOut) (resumeChannel (.bulk .settingsIn) s)

/-! ## DETACH, FAULTED and link reset (R194, R195) -/

/-- R194: a pending write is ended in COPYING and WAIT_SUPPLY, and loses its answer in the flash phases. -/
def abandonWrite (s : State) : State :=
  if s.sto.writePhase = .copying ∨ s.sto.writePhase = .waitSupply then
    let s := dropBulk .settingsIn s
    let s := s.setSto { s.sto with writePhase := .idle, staged := [], lastOutcome := some .aborted, writeReq := none }
    raiseSettings 5 (writeReasonCode .aborted) 0 s
  else if s.sto.writePhase = .idle then s
  else s.setSto { s.sto with writeReq := s.sto.writeReq.map (fun _ => ⟨none⟩) }

/-- Whether the flash port is serving the read of a READ_SETTINGS. -/
def flashServesRead (s : State) : Bool :=
  match s.sto.flash with
  | some (.read _) => true
  | some (.readyWait forWrite _) => !forWrite
  | _ => false

/-- R195: a pending read is ended; its flash operation leaves the port at once (log entry 21). -/
def abandonRead (s : State) : State :=
  if s.sto.readPhase = .idle then s
  else
    let s := dropBulk .settingsOut (s.setSto { s.sto with readPhase := .idle, readReq := none })
    if flashServesRead s then freeFlash s else s

/-! ## Requests -/

/-- R190. -/
def ownWriteSettings (q : LongReq) (p : WriteParams) (s : State) : State × Answer :=
  if p.len ≠ 1024 then (s, answerInvalid .range)
  else if p.addr.toNat % 4 ≠ 0 ∨ ¬ insideWindow (requestWindow s) p.addr.toNat 1024 then (s, answerInvalid .address)
  else if s.sto.source = .loading ∨ s.sto.writePhase ≠ .idle then (s, answerState .busy)
  else
    let s := handBulk .settingsIn [⟨p.addr.toNat, 1024⟩]
      (s.setSto { s.sto with writePhase := .copying, staged := [], writeReq := some q })
    (if s.smn.low then suspendChannel (.bulk .settingsIn) s else s, answerPending)

/-- R195. -/
def ownReadSettings (q : LongReq) (a : Dword) (s : State) : State × Answer :=
  if a.toNat % 4 ≠ 0 ∨ ¬ insideWindow (requestWindow s) a.toNat 1024 then (s, answerInvalid .address)
  else if s.sto.source = .loading ∨ s.sto.readReq.isSome then (s, answerState .busy)
  else
    (serveFlash (s.setSto { s.sto with readPhase := .flashRead, readReq := some q, readAddr := a.toNat }), answerPending)

end Sys2Proof.Machine
end

