-- ==== Sys2Proof/Machine/Guide.lean ====
section
/-! DEFINITION. The Guide Line Generator (3.7): the five stages of a run, the swap and the run at a centre vblank, and the overlay
format of R143. -/

namespace Sys2Proof.Machine

/-! ## Local memory regions (Table 7-2) -/

def cameraAddr (b : Nat) : Nat := 2048000 * b
def overlayAddr (one : Bool) : Nat := if one then 6553600 else 6291456
def bankAddr (block : Nat) : Nat := 7340032 + 4096 * block

/-- R22: the captured width that the running settings give: the camera frame width with its lowest bit cleared. -/
def capturedWidth (x : Settings) : Nat := x.camW / 2 * 2

/-- R143: the bytes of an overlay row. -/
def overlayRow (w : Nat) : Nat := (w + 3) / 4

/-! ## Stages 1 and 2 -/

/-- R61: the target curvature. -/
def targetCurvature (k : List Int) (steering : Int) : Int :=
  let s := saturate (-6400) 6400 steering
  let j := min ((s + 6400) / 800).toNat 15
  let a := nth k j 0
  let b := nth k (j + 1) 0
  a + roundDiv ((b - a) * (s - (-6400 + 800 * (j : Int)))) 800

/-- R62: the shown curvature after a FULL run. -/
def shownCurvature (n : Nat) (snap : Bool) (ks kt : Int) : Int :=
  let d := kt - ks
  if snap then kt
  else if d.natAbs < 2 ^ n then kt
  else ks + truncDiv d (2 ^ n)

/-! ## Stages 3 and 4 -/

/-- R63: the path centre offset at a distance. -/
def pathOffset (ks : Int) (dist : Nat) : Int :=
  saturate (-8000) 8000 (roundDiv (ks * (dist * dist : Nat)) 2000000000)

/-- R64: the image point of a ground point, where D is greater than 0. -/
def project (h : List Int) (x y : Int) : Option Point :=
  let g (i : Nat) : Int := nth h i 0
  let u := g 0 * x + g 1 * y + g 2
  let v := g 3 * x + g 4 * y + g 5
  let d := g 6 * x + g 7 * y + g 8
  if 0 < d then some ⟨saturate (-2048) 4095 (roundDiv u d), saturate (-2048) 4095 (roundDiv v d)⟩ else none

/-- R64: the points of a line up to the first one that is dropped. -/
def keptPoints : List (Option Point) → List Point
  | some p :: t => p :: keptPoints t
  | _ => []

/-- R63, R64: a trajectory line, `side` being −1 for the left one and 1 for the right one. -/
def trajectory (c : Calibration) (ks : Int) (side : Int) : List Point :=
  keptPoints ((List.range 8).map (fun i =>
    project c.homography (pathOffset ks (i * c.stepLen) + side * (c.guideWidth / 2 : Nat)) (i * c.stepLen : Nat)))

/-- R65: the colour index of a starting distance. -/
def colourIndex (dist : Nat) : Nat := if dist < 1000 then 1 else if dist < 2000 then 2 else 3

/-- R63, R64: a static mark; a distance of 0, or an end with D not above 0, gives none. -/
def staticMark (c : Calibration) (m : Nat) : Option Segment :=
  let half : Int := (c.guideWidth / 2 : Nat)
  if m = 0 then none
  else match project c.homography (-half) m, project c.homography half m with
    | some p, some q => some ⟨p, q, colourIndex m⟩
    | _, _ => none

/-! ## Stage 5 -/

/-- R65: the segments of a line whose points start at the given index. -/
def lineSegments (step : Nat) (i : Nat) : List Point → List Segment
  | p :: q :: t => ⟨p, q, colourIndex (i * step)⟩ :: lineSegments step (i + 1) (q :: t)
  | _ => []

/-- R65: the segments of a run in drawing order. -/
def GuideRun.segments (r : GuideRun) : List Segment :=
  r.marks ++ lineSegments r.step 0 r.left ++ lineSegments r.step 0 r.right

/-- R65: whether the centre of a pixel lies within w/2 of the closed segment, computed exactly in half pixels. -/
def covers (w : Nat) (px py : Nat) (g : Segment) : Bool :=
  let ax := 2 * (px : Int) + 1 - 2 * g.p.u
  let ay := 2 * (py : Int) + 1 - 2 * g.p.v
  let dx := 2 * (g.q.u - g.p.u)
  let dy := 2 * (g.q.v - g.p.v)
  let dd := dx * dx + dy * dy
  let t := ax * dx + ay * dy
  let r : Int := (w * w : Nat)
  if t ≤ 0 then decide (ax * ax + ay * ay ≤ r)
  else if dd ≤ t then decide ((ax - dx) * (ax - dx) + (ay - dy) * (ay - dy) ≤ r)
  else decide ((ax * dy - ay * dx) * (ax * dy - ay * dx) ≤ r * dd)

/-- R65, R143: the colour index of a pixel: that of the last segment that paints it, 0 for none. -/
def guidePixel (w : Nat) (gs : List Segment) (px py : Nat) : Nat :=
  gs.foldl (fun c g => if covers w px py g then g.colour else c) 0

/-- R143: one byte of the overlay. -/
def guideByte (r : GuideRun) (i : Nat) : Byte :=
  let y := i / overlayRow r.w
  let x := 4 * (i % overlayRow r.w)
  let pix (k : Nat) : Nat := if x + k < r.w then guidePixel r.width r.segments (x + k) y else 0
  BitVec.ofNat 8 (pix 0 + 4 * pix 1 + 16 * pix 2 + 64 * pix 3)

/-- The bytes of a run's overlay from a byte offset. -/
def guideBytes (r : GuideRun) (off len : Nat) : List Byte :=
  (List.range len).map (fun i => guideByte r (off + i))

/-! ## The run (R59, R60) -/

/-- R60: raise GUIDE_STATE where the guide mode changes. -/
def setGuideMode (m : GuideMode) (s : State) : State :=
  if m = s.glg.mode then s
  else
    raise .guideState (changeWord (guideCode m) (guideCode s.glg.mode))
      (BitVec.ofNat 32 (bit (s.vsr.motionFresh.st == .valid) 0 + bit s.vsr.motion.steeringValid 1))
      (s.setGlg { s.glg with mode := m })

/-- R60: the guide mode of a run. -/
def runMode (s : State) : GuideMode :=
  if ¬ s.glg.valid then .noCalibration else if linesHidden s.vsr then .staticOnly else .full

/-- R60: the tag that a completed run leaves. -/
def tagOf : GuideMode → OverlayTag
  | .staticOnly => .static
  | .full => .full
  | _ => .empty

/-- Set the tag of the back buffer. -/
def tagBack (t : OverlayTag) (g : Glg) : Glg :=
  if g.front1 then { g with tag0 := t } else { g with tag1 := t }

/-- R59: the back buffer holds a completed run of a mode. -/
def completeRun (m : GuideMode) (s : State) : State :=
  s.setGlg { tagBack (tagOf m) s.glg with run := none, backDone := true }

/-- R59: GUIDE_WR has written the whole back buffer. -/
def guideDone (s : State) : State :=
  match s.glg.run with
  | some r => completeRun r.mode s
  | none => s

/-- R59, R66: a run in progress is abandoned. -/
def abandonRun (s : State) : State :=
  match s.glg.run with
  | some _ => stopChannel .guideWr (cutLocal .guideWr (s.setGlg { s.glg with run := none }))
  | none => s

/-- R59: the swap at a centre vblank. -/
def swapOverlay (s : State) : State :=
  if s.glg.backDone then s.setGlg { s.glg with front1 := !s.glg.front1, backDone := false } else abandonRun s

/-- R61, R62: stages 1 and 2 of a FULL run. -/
def curvatureStep (s : State) : State :=
  let c := s.sto.running.calib
  let kt := targetCurvature c.curvature s.vsr.motion.steering
  s.setGlg { s.glg with ks := shownCurvature c.shift s.glg.snap s.glg.ks kt, snap := false }

/-- R63, R64: stages 3 and 4: the point lists of a run. -/
def formRun (m : GuideMode) (x : Settings) (ks : Int) : GuideRun where
  mode  := m
  w     := capturedWidth x
  h     := x.camH
  width := x.calib.lineWidth
  step  := x.calib.stepLen
  marks := x.calib.marks.filterMap (staticMark x.calib)
  left  := if m = .full then trajectory x.calib ks (-1) else []
  right := if m = .full then trajectory x.calib ks 1 else []

/-- R59: a run starts into the back buffer. -/
def startRun (m : GuideMode) (s : State) : State :=
  let r := formRun m s.sto.running s.glg.ks
  startChannel .guideWr [⟨overlayAddr (!s.glg.front1), r.h * overlayRow r.w⟩] (s.setGlg { s.glg with run := some r })

/-- R59, R60: GLG at a centre vblank at which the view is LIVE. -/
def guideVblank (s : State) : State :=
  if s.vwc.view = .live then
    let s := swapOverlay s
    let m := runMode s
    let s := setGuideMode m s
    if m = .noCalibration then completeRun m s
    else if m = .full then startRun m (curvatureStep s)
    else startRun m s
  else s

/-- R66: the exit from LIVE. -/
def guideExit (s : State) : State :=
  let s := abandonRun s
  setGuideMode .none (s.setGlg { s.glg with tag0 := .empty, tag1 := .empty, backDone := false })

/-! ## What is displayed (R60) -/

def frontTag (g : Glg) : OverlayTag := if g.front1 then g.tag1 else g.tag0

/-- R58, R60: whether the front buffer is displayed. -/
def overlayVisible (s : State) : Bool :=
  match frontTag s.glg with
  | .empty => false
  | .static => true
  | .full => !linesHidden s.vsr

end Sys2Proof.Machine
end

