-- ==== Sys2Proof/Machine/Compositor.lean ====
section
/-! DEFINITION. The Display Compositor (chapter 4): timings and pipe states, host scenes, the plane readers of a frame, blending
and conversion, the suppressions, and the requests SET_PIPE_TIMING, PIPE_OFF, RESTART_PIPE and SET_SCENE. What a pipe does at a
vblank stands in Vblank.lean. -/

namespace Sys2Proof.Machine

/-! ## Timings (R69, R70) -/

/-- Table 4-1: the largest active area of a pipe. -/
def largestArea : PipeId → Nat × Nat
  | .centre => (1920, 720)
  | .rearL => (1280, 800)
  | .rearR => (1280, 800)

/-- R70. -/
def timingOk (p : PipeId) (t : Timing) : Bool :=
  decide (t.activeW % 2 = 0)
  && decide (320 ≤ t.activeW) && decide (t.activeW ≤ (largestArea p).1)
  && decide (240 ≤ t.activeH) && decide (t.activeH ≤ (largestArea p).2)
  && decide (t.activeW + 16 ≤ t.totalW) && decide (t.totalW ≤ 4096)
  && decide (t.activeH + 4 ≤ t.totalH) && decide (t.totalH ≤ 2048)
  && decide (t.rate ≤ 7)
  && decide (8000000 ≤ framePeriodNs t) && decide (framePeriodNs t ≤ 40000000)

/-- The active area of a pipe (R80). -/
def activeArea (p : PipeId) (x : Pipe) : Nat × Nat :=
  match x.timing with
  | some t => (t.activeW, t.activeH)
  | none => largestArea p

/-! ## The plane readers of a pipe -/

/-- The six slots of a scene. -/
def slotNumbers : List Nat := List.range 6

def readerOf (x : Pipe) (slot : Nat) : SlotReader := nth x.readers slot idleReader

def setReader (p : PipeId) (slot : Nat) (r : SlotReader) (s : State) : State :=
  setPipe p { pipeOf s p with readers := (pipeOf s p).readers.set slot r } s

/-- The plane of a slot of the active scene. -/
def planeOf (x : Pipe) (slot : Nat) : Option Plane := nth x.active.slots slot none

/-- Every slot of a pipe in turn. -/
def onSlots (f : Nat → State → State) (s : State) : State := slotNumbers.foldl (fun t n => f n t) s

/-- R72, R87, R88: a plane reader is suspended cleanly, and its plane is shown no more in this frame. -/
def hideSlot (p : PipeId) (slot : Nat) (s : State) : State :=
  suspendChannel (.plane p slot) (setReader p slot idleReader s)

/-- R74, R82, R89: a plane reader is stopped. -/
def stopSlot (p : PipeId) (slot : Nat) (s : State) : State :=
  stopChannel (.plane p slot) (setReader p slot idleReader s)

/-- R72: every plane reader of a pipe is suspended cleanly and its fetched lines are discarded. -/
def hideSlots (p : PipeId) (s : State) : State := onSlots (hideSlot p) s

def stopSlots (p : PipeId) (s : State) : State := onSlots (stopSlot p) s

/-- The units of the two layer readers of the centre pipe bring nothing any more. -/
def cutLayerUnit (s : State) : State := cutLocal .ovlRead (cutLocal .camRead s)

/-- The layers of the camera composition are read no more in this frame. -/
def dropLayers (s : State) : State :=
  let s := cutLayerUnit s
  s.setFen { s.fen with camRead := idleLayer, ovlRead := idleLayer }

/-! ## Pipe states (R72 to R77) -/

/-- R77. -/
def raisePipe (p : PipeId) (new old : PipeState) (cause : PipeCause) (s : State) : State :=
  raise .pipeStateChange
    (BitVec.ofNat 32 (pipeCode p + 256 * pipeStateCode new + 65536 * pipeStateCode old))
    (BitVec.ofNat 32 (pipeCauseCode cause)) s

/-- R55, R56, R189: the layout of the camera composition as the running settings give it. -/
def layoutOf (x : Settings) (camera : Option Nat) : CompLayout :=
  ⟨x.backdrop, x.noSignal, x.cx, x.cy, capturedWidth x, x.camH, camera⟩

def latchLayout (camera : Option Nat) (s : State) : State :=
  s.setCmp { s.cmp with comp := layoutOf s.sto.running camera }

/-- R83, R189: a frame in progress shows no picture; the colours and the rectangle stay those of the frame's vblank. -/
def clearPicture (s : State) : State := s.setCmp { s.cmp with comp := { s.cmp.comp with camera := none } }

/-- R72, R83, R189: the layout of a pipe's new first frame. DESIGN CHOICE (log entry 39): a pipe that was OFF has no vblank to wait
for, and its first frame takes the running settings; one that was not keeps the layout of its latest vblank. -/
def startLayout (old : PipeState) (s : State) : State := if old = .off then latchLayout none s else clearPicture s

/-- Table 4-8: whether the view owns a pipe. -/
def viewOwns (p : PipeId) (s : State) : Bool := p == .centre && s.vwc.view != .off

/-- Table 4-8: the content of a pipe in STARTING. -/
def startingContent (p : PipeId) (s : State) : Content := if viewOwns p s then .viewBackdrop else .hostBackdrop

/-- R72: a pipe's own state at an entry into STARTING. -/
def startedPipe (content : Content) (clock : Nat) (x : Pipe) : Pipe :=
  { x with
    st := .starting
    startCount := 0
    nextVblankNs := clock + periodOf x
    content := content
    outLine := 0
    noticed := false
    line := [] }

/-- R72, R77: a pipe enters STARTING. -/
def enterStarting (p : PipeId) (cause : PipeCause) (s : State) : State :=
  let old := (pipeOf s p).st
  let s := hideSlots p s
  let s := if p = .centre then startLayout old (dropLayers s) else s
  let s := setPipe p (startedPipe (startingContent p s) s.clockNs (pipeOf s p)) s
  handSet p false false (raisePipe p .starting old cause s)

def camBuf (c : Cin) (i : Nat) : CamBuf := if i = 0 then c.buf0 else if i = 1 then c.buf1 else c.buf2

def setCamBuf (i : Nat) (b : CamBuf) (c : Cin) : Cin :=
  if i = 0 then { c with buf0 := b } else if i = 1 then { c with buf1 := b } else { c with buf2 := b }

/-- Every buffer in one state moves to another (R28 to R30). -/
def moveBufs (old new : BufState) (c : Cin) : Cin :=
  let f (b : CamBuf) : CamBuf := if b.st = old then { b with st := new } else b
  { c with buf0 := f c.buf0, buf1 := f c.buf1, buf2 := f c.buf2 }

/-- R30: the SHOWN buffer becomes FREE. -/
def freeShown (s : State) : State := s.setCin (moveBufs .shown .free s.cin)

/-- R74: a pipe in STARTING or RUNNING enters OFF. -/
def enterOff (p : PipeId) (s : State) : State :=
  let x := pipeOf s p
  let s := stopSlots p (hideSlots p s)
  let s := if p = .centre then freeShown (dropLayers s) else s
  let y := pipeOf s p
  let s := setPipe p { y with st := .off, content := .none, restarts := [], line := [] } s
  let s := handSet p false false (raisePipe p .off x.st .off s)
  completeAll x.restarts (statusFailed .pipeOff) s

/-- R76: the timing with which the view starts the CENTRE pipe. -/
def viewTiming (x : Settings) : Timing := if timingOk .centre x.timing then x.timing else defaultTiming

/-- R44, R76: the view starts the CENTRE pipe if it is OFF. -/
def startByView (s : State) : State :=
  let x := pipeOf s .centre
  if x.st = .off then
    enterStarting .centre .view (setPipe .centre { x with timing := some (viewTiming s.sto.running) } s)
  else s

/-! ## Requests on pipes -/

def withPipe (c : Byte) (s : State) (k : PipeId → State × Answer) : State × Answer :=
  match pipeOfCode c with
  | none => (s, answerInvalid .range)
  | some p => k p

/-- R71. -/
def ownSetPipeTiming (t : TimingParams) (s : State) : State × Answer :=
  withPipe t.pipe s fun p =>
    let tm : Timing := ⟨t.activeW.toNat, t.activeH.toNat, t.totalW.toNat, t.totalH.toNat, t.rate.toNat⟩
    if ¬ timingOk p tm then (s, answerInvalid .range)
    else if viewOwns p s then (s, answerState .viewActive)
    else (enterStarting p .setTiming (setPipe p { pipeOf s p with timing := some tm } s), answerDone)

/-- R74. -/
def ownPipeOff (c : Byte) (s : State) : State × Answer :=
  withPipe c s fun p =>
    if viewOwns p s then (s, answerState .viewActive)
    else if (pipeOf s p).st = .off then (s, answerDone)
    else (enterOff p s, answerDone)

/-- R75. -/
def ownRestartPipe (q : LongReq) (c : Byte) (s : State) : State × Answer :=
  withPipe c s fun p =>
    let x := pipeOf s p
    if 8 ≤ x.restarts.length then (s, answerState .busy)
    else if x.st = .off ∧ x.timing = none then (s, answerState .noTiming)
    else (enterStarting p .restart (setPipe p { x with restarts := x.restarts ++ [q] } s), answerPending)

/-! ## Scenes (R78 to R81) -/

/-- R79: the ranges of Table 4-6. -/
def placeOk (e : PlaneEntry) : Bool :=
  decide (-4096 ≤ e.x.toInt) && decide (e.x.toInt ≤ 4095) && decide (-4096 ≤ e.y.toInt) && decide (e.y.toInt ≤ 4095)
  && decide (e.width.toNat ≤ 4096) && decide (e.height.toNat ≤ 4096)

/-- R79: the checks of one plane; the first fault found. -/
def planeFault (w : Option Window) (e : PlaneEntry) : Option Minor :=
  match planeKindOfCode e.kind with
  | none => some .kind
  | some k =>
    let bytes := e.stride.toNat * (e.height.toNat - 1) + 4 * e.width.toNat
    if ¬ placeOk e then some .range
    else if k = .surface ∧ 0 < e.width.toNat ∧ 0 < e.height.toNat then
      if e.stride.toNat % 64 ≠ 0 ∨ e.stride.toNat < 4 * e.width.toNat then some .range
      else if e.addr.toNat % 64 ≠ 0 ∨ ¬ insideWindow w e.addr.toNat bytes then some .address
      else none
    else none

/-- R80: the part of an interval of `n` pixels from `a` that lies in 0..size−1: its start and its length. -/
def clipSpan (a : Int) (n size : Nat) : Int × Nat :=
  let lo := max a 0
  let hi := min (a + n) size
  (lo, (hi - lo).toNat)

/-- R80: a plane as it is stored, or none if it is removed. -/
def clipPlane (area : Nat × Nat) (e : PlaneEntry) : Option Plane :=
  let xs := clipSpan e.x.toInt e.width.toNat area.1
  let ys := clipSpan e.y.toInt e.height.toNat area.2
  match planeKindOfCode e.kind with
  | none => none
  | some k =>
    if xs.2 = 0 ∨ ys.2 = 0 then none
    else some {
      kind := k
      addr := e.addr
      stride := e.stride.toNat
      colour := e.colour
      x := xs.1
      y := ys.1
      w := xs.2
      h := ys.2
      alpha := e.alpha.toNat
      safe := e.flags.getLsbD 0 && k.film.isNone
      ox := (xs.1 - e.x.toInt).toNat
      oy := (ys.1 - e.y.toInt).toNat }

/-- R80, R176: how many adjustments a plane counts for. DESIGN CHOICE (log entry 40): a removed FILM plane that carried the
camera-safe mark counts 1, for its removal; the mark is gone with it. -/
def planeAdjustments (area : Nat × Nat) (e : PlaneEntry) : Nat :=
  match clipPlane area e with
  | none => 1
  | some q =>
    (if q.w = e.width.toNat ∧ q.h = e.height.toNat then 0 else 1)
      + (if e.flags.getLsbD 0 ∧ ¬ q.safe then 1 else 0)

/-- R81: a validated scene becomes the pending scene. -/
def storeScene (sc : Scene) (x : Pipe) : Pipe :=
  { x with
    pendingScene := some sc
    superseded := if x.pendingScene.isSome then x.superseded + 1 else x.superseded }

/-- R79 to R81; between steps 2 and 3 of R79, the record must hold as many planes as its count says (R176). -/
def ownSetScene (sc : SceneParams) (s : State) : State × Answer :=
  withPipe sc.pipe s fun p =>
    let planes := sc.planes.take sc.count.toNat
    let area := activeArea p (pipeOf s p)
    if 6 < sc.count.toNat then (s, answerInvalid .tooMany)
    else if sc.planes.length < sc.count.toNat then (s, answerInvalid .length)
    else match planes.findSome? (planeFault (requestWindow s)) with
      | some m => (s, answerInvalid m)
      | none =>
        let kept := planes.filterMap (clipPlane area)
        (setPipe p (storeScene ⟨sc.backdrop, kept.map some⟩ (pipeOf s p)) s,
         answerAdjusted ((planes.map (planeAdjustments area)).sum))

/-! ## What the frame shows (R57, R83 to R85) -/

/-- R57: the slots of the first two camera-safe planes of a scene. -/
def safeSlots (sc : Scene) : List Nat :=
  (slotNumbers.filter (fun n => match nth sc.slots n none with
    | some q => q.safe
    | none => false)).take 2

/-- The slots of the planes that a content shows. -/
def shownSlots (c : Content) (sc : Scene) : List Nat :=
  match c with
  | .hostScene => slotNumbers
  | .composition => safeSlots sc
  | _ => []

/-- R87: the centre film interlock. -/
def interlocked (s : State) (p : PipeId) (q : Plane) : Bool :=
  p == .centre && q.kind.film.isSome && !s.vsr.parked

/-- R87, R88: whether a plane is suppressed. -/
def suppressed (s : State) (p : PipeId) (q : Plane) : Bool :=
  interlocked s p q || (s.smn.low && q.kind.fetches)

/-- The frame of a stream that a pipe has latched. -/
def latchedFrame (s : State) (p : PipeId) (q : Plane) : Option Frame :=
  match q.kind.film with
  | some st => (filmOf s st).video.latches.get p
  | none => none

/-- The format and the size of the stream a FILM plane shows. -/
def filmShape (s : State) (q : Plane) : Nat × Nat × Nat :=
  match q.kind.film with
  | some st => ((filmOf s st).format, (filmOf s st).width, (filmOf s st).height)
  | none => (0, 0, 0)

/-- R84, R145: how many pixels of a source line, and how many source lines, a plane reads. -/
def sourceSize (s : State) (p : PipeId) (q : Plane) : Nat × Nat :=
  match q.kind with
  | .surface => (q.w, q.h)
  | .fill => (0, 0)
  | _ =>
    match latchedFrame s p q with
    | none => (0, 0)
    | some _ =>
      let f := filmShape s q
      let w := min q.w (f.2.1 - q.ox)
      if w = 0 then (0, 0) else (w, min q.h (f.2.2 - q.oy))

/-- R145: whether a line of a YCbCr frame takes a chroma range: the plane's first, and every line of an even frame row. -/
def takesChroma (q : Plane) (row : Nat) : Bool := row == 0 || (q.oy + row) % 2 == 0

/-- R86: the system address of the block of a YCbCr line's first pixel, for frame row `r`. -/
def chromaStart (q : Plane) (f : Frame) (r : Nat) : Nat := f.chroma.toNat + r / 2 * f.stride + q.ox / 2 * 2

/-- R145: the ranges of a plane's source line. The chroma range has as many bytes as the luma range, rounded up to even, and begins
at the block of the line's first pixel (log entry 14). -/
def lineRanges (s : State) (p : PipeId) (q : Plane) (row : Nat) : List Range :=
  let w := (sourceSize s p q).1
  let r := q.oy + row
  match q.kind with
  | .surface => [⟨q.addr.toNat + r * q.stride + 4 * q.ox, 4 * w⟩]
  | .fill => []
  | _ =>
    match latchedFrame s p q with
    | none => []
    | some f =>
      if (filmShape s q).1 = 1 then [⟨f.luma.toNat + r * f.stride + 4 * q.ox, 4 * w⟩]
      else
        let luma : Range := ⟨f.luma.toNat + r * f.stride + q.ox, w⟩
        if takesChroma q row then
          [luma, ⟨chromaStart q f r, (w + 1) / 2 * 2⟩]
        else [luma]

/-- How many bytes of a line come before its chroma. -/
def lumaBytes (rs : List Range) : Nat :=
  match rs with
  | [] => 0
  | r :: _ => r.len

/-- R145: CMP hands a reader its next line where one of its two places is free. -/
def handLine (p : PipeId) (slot : Nat) (s : State) : State :=
  let x := pipeOf s p
  let r := readerOf x slot
  match planeOf x slot with
  | none => s
  | some q =>
    if r.fetched ∧ ¬ r.busy ∧ r.lines.length < 2 ∧ r.next < (sourceSize s p q).2 then
      let rs := lineRanges s p q r.next
      startChannel (.plane p slot) rs (setReader p slot { r with busy := true, lumaLen := lumaBytes rs, got := [] } s)
    else s

/-- The transfer of a reader's line is complete: the line is held unless it is late (R91), and the next one is handed. -/
def lineDone (p : PipeId) (slot : Nat) (s : State) : State :=
  let x := pipeOf s p
  let r := readerOf x slot
  match planeOf x slot with
  | none => s
  | some q =>
    if r.busy then
      let chroma := if r.lumaLen < r.got.length then r.got.drop r.lumaLen else r.chroma
      let line : SourceLine := ⟨r.next, r.got.take r.lumaLen, chroma⟩
      let late : Bool := decide (q.y + r.next < x.outLine)
      handLine p slot (setReader p slot { r with
        next := r.next + 1
        busy := false
        got := []
        chroma := chroma
        lines := if late then r.lines else r.lines ++ [line] } s)
    else s

/-- Bytes of a reader's line arrive. -/
def lineBytes (p : PipeId) (slot : Nat) (data : List Byte) (s : State) : State :=
  let r := readerOf (pipeOf s p) slot
  if r.busy then setReader p slot { r with got := r.got ++ data } s else s

/-! ## Pixels -/

/-- The channels of an ARGB8888 colour (R198). -/
def rgbOf (c : Word) : Rgb := ⟨(c.toNat / 65536) % 256, (c.toNat / 256) % 256, c.toNat % 256⟩
def alphaOf (c : Word) : Nat := c.toNat / 16777216

/-- A layer at a pixel: its effective alpha and its colour. -/
structure Ink where
  a : Nat
  c : Rgb
  deriving DecidableEq, Repr

/-- A transparent layer. -/
def noInk : Ink := ⟨0, ⟨0, 0, 0⟩⟩

/-- R85: the effective alpha. -/
def effectiveAlpha (pa ga : Nat) : Nat := (pa * ga + 127) / 255

/-- R85: one channel. -/
def blendChannel (a src dst : Nat) : Nat := (a * src + (255 - a) * dst + 127) / 255

/-- R85: a layer over the colour composed so far. -/
def blend (dst : Rgb) (i : Ink) : Rgb :=
  ⟨blendChannel i.a i.c.r dst.r, blendChannel i.a i.c.g dst.g, blendChannel i.a i.c.b dst.b⟩

/-- R86: one channel, from 256 times its value. -/
def clampChannel (v : Int) : Nat := (saturate 0 255 (v / 256)).toNat

/-- R86. -/
def convert (y cb cr : Nat) : Rgb :=
  let y' : Int := 298 * ((y : Int) - 16)
  let b : Int := (cb : Int) - 128
  let r : Int := (cr : Int) - 128
  ⟨clampChannel (y' + 409 * r + 128), clampChannel (y' - 100 * b - 208 * r + 128), clampChannel (y' + 516 * b + 128)⟩

def byteNat (bs : List Byte) (i : Nat) : Nat := (nth bs i 0).toNat

/-- R86: the chroma byte `i` places after the block of a line's first pixel: the one that R145's range has brought, or, beyond that
range, the one that system memory holds there (log entry 14). -/
def chromaAt (l : SourceLine) (host : Nat → Byte) (i : Nat) : Nat :=
  if i < l.chroma.length then byteNat l.chroma i else (host i).toNat

/-- R84, R86: the colour of a FILM plane at a column of its source line; the pixel of a YCbCr frame takes the Cb and Cr of its block.
`host` are the bytes of system memory from the block of the line's first pixel on. -/
def filmInk (format : Nat) (q : Plane) (l : SourceLine) (host : Nat → Byte) (col : Nat) : Ink :=
  let a := effectiveAlpha 255 q.alpha
  if format = 1 then
    if 4 * col < l.luma.length then ⟨a, rgbOf (u32At l.luma (4 * col))⟩ else noInk
  else if col < l.luma.length then
    let k := 2 * ((q.ox + col) / 2 - q.ox / 2)
    ⟨a, convert (byteNat l.luma col) (chromaAt l host k) (chromaAt l host (k + 1))⟩
  else noInk

/-- R86: the bytes of system memory from the block of the first pixel of a plane's line on, as they are when the output line begins
(log entry 14). -/
def hostChroma (s : State) (p : PipeId) (q : Plane) (row i : Nat) : Byte :=
  Config.hostByte s.cmp.drawn (match latchedFrame s p q with
    | some f => chromaStart q f (q.oy + row) + i
    | none => i)

/-- R84: the colour of a plane at a column of its line; `line` is the source line held for it, if any. -/
def planeInk (format : Nat) (q : Plane) (line : Option SourceLine) (host : Nat → Byte) (col : Nat) : Ink :=
  match q.kind with
  | .fill => ⟨effectiveAlpha 255 q.alpha, rgbOf q.colour⟩
  | .surface =>
    match line with
    | some l =>
      let c := u32At l.luma (4 * col)
      ⟨effectiveAlpha (alphaOf c) q.alpha, rgbOf c⟩
    | none => noInk
  | _ =>
    match line with
    | some l => filmInk format q l host col
    | none => noInk

/-- The row of a plane at an output line, if the plane covers it. -/
def planeRow (q : Plane) (y : Nat) : Option Nat :=
  if q.y ≤ y ∧ y < q.y + q.h then some (y - q.y).toNat else none

/-- The line a reader holds for a row. -/
def heldLine (r : SlotReader) (row : Nat) : Option SourceLine := r.lines.find? (fun l => l.row == row)

/-- A layer of an output line: its colour at each pixel column. -/
abbrev LayerLine := Nat → Ink

/-- The layer of a slot on an output line. -/
def slotLayer (s : State) (p : PipeId) (slot y : Nat) : LayerLine :=
  let x := pipeOf s p
  let r := readerOf x slot
  match planeOf x slot with
  | none => fun _ => noInk
  | some q =>
    if r.fetched ∧ ¬ suppressed s p q then
      match planeRow q y with
      | none => fun _ => noInk
      | some row => fun px =>
        if q.x ≤ px ∧ px < q.x + q.w then
          planeInk (filmShape s q).1 q (heldLine r row) (hostChroma s p q row) (px - q.x).toNat
        else noInk
    else fun _ => noInk

/-- R56: the camera rectangle on an output line; `line` is the row of the SHOWN buffer that the camera reader holds, if any. -/
def cameraLayer (c : CompLayout) (bw bh : Nat) (line : Option (List Byte)) (y : Nat) : LayerLine := fun px =>
  let col := (px : Int) - c.cx
  let row := (y : Int) - c.cy
  if 0 ≤ col ∧ col < c.w ∧ 0 ≤ row ∧ row < c.h then
    match c.camera, line with
    | some _, some bs =>
      if col < bw ∧ row < bh then
        let k := 4 * (col.toNat / 2)
        ⟨255, convert (byteNat bs (2 * col.toNat + 1)) (byteNat bs k) (byteNat bs (k + 2))⟩
      else ⟨255, rgbOf c.noSignal⟩
    | _, _ => ⟨255, rgbOf c.noSignal⟩
  else noInk

/-- R143: the colour of an overlay index in the running calibration. -/
def guideColour (c : Calibration) (i : Nat) : Option Word :=
  if i = 1 then some c.near else if i = 2 then some c.middle else if i = 3 then some c.far else none

/-- R143: the index of a pixel in a row of the overlay. -/
def overlayIndex (bs : List Byte) (col : Nat) : Nat := (byteNat bs (col / 4)) / 4 ^ (col % 4) % 4

/-- R55, R85: the guide overlay on an output line. -/
def overlayLayer (c : CompLayout) (cal : Calibration) (line : Option (List Byte)) : LayerLine := fun px =>
  let col := (px : Int) - c.cx
  match line with
  | some bs =>
    if 0 ≤ col ∧ col < c.w then
      match guideColour cal (overlayIndex bs col.toNat) with
      | some w => ⟨effectiveAlpha (alphaOf w) 255, rgbOf w⟩
      | none => noInk
    else noInk
  | none => noInk

/-- The row that a layer reader holds for an output line of the composition. -/
def heldRow (l : LayerReader) (cy : Int) (y : Nat) : Option (List Byte) :=
  (l.lines.find? (fun e => decide ((e.1 : Int) + cy = y))).map (·.2)

/-- R55: the layers of an output line, bottom first. -/
def layersOf (s : State) (p : PipeId) (y : Nat) : List LayerLine :=
  let x := pipeOf s p
  let c := s.cmp.comp
  let planes := (shownSlots x.content x.active).map (fun n => slotLayer s p n y)
  match x.content with
  | .hostScene => planes
  | .composition =>
    let b := match c.camera with
      | some i => camBuf s.cin i
      | none => ⟨.free, 0, 0⟩
    let ovl := if overlayVisible s then heldRow s.fen.ovlRead c.cy y else none
    cameraLayer c b.w b.h (heldRow s.fen.camRead c.cy y) y :: overlayLayer c s.sto.running.calib ovl :: planes
  | _ => []

/-- Table 4-8: the backdrop of a pipe's frame. -/
def backdropOf (s : State) (p : PipeId) : Rgb :=
  match (pipeOf s p).content with
  | .viewBackdrop => rgbOf s.cmp.comp.backdrop
  | .composition => rgbOf s.cmp.comp.backdrop
  | _ => rgbOf (pipeOf s p).active.backdrop

/-- R83, R85: the pixels of an output line. -/
def composeLine (s : State) (p : PipeId) (y w : Nat) : List Rgb :=
  let layers := layersOf s p y
  (List.range w).map (fun px => layers.foldl (fun d l => blend d (l px)) (backdropOf s p))

/-! ## Output lines (R91) -/

/-- R91: whether the source line of a slot for an output line is late. -/
def slotLate (s : State) (p : PipeId) (y slot : Nat) : Bool :=
  let x := pipeOf s p
  let r := readerOf x slot
  match planeOf x slot with
  | none => false
  | some q =>
    r.fetched && q.kind.fetches && !suppressed s p q && match planeRow q y with
      | none => false
      | some row => decide (row < (sourceSize s p q).2) && (heldLine r row).isNone

/-- R91: a late plane of an output line is counted, and the frame's first one raises PIPE_UNDERFLOW. DESIGN CHOICE (log entry 41):
the late planes of a line are taken from the lowest slot up, one by one, so that the first late plane is the lowest one and detail
word 1 counts it alone of those of its line. -/
def countLate (p : PipeId) (slot : Nat) (s : State) : State :=
  let x := pipeOf s p
  let n := x.underflow + 1
  let s := setPipe p { x with underflow := n, noticed := true } s
  if x.noticed then s else raise .pipeUnderflow (BitVec.ofNat 32 (pipeCode p + 256 * slot)) n s

/-- The lines up to an output line leave a reader's places. -/
def passLine (p : PipeId) (y slot : Nat) (s : State) : State :=
  let x := pipeOf s p
  let r := readerOf x slot
  match planeOf x slot with
  | none => s
  | some q => handLine p slot (setReader p slot { r with lines := r.lines.filter (fun l => decide ((y : Int) < q.y + l.row)) } s)

def passRow (cy : Int) (y : Nat) (l : LayerReader) : LayerReader :=
  { l with lines := l.lines.filter (fun e => decide ((y : Int) < (e.1 : Int) + cy)) }

/-- The model's own count of output lines (log entry 14). -/
def countDrawn (s : State) : State := s.setCmp { s.cmp with drawn := s.cmp.drawn + 1 }

/-- The start of an output line of a pipe with `w` pixels: R91's checks, the pixels of R83, and the places that fall free. -/
def outputLine (p : PipeId) (w : Nat) (s : State) : State :=
  let y := (pipeOf s p).outLine
  let late := if (pipeOf s p).st = .running then slotNumbers.filter (slotLate s p y) else []
  let line := composeLine s p y w
  let s := late.foldl (fun t n => countLate p n t) s
  let s := setPipe p { pipeOf s p with line := line, outLine := y + 1 } (countDrawn s)
  let s := onSlots (passLine p y) s
  if p = .centre then
    let cy := s.cmp.comp.cy
    s.setFen { s.fen with camRead := passRow cy y s.fen.camRead, ovlRead := passRow cy y s.fen.ovlRead }
  else s

/-! ## Suppression and withdrawal (R82, R87 to R89) -/

/-- R87: PARKED becomes false. -/
def hideFilms (s : State) : State :=
  onSlots (fun n t => match planeOf (pipeOf t .centre) n with
    | some q => if q.kind.film.isSome then hideSlot .centre n t else t
    | none => t) s

/-- R88: the supply becomes LOW, on one pipe. -/
def hideFetched (p : PipeId) (s : State) : State :=
  onSlots (fun n t => match planeOf (pipeOf t p) n with
    | some q => if q.kind.fetches then hideSlot p n t else t
    | none => t) s

/-- R89: a scene without its SURFACE and FILM planes. -/
def withoutFetched (sc : Scene) : Scene :=
  { sc with slots := sc.slots.map (fun o => match o with
      | some q => if q.kind.fetches then none else some q
      | none => none) }

/-- R89, R158: the reader of a slot is stopped; a FILL plane, which has none, stays shown. -/
def withdrawSlot (p : PipeId) (n : Nat) (s : State) : State :=
  match planeOf (pipeOf s p) n with
  | some q => if q.kind.fetches then stopSlot p n s else stopChannel (.plane p n) s
  | none => stopSlot p n s

/-- R89, R158: one pipe; its six readers are stopped, the planes removed, and a set with no stream is handed. -/
def withdrawPipe (p : PipeId) (s : State) : State :=
  let s := onSlots (withdrawSlot p) s
  let x := pipeOf s p
  handSet p false false (setPipe p { x with
    active := withoutFetched x.active
    pendingScene := x.pendingScene.map withoutFetched } s)

/-- R82: the Fetch Engine reports an error on a plane reader: the plane is removed and the reader stopped. A FILL plane has no reader
and is not removed. -/
def planeError (p : PipeId) (slot addr : Nat) (s : State) : State :=
  let x := pipeOf s p
  match planeOf x slot with
  | none => stopSlot p slot s
  | some q =>
    if q.kind.fetches then
      let s := stopSlot p slot (setPipe p { x with active := { x.active with slots := x.active.slots.set slot none } } s)
      raise .fetchFault
        (BitVec.ofNat 32 (pipeCode p + 256 * slot + 65536 * planeKindCode q.kind)) (BitVec.ofNat 32 addr) s
    else stopChannel (.plane p slot) s

/-! ## The view takes the screen (R83) -/

/-- R83: the view leaves OFF: the CENTRE pipe shows the camera composition from this instant. DESIGN CHOICE (log entry 39): its colours
and its rectangle are those of the pipe's latest vblank, as R189 says of new settings, also where R193 has just applied an image at
the same instant. -/
def openComposition (s : State) : State :=
  let x := pipeOf s .centre
  match x.st with
  | .off => s
  | .starting => setPipe .centre { x with content := .viewBackdrop } (clearPicture s)
  | .running =>
    let s := clearPicture (dropLayers s)
    let s := setPipe .centre { pipeOf s .centre with content := .composition } s
    let keep := safeSlots x.active
    onSlots (fun n t => if keep.contains n then t else hideSlot .centre n t) s

end Sys2Proof.Machine
end

