-- ==== Sys2Proof/Machine/View.lean ====
section
/-! DEFINITION. The View Controller (3.1 to 3.5): the transition of the view with all that hangs on it, the events that cause one,
and the requests VIEW_REQUEST and SET_VIEW_POLICY. -/

namespace Sys2Proof.Machine

/-! ## The transition -/

/-- R44: the start timer, 1500 ms. -/
def startTime : Nat := 1500000

/-- R53: raise VIEW_CHANGE for a change from one view record to another. -/
def raiseView (old new : Vwc) (cause : ViewCause) (s : State) : State :=
  raise .viewChange
    (BitVec.ofNat 32 (viewCode new.view + 256 * viewCode old.view + bit new.manual 16 + bit old.manual 17))
    (BitVec.ofNat 32 (viewCauseCode cause)) s

/-- R39, R44, R48, R52: the view record after a transition: the timers run only in their states. -/
def movedView (t : Nat) (new : ViewState) (manual : Bool) (v : Vwc) : Vwc :=
  { v with
    view := new
    manual := manual
    startTimer := if new = .starting then some (t + startTime) else none
    exitTimer := if new = .exitHold then some (t + 1000 * v.policy.exitDelay) else none }

/-- What an entry into a view state does (R44, R52, R54, R62). -/
def enterView (new : ViewState) (s : State) : State :=
  match new with
  | .off => applyWaiting (s.setGlg { s.glg with ks := 0 })
  | .starting => startByView s
  | .live => s.setGlg { s.glg with snap := true }
  | .noSignal => arriveInternal 2 s
  | .exitHold => s

/-- A change of the view state, with its one notice. -/
def moveView (new : ViewState) (manual : Bool) (cause : ViewCause) (s : State) : State :=
  let old := s.vwc
  let s := s.setVwc (movedView (now s) new manual old)
  let s := if old.view = .live then guideExit s else s
  let s := if old.view = .off then openComposition s else s
  enterView new (raiseView old s.vwc cause s)

/-- R42: MANUAL is cleared and the view state kept. -/
def takeOver (s : State) : State :=
  let old := s.vwc
  let s := s.setVwc { old with manual := false }
  raiseView old s.vwc .reverseOn s

/-! ## Events -/

/-- R42, R43: LIVE where the picture can be shown, NO_SIGNAL otherwise. -/
def pictureState (s : State) : ViewState := if pictureReady s then .live else .noSignal

/-- R42: REVERSE becomes true. -/
def viewReverseOn (s : State) : State :=
  match s.vwc.view with
  | .off => moveView .starting false .reverseOn s
  | .exitHold => moveView (pictureState s) s.vwc.manual .reverseOn s
  | _ => if s.vwc.manual then takeOver s else s

/-- R48, R50: the speed is known and above a limit. -/
def fasterThan (limit : Nat) (v : Vsr) : Bool := speedKnown v && decide (limit < v.motion.speed)

/-- R48: a view that REVERSE leaves. -/
def leaveReverse (s : State) : State :=
  if s.vwc.policy.exitDelay = 0 then moveView .off false .exitDelay s
  else if fasterThan s.vwc.policy.exitSpeed s.vsr then moveView .off false .exitSpeed s
  else moveView .exitHold false .reverseOff s

/-- R48: REVERSE becomes false. -/
def viewReverseOff (s : State) : State :=
  match s.vwc.view with
  | .off => s
  | .exitHold => s
  | _ => if s.vwc.manual then s else leaveReverse s

/-- R45: the check at a centre vblank. -/
def viewVblank (s : State) : State :=
  if (s.vwc.view = .starting ∨ s.vwc.view = .noSignal) ∧ pictureReady s then
    moveView .live s.vwc.manual .cameraReady s
  else s

/-- R46: the start timer runs out. -/
def viewStartTimeout (s : State) : State :=
  if s.vwc.view = .starting then moveView .noSignal s.vwc.manual .startTimeout s
  else s.setVwc { s.vwc with startTimer := none }

/-- R47: a LIVE view loses its picture. -/
def viewCameraGone (cause : ViewCause) (s : State) : State :=
  if s.vwc.view = .live then moveView .noSignal s.vwc.manual cause s else s

/-- R49: the exit timer runs out. -/
def viewExitTimeout (s : State) : State :=
  if s.vwc.view = .exitHold then moveView .off false .exitDelay s
  else s.setVwc { s.vwc with exitTimer := none }

/-- R50: the speed tests at a good MOTION frame. -/
def viewSpeed (s : State) : State :=
  match s.vwc.view with
  | .off => s
  | .exitHold => if fasterThan s.vwc.policy.exitSpeed s.vsr then moveView .off false .exitSpeed s else s
  | _ =>
    if s.vwc.manual ∧ fasterThan s.vwc.policy.manualLimit s.vsr then moveView .off false .manualSpeed s else s

/-! ## Requests -/

/-- R43: a known speed within the manual limit. -/
def slowEnough (s : State) : Bool := speedKnown s.vsr && decide (s.vsr.motion.speed ≤ s.vwc.policy.manualLimit)

/-- R43: mode 1. -/
def viewOn (s : State) : State × Answer :=
  match s.vwc.view with
  | .off =>
    if ¬ s.vsr.reverse ∧ slowEnough s then (moveView .starting true .requestOn s, answerDone) else (s, answerState .speed)
  | .exitHold =>
    if slowEnough s then (moveView (pictureState s) true .requestOn s, answerDone) else (s, answerState .speed)
  | _ => (s, answerDone)

/-- R51: mode 0. -/
def viewOff (s : State) : State × Answer :=
  match s.vwc.view with
  | .off => (s, answerDone)
  | .exitHold => (moveView .off false .requestOff s, answerDone)
  | _ => if s.vwc.manual then (moveView .off false .requestOff s, answerDone) else (s, answerState .viewActive)

/-- R43, R51. -/
def ownViewRequest (mode : Byte) (s : State) : State × Answer :=
  if mode = 1 then viewOn s else if mode = 0 then viewOff s else (s, answerInvalid .range)

/-- R41: the four values, clamped. -/
def clampPolicy (p : PolicyParams) : Policy :=
  ⟨min p.exitDelay.toNat 10000, min p.exitSpeed.toNat 30000, min p.manualLimit.toNat 30000, p.chimeEnable != 0⟩

/-- R41: how many of them are clamped or taken as 1. -/
def policyAdjustments (p : PolicyParams) : Nat :=
  (if 10000 < p.exitDelay.toNat then 1 else 0) + (if 30000 < p.exitSpeed.toNat then 1 else 0)
    + (if 30000 < p.manualLimit.toNat then 1 else 0) + (if 1 < p.chimeEnable.toNat then 1 else 0)

/-- R41. -/
def ownSetViewPolicy (p : PolicyParams) (s : State) : State × Answer :=
  if s.vwc.view = .off then
    (s.setVwc { s.vwc with policy := clampPolicy p }, answerAdjusted (policyAdjustments p))
  else (s, answerState .viewActive)

end Sys2Proof.Machine
end

