-- ==== Sys2Proof/Machine/Camera.lean ====
section
/-! DEFINITION. The Camera Input (chapter 2): the frame checks, the capture and mirroring of lines, the buffers, the stream states,
frozen picture detection, test mode and the request CAMERA_TEST. -/

namespace Sys2Proof.Machine

/-! ## Lines -/

/-- R23: the stored line of a mirrored line: the pixel pairs in reverse order, each with its two luma samples exchanged. -/
def mirrorPairs (acc : List Byte) : List Byte → List Byte
  | cb :: y0 :: cr :: y1 :: t => mirrorPairs (cb :: y1 :: cr :: y0 :: acc) t
  | _ => acc

/-- R23: a line as it is stored. -/
def storedLine (mirror : Bool) (bs : List Byte) : List Byte := if mirror then mirrorPairs [] bs else bs

/-- R31: the sample positions along a width or a height. -/
def sampleAt (n i : Nat) : Nat := (2 * i + 1) * n / 16

/-- R31: what a stored line of a frame adds to its signature. -/
def lineSignature (w h row : Nat) (bs : List Byte) : Nat :=
  if (List.range 8).any (fun j => sampleAt h j == row) then
    ((List.range 8).map (fun i => byteNat bs (2 * sampleAt w i + 1))).sum
  else 0

/-- Table 2-5: Y, Cb and Cr of a bar; beyond the eight bars, black. -/
def barColour (i : Nat) : Nat × Nat × Nat :=
  nth [(235, 128, 128), (210, 16, 146), (170, 166, 16), (145, 54, 34), (106, 202, 222), (81, 90, 240), (41, 240, 110),
    (16, 128, 128)] i (16, 128, 128)

/-- R34: the bytes of pixel pair `p` of a generated line; the chroma is that of its even column (log entry 15). -/
def barPair (w p : Nat) : List Byte :=
  let a := barColour (2 * p / (w / 8))
  let b := barColour ((2 * p + 1) / (w / 8))
  [BitVec.ofNat 8 a.2.1, BitVec.ofNat 8 a.1, BitVec.ofNat 8 a.2.2, BitVec.ofNat 8 b.1]

/-- R34: a generated line of the port. -/
def testLine (w : Nat) : List Byte := (List.range (w / 2)).flatMap (barPair w)

/-! ## Stream states (R24 to R27) and FROZEN (R31, R32) -/

/-- R26: the frame start deadline, 100 ms. -/
def frameDeadline : Nat := 100000

/-- R32: FROZEN is cleared, with its notice if it was set. -/
def clearFrozen (s : State) : State :=
  if s.cin.frozen then
    raise .cameraFrozen 0 (BitVec.ofNat 32 s.cin.lastSig) (s.setCin { s.cin with frozen := false })
  else s

/-- R24, R26, R31: the stream record at an entry into a stream state. -/
def enteredStream (new : CamStream) (c : Cin) : Cin :=
  match new with
  | .acquiring => { c with stream := new, goodRun := 0, sameRun := 0 }
  | .locked => { c with stream := new, badRun := 0 }
  | .lost => { c with stream := new, deadline := none }
  | .absent => { c with stream := new }

/-- R27: a change of the stream state. Leaving LOCKED clears FROZEN and the identical run (R31), and a LIVE view loses its picture
(R47). -/
def changeStream (new : CamStream) (cause : Nat) (s : State) : State :=
  let old := s.cin.stream
  let s := s.setCin (enteredStream new s.cin)
  let s := raise .cameraLockChange (changeWord (camStreamCode new) (camStreamCode old)) (BitVec.ofNat 32 cause) s
  if old = .locked then
    viewCameraGone .cameraLost (clearFrozen (s.setCin { s.cin with sameRun := 0 }))
  else s

/-! ## Frames (R21, R22, R28) -/

/-- R28, R33: the frame in progress is dropped and its buffer returns to FREE. -/
def dropFrame (s : State) : State := s.setCin { moveBufs .filling .free s.cin with frame := none }

/-- R28: the buffer that a FRAME_START takes: the lowest-numbered FREE one, or else the READY one. -/
def pickBuf (c : Cin) : Nat :=
  if c.buf0.st = .free then 0 else if c.buf1.st = .free then 1 else if c.buf2.st = .free then 2
  else if c.buf0.st = .ready then 0 else if c.buf1.st = .ready then 1 else 2

/-- R22, R28: a FRAME_START begins a captured frame. -/
def beginFrame (s : State) : State :=
  let x := s.sto.running
  let i := pickBuf s.cin
  s.setCin { setCamBuf i ⟨.filling, capturedWidth x, x.camH⟩ s.cin with
    frame := some ⟨i, capturedWidth x, x.camH, x.mirror, 0, none, 0, false⟩ }

/-- R24, R26: what a FRAME_START does to the stream. -/
def frameStartStream (s : State) : State :=
  let s := if s.cin.stream = .absent ∨ s.cin.stream = .lost then changeStream .acquiring 1 s else s
  s.setCin { s.cin with deadline := some (now s + frameDeadline) }

/-- R21, R23: a frame becomes malformed: its buffer returns to FREE, it is counted, and the stream takes it (R24, R25). -/
def faultFrame (cause : FaultCause) (s : State) : State :=
  let s := dropFrame s
  let s := s.setCin { s.cin with malformed := s.cin.malformed + 1, lastFault := some cause }
  match s.cin.stream with
  | .acquiring => s.setCin { s.cin with goodRun := 0 }
  | .locked =>
    let s := s.setCin { s.cin with badRun := s.cin.badRun + 1 }
    if 2 ≤ s.cin.badRun then changeStream .lost (3 + 256 * faultCode (some cause)) s else s
  | _ => s

/-! ## The good frame end -/

/-- R24, R25: what a good frame end does to the stream. -/
def goodEndStream (s : State) : State :=
  match s.cin.stream with
  | .acquiring =>
    let s := s.setCin { s.cin with goodRun := s.cin.goodRun + 1 }
    if 3 ≤ s.cin.goodRun then changeStream .locked 2 s else s
  | .locked => s.setCin { s.cin with badRun := 0 }
  | _ => s

/-- R31: the signature of a good frame. The run stands at 15 in LOCKED: FROZEN is set (log entry 16). -/
def takeSignature (sig : Nat) (s : State) : State :=
  if s.cin.sameRun = 0 ∨ sig ≠ s.cin.lastSig then
    let s := clearFrozen (s.setCin { s.cin with sameRun := 1 })
    s.setCin { s.cin with lastSig := sig }
  else
    let s := s.setCin { s.cin with sameRun := min (s.cin.sameRun + 1) 15, lastSig := sig }
    if s.cin.sameRun = 15 ∧ s.cin.stream = .locked ∧ ¬ s.cin.frozen then
      viewCameraGone .cameraFrozen
        (raise .cameraFrozen 1 (BitVec.ofNat 32 sig) (s.setCin { s.cin with frozen := true }))
    else s

/-- R21, R23, R28: the good frame end of a frame. -/
def goodEnd (f : CamFrame) (s : State) : State :=
  let c := moveBufs .filling .ready (moveBufs .ready .free s.cin)
  let s := s.setCin { c with frame := none, good := c.good + 1, capW := f.w, capH := f.h }
  let s := goodEndStream s
  if s.cin.source = .port then takeSignature f.sig s else s

/-! ## CAM_WR -/

/-- The local address of a row of a frame (R23). -/
def rowAddr (f : CamFrame) (row : Nat) : Nat := cameraAddr f.buf + row * (2 * f.w)

/-- R23, R31: a line of the correct length is complete, and is handed to CAM_WR. -/
def handRow (f : CamFrame) (bs : List Byte) (s : State) : State :=
  let st := storedLine f.mirror bs
  let s := s.setCin { s.cin with frame := some { f with
    lines := f.lines + 1, store := none, sig := f.sig + lineSignature f.w f.h f.lines st } }
  let s := startChannel .camWr [⟨rowAddr f f.lines, 2 * f.w⟩] s
  s.setFen { s.fen with camData := st }

/-- R34: the generator's next line, where the frame in progress is a generated one with a line left (log entry 15). -/
def nextTestRow (s : State) : State :=
  if s.cin.source = .test then
    match s.cin.frame with
    | some f => if ¬ f.ended ∧ f.lines < f.h then handRow f (testLine f.w) s else s
    | none => s
  else s

/-- R21: CIN's writing of a line has completed: of the last line of an ended frame, the good frame end takes effect; and the generator
hands its next line (R34). -/
def lineWritten (s : State) : State :=
  match s.cin.frame with
  | some f => if f.ended then goodEnd f s else nextTestRow s
  | none => s

/-- R151: the unit of CAM_WR that the local port is moving, if any, is complete, and the port falls free. -/
def completeCameraUnit (s : State) : State :=
  match s.fen.localUnit with
  | some u => if u.user = .camWr ∧ u.live then s.setFen { s.fen with localUnit := none } else s
  | none => s

/-- R23: each line is written before the next one is complete: what is left of a line is written at once where a new line or a new
frame finds CAM_WR still busy (log entry 17). -/
def flushLine (s : State) : State :=
  let s := writeLocal s.fen.camWr.nextAddress s.fen.camData (completeCameraUnit s)
  s.setFen { s.fen with camWr := idleChannel, camData := [] }

/-- The same, with the good frame end that the last line's writing brings (R21). -/
def finishLine (s : State) : State :=
  if s.fen.camWr.st = .idle then s
  else
    let s := flushLine s
    match s.cin.frame with
    | some f => if f.ended then goodEnd f s else s
    | none => s

/-- R33, R153: CAM_WR is stopped with the frame that is abandoned; the unit that the port is moving completes (R151). -/
def stopLine (s : State) : State :=
  let s := stopChannel .camWr (cutLocal .camWr s)
  s.setFen { s.fen with camData := [] }

/-- R21: the frame's last line has been sent. -/
def endFrame (f : CamFrame) (s : State) : State :=
  let s := s.setCin { s.cin with frame := some { f with ended := true } }
  if s.fen.camWr.st = .idle then lineWritten s else s

/-! ## Codes and bytes of the port (R20, R21) -/

/-- The frame in progress on the port: between its FRAME_START and its FRAME_END, with the source PORT. -/
def portFrame (s : State) : Option CamFrame :=
  if s.cin.source = .port then
    match s.cin.frame with
    | some f => if f.ended then none else some f
    | none => none
  else none

/-- R21, R24, R28: a FRAME_START of the capture source. -/
def camFrameStart (s : State) : State :=
  let s := finishLine s
  let s := if s.cin.frame.isSome then faultFrame .cut s else s
  beginFrame (frameStartStream s)

/-- R21. -/
def camLineStart (s : State) : State :=
  match portFrame s with
  | none => s
  | some f =>
    if f.store.isSome then faultFrame .codeOrder s
    else if f.h ≤ f.lines then faultFrame .lineCount s
    else s.setCin { s.cin with frame := some { f with store := some [] } }

/-- R21, R23. -/
def camLineEnd (s : State) : State :=
  match portFrame s with
  | none => s
  | some f =>
    match f.store with
    | none => faultFrame .codeOrder s
    | some bs => if bs.length < 2 * f.w then faultFrame .lineLength s else handRow f bs (finishLine s)

/-- R21. DESIGN CHOICE (log entry 54): a FRAME_END inside a line, which Table 2-2 names under LINE_COUNT and under CODE_ORDER, has the
cause CODE_ORDER. -/
def camFrameEnd (s : State) : State :=
  match portFrame s with
  | none => s
  | some f =>
    if f.store.isSome then faultFrame .codeOrder s
    else if f.lines < f.h then faultFrame .lineCount s
    else endFrame f s

/-- R20, R21. -/
def camInvalid (s : State) : State :=
  match portFrame s with
  | none => s
  | some _ => faultFrame .badCode s

/-- R21. -/
def camPixel (b : Byte) (s : State) : State :=
  match portFrame s with
  | none => s
  | some f =>
    match f.store with
    | none => faultFrame .codeOrder s
    | some bs =>
      if bs.length < 2 * f.w then s.setCin { s.cin with frame := some { f with store := some (bs ++ [b]) } }
      else faultFrame .lineLength s

/-- R26: the frame start deadline passes. -/
def camDeadline (s : State) : State := changeStream .lost 4 (dropFrame s)

/-! ## Buffers at a centre vblank (R29) -/

def anyReady (c : Cin) : Bool := c.buf0.st == .ready || c.buf1.st == .ready || c.buf2.st == .ready

/-- R29: the buffer step; `displayed` says whether the camera plane is displayed in the next frame. -/
def bufferStep (displayed : Bool) (c : Cin) : Cin :=
  if displayed then
    if anyReady c then moveBufs .ready .shown (moveBufs .shown .free c) else c
  else moveBufs .shown .free c

/-- The SHOWN buffer, if any. -/
def shownBuf (c : Cin) : Option Nat :=
  if c.buf0.st = .shown then some 0 else if c.buf1.st = .shown then some 1 else if c.buf2.st = .shown then some 2 else none

/-! ## Test mode (R33 to R36) -/

/-- R33: the capture source changes. -/
def switchSource (src : CamSource) (s : State) : State :=
  let s := if s.cin.frame.isSome then dropFrame (stopLine s) else s
  let s := s.setCin { s.cin with source := src }
  let s := if s.cin.stream = .acquiring then s.setCin { s.cin with goodRun := 0 } else changeStream .acquiring 5 s
  let s := clearFrozen (s.setCin { s.cin with sameRun := 0 })
  s.setCin { s.cin with deadline := some (now s + frameDeadline) }

/-- R33, R34: the source becomes TEST. -/
def enterTest (s : State) : State :=
  let s := switchSource .test s
  s.setCin { s.cin with testEntry := now s, nextTest := now s }

/-- R33, R36: test mode ends with a cause, 1 REQUEST or 2 REVERSE. -/
def leaveTest (cause : Nat) (s : State) : State :=
  let t := s.cin.testEntry
  let s := switchSource .port s
  raise .cameraTestEnd (BitVec.ofNat 32 cause) (msSince t s) s

/-- R36: REVERSE becomes true. -/
def camReverseOn (s : State) : State := if s.cin.source = .test then leaveTest 2 s else s

/-- R34: the 30,000 µs and 33,333 µs of the generator. -/
def testFrameTime : Nat := 30000
def testFramePeriod : Nat := 33333

/-- The lines that a generated frame has still to hand, each written before the next (R23). -/
def restOfTest : Nat → State → State
  | 0, s => s
  | n + 1, s => restOfTest n (nextTestRow (finishLine s))

/-- R34: a generated frame ends: the lines still to be captured are handed to CAM_WR one after another, and the frame's last line has
been sent (log entry 15). -/
def endTestFrame (s : State) : State :=
  match s.cin.frame with
  | none => s
  | some f =>
    if f.ended then s
    else
      let s := restOfTest (f.h - f.lines) (reach s.cin.testEnd s)
      match s.cin.frame with
      | some g => endFrame g s
      | none => s

/-- R34: the generator's FRAME_START, and its first line. A generated frame that is still in progress has ended first. -/
def startTestFrame (s : State) : State :=
  let s := endTestFrame s
  let at' := s.cin.nextTest
  let s := camFrameStart (reach at' s)
  nextTestRow (s.setCin { s.cin with nextTest := at' + testFramePeriod, testEnd := at' + testFrameTime })

/-- R35. -/
def ownCameraTest (mode : Byte) (s : State) : State × Answer :=
  if mode = 1 then
    if s.vwc.view ≠ .off ∨ s.vsr.reverse then (s, answerState .viewActive)
    else if s.cin.source = .test then (s, answerDone)
    else (enterTest s, answerDone)
  else if mode = 0 then
    if s.cin.source = .test then (leaveTest 1 s, answerDone) else (s, answerDone)
  else (s, answerInvalid .range)

end Sys2Proof.Machine
end

