-- ==== Sys2Proof/Machine/Vsl.lean ====
section
/-! DEFINITION. The Vehicle Signal Line (1.1, 10.6): the receiver as an automaton that takes one bit at a time (R1 to R4), and the
line that a gateway sends for a frame (Table 10-12), written from the same rules. -/

namespace Sys2Proof.Machine

/-! ## Bits and bytes -/

/-- The bits of a byte, most significant first (10.6). -/
def byteBits (b : Byte) : List Bool :=
  [b.getLsbD 7, b.getLsbD 6, b.getLsbD 5, b.getLsbD 4, b.getLsbD 3, b.getLsbD 2, b.getLsbD 1, b.getLsbD 0]

/-- The value of a string of bits, most significant first. -/
def bitsNat (bs : List Bool) : Nat := bs.foldl (fun v b => 2 * v + (if b then 1 else 0)) 0

/-- The byte of a string of bits. -/
def bitsByte (bs : List Bool) : Byte := BitVec.ofNat 8 (bitsNat bs)

/-- R4: the check register after one bit. -/
def crcBit (c : Byte) (b : Bool) : Byte :=
  if (c.getLsbD 7 != b) then (c <<< 1) ^^^ 0x07 else c <<< 1

/-- R4: the check register after a string of bits. -/
def crcBits (c : Byte) (bs : List Bool) : Byte := bs.foldl crcBit c

/-! ## The receiver -/

/-- What a bit brings about: a frame error with the header byte received, if it was complete (R7), or a good frame: its header
byte and its payload bits. -/
inductive RxEvent where
  | error (e : VslError) (hdr : Option Byte)
  | good (hdr : Byte) (bits : List Bool)
  deriving DecidableEq, Repr

/-- R3: the payload bits that a kind has. -/
def payloadBits (hdr : Byte) : Option Nat :=
  if hdr.toNat / 16 = 1 then some 48 else if hdr.toNat / 16 = 2 then some 32 else none

/-- R2: the insertion count after a bit. -/
def countOnes (ins : Nat) (b : Bool) : Nat := if b then ins + 1 else 0

/-- R3: a header bit that is not an inserted one. -/
def headerBit (got : List Bool) (crc : Byte) (ins : Nat) (b : Bool) : Rx × Option RxEvent :=
  let got := got ++ [b]
  let crc := crcBit crc b
  let ins := countOnes ins b
  if got.length < 8 then (.header got crc ins, none)
  else match payloadBits (bitsByte got) with
    | some n => (.payload (bitsByte got) n [] crc ins, none)
    | none => (.skip ins, some (.error .unknownKind (some (bitsByte got))))

/-- R4: a payload or check bit that is not an inserted one. -/
def payloadBit (hdr : Byte) (need : Nat) (got : List Bool) (crc : Byte) (ins : Nat) (b : Bool) : Rx × Option RxEvent :=
  let crc := if got.length < need then crcBit crc b else crc
  let got := got ++ [b]
  if got.length < need + 8 then (.payload hdr need got crc (countOnes ins b), none)
  else if bitsByte (got.drop need) = crc then (.hunt 0, some (.good hdr (got.take need)))
  else (.hunt 0, some (.error .badCheck (some hdr)))

/-- R1 to R4: one bit of the line. -/
def rxBit (b : Bool) : Rx → Rx × Option RxEvent
  | .hunt run =>
    if b then (.hunt (min (run + 1) 8), none)
    else if run = 0 then (.hunt 0, none)
    else if run < 8 then (.hunt 0, some (.error .badStart none))
    else (.start false, none)
  | .start false => if b then (.start true, none) else (.hunt 0, some (.error .badStart none))
  | .start true => if b then (.hunt 1, some (.error .badStart none)) else (.header [] 0xFF 0, none)
  | .header got crc ins =>
    if ins < 5 then headerBit got crc ins b
    else if b then (.hunt 6, some (.error .shortFrame none))
    else (.header got crc 0, none)
  | .payload hdr need got crc ins =>
    if ins < 5 then payloadBit hdr need got crc ins b
    else if b then (.hunt 6, some (.error .shortFrame (some hdr)))
    else (.payload hdr need got crc 0, none)
  | .skip ins =>
    if ins < 5 then (.skip (countOnes ins b), none)
    else if b then (.hunt 6, none)
    else (.skip 0, none)

/-- A string of bits, with the events it brings about in their order. -/
def rxBits (bs : List Bool) (r : Rx) : Rx × List RxEvent :=
  match bs with
  | [] => (r, [])
  | b :: t =>
    let one := rxBit b r
    let rest := rxBits t one.1
    (rest.1, one.2.toList ++ rest.2)

/-! ## The gateway's line -/

/-- R2: zero insertion, from a count of ones already sent. -/
def insertZeros (ins : Nat) : List Bool → List Bool
  | [] => []
  | b :: t =>
    if countOnes ins b = 5 then b :: false :: insertZeros 0 t else b :: insertZeros (countOnes ins b) t

/-- R2: the frame content with zero insertion up to the last check bit; the zero after a fifth one that is the last check bit is
not part of it. -/
def insertZerosOpen (ins : Nat) : List Bool → List Bool
  | [] => []
  | [b] => [b]
  | b :: t =>
    if countOnes ins b = 5 then b :: false :: insertZerosOpen 0 t else b :: insertZerosOpen (countOnes ins b) t

/-- The header, payload and check bits of a frame (Table 10-12). -/
def frameContent (hdr : Byte) (payload : List Byte) : List Bool :=
  let body := byteBits hdr ++ payload.flatMap byteBits
  body ++ byteBits (crcBits 0xFF body)

/-- Table 10-12: the bits of a whole frame, up to its last check bit, after `ones` preamble ones. -/
def vslLine (ones : Nat) (hdr : Byte) (payload : List Byte) : List Bool :=
  List.replicate ones true ++ [false, true, false] ++ insertZerosOpen 0 (frameContent hdr payload)

/-- R3: the header byte of a kind and a sequence number. -/
def vslHeader (k : VslKind) (seq : BitVec 4) : Byte := BitVec.ofNat 8 (16 * kindCode k + seq.toNat)

/-! ## Payload fields -/

/-- R5: the fields of a MOTION payload, adjusted, with bits 8, 9 and 10 of Table 1-2 for the adjustments made. -/
structure MotionFields where
  gear          : Gear
  speed         : Nat
  steering      : Int
  speedValid    : Bool
  steeringValid : Bool
  adjusted      : Nat
  deriving DecidableEq, Repr

/-- The bits of a payload from a bit position on. -/
def bitField (bs : List Bool) (off n : Nat) : Nat := bitsNat ((bs.drop off).take n)

/-- R5, Table 10-12. -/
def motionFields (bs : List Bool) : MotionFields :=
  let gear := bitField bs 0 8
  let speed := bitField bs 8 16
  let steer := (BitVec.ofNat 16 (bitField bs 24 16)).toInt
  { gear := gearOfCode gear
    speed := min speed 30000
    steering := saturate (-7800) 7800 steer
    speedValid := bitField bs 40 1 == 1
    steeringValid := bitField bs 41 1 == 1
    adjusted := bit (5 ≤ gear) 8 + bit (30000 < speed) 9 + bit (steer < -7800 || 7800 < steer) 10 }

/-- R6: the distance of a sensor, left outer first. -/
def distanceAt (bs : List Bool) (i : Nat) : Byte := BitVec.ofNat 8 (bitField bs (8 * i) 8)

/-! ## Freshness (R8) -/

/-- 1.2: the freshness windows, in µs. -/
def freshWindow : VslKind → Nat
  | .motion => 100000
  | .parkAssist => 250000

/-- R8: the freshness state after a good frame of a sequence number that arrives at a time. -/
def freshArrival (seq : BitVec 4) (deadline : Nat) (f : Freshness) : Freshness :=
  let follows : Bool := seq == f.lastSeq + 1
  let g : Freshness := { f with lastSeq := seq, deadline := some deadline }
  match f.st with
  | .none => { g with st := .acquiring, run := 1 }
  | .stale => { g with st := .acquiring, run := 1 }
  | .acquiring =>
    if follows then
      if f.run + 1 < 3 then { g with run := f.run + 1 } else { g with st := .valid, run := 3 }
    else { g with run := 1 }
  | .valid => if follows then g else { g with breaks := f.breaks + 1 }

/-- R9: the freshness deadline passes. -/
def freshExpiry (f : Freshness) : Freshness := { f with st := .stale, deadline := none }

end Sys2Proof.Machine
end

