-- ==== Sys2Proof/Machine/Vehicle.lean ====
section
/-! DEFINITION. The Vehicle Signal Receiver and the Supply Monitor (chapter 1): frame errors and good frames, freshness, the reverse
line, REVERSE, disagreement and PARKED, the supply state, and what each hands to the other blocks. -/

namespace Sys2Proof.Machine

/-! ## REVERSE, disagreement and PARKED (R13 to R15) -/

/-- R134: the reverse-entered chime. -/
def chimeReverseOn (s : State) : State := if s.vwc.policy.chimeEnable then arriveInternal 0 s else s

/-- R13: a change of REVERSE is handed to VWC, CHE and CIN. -/
def handReverse (s : State) : State :=
  if s.vsr.reverse then evalCadence false (chimeReverseOn (camReverseOn (viewReverseOn s)))
  else evalCadence false (viewReverseOff s)

/-- R13: detail word 1 of REVERSE_CHANGE. -/
def sourceWord (v : Vsr) : Word := BitVec.ofNat 32 (bit (lineSource v) 0 + bit (gearSource v) 1)

/-- R13: REVERSE is evaluated. -/
def evalReverse (s : State) : State :=
  let new := lineSource s.vsr || gearSource s.vsr
  if new = s.vsr.reverse then s
  else
    let s := s.setVsr { s.vsr with reverse := new }
    handReverse (raise .reverseChange (if new then 1 else 0) (sourceWord s.vsr) s)

/-- R14: the disagreement timer, 500 ms. -/
def disagreementTime : Nat := 500000

/-- R14: disagreement is evaluated. -/
def evalDisagreement (s : State) : State :=
  let new := (disagreement s.vsr).isSome
  if new ∧ ¬ s.vsr.episode then s.setVsr { s.vsr with episode := true, disTimer := some (now s + disagreementTime) }
  else if ¬ new ∧ s.vsr.episode then s.setVsr { s.vsr with episode := false, disTimer := none }
  else s

/-- R15: PARKED is evaluated; where it becomes false, the film interlock acts (R87). -/
def evalParked (s : State) : State :=
  let new := parkedNow s.vsr
  let old := s.vsr.parked
  let s := s.setVsr { s.vsr with parked := new }
  if old ∧ ¬ new then hideFilms s else s

/-- R13 to R15: the evaluations after the MOTION record or its freshness has changed. -/
def evalMotion (s : State) : State := evalDisagreement (evalReverse (evalParked s))

/-! ## Frame errors (R7) -/

def countError (e : VslError) (c : ErrorCounts) : ErrorCounts :=
  match e with
  | .badStart => { c with badStart := c.badStart + 1 }
  | .shortFrame => { c with shortFrame := c.shortFrame + 1 }
  | .badCheck => { c with badCheck := c.badCheck + 1 }
  | .unknownKind => { c with unknownKind := c.unknownKind + 1 }
  | .range => { c with range := c.range + 1 }

/-- Table 1-2: detail word 1. -/
def headerWord : Option Byte → Word
  | some h => h.setWidth 32
  | none => 0xFFFFFFFF

/-- R7: a frame error is counted and notified; `adjusted` holds bits 8, 9 and 10 of a RANGE error. -/
def frameErrorNow (e : VslError) (adjusted : Nat) (hdr : Option Byte) (s : State) : State :=
  let s := s.setVsr { s.vsr with errors := countError e s.vsr.errors }
  raise .vslFrameError (BitVec.ofNat 32 (vslErrorCode e + adjusted)) (headerWord hdr) s

/-! ## Freshness (R8 to R10) -/

def freshOf (v : Vsr) : VslKind → Freshness
  | .motion => v.motionFresh
  | .parkAssist => v.parkFresh

def setFresh (k : VslKind) (f : Freshness) (v : Vsr) : Vsr :=
  match k with
  | .motion => { v with motionFresh := f }
  | .parkAssist => { v with parkFresh := f }

/-- R10: a freshness record is replaced, with a notice where the state changes. -/
def moveFresh (k : VslKind) (f : Freshness) (s : State) : State :=
  let old := (freshOf s.vsr k).st
  let s := s.setVsr (setFresh k f s.vsr)
  if f.st = old then s
  else raise .vslKindChange (BitVec.ofNat 32 (kindCode k)) (changeWord (freshCode f.st) (freshCode old)) s

/-- R8: a good frame updates the freshness of its kind. -/
def freshFrame (k : VslKind) (seq : BitVec 4) (s : State) : State :=
  moveFresh k (freshArrival seq (now s + freshWindow k) (freshOf s.vsr k)) s

/-- R9: the freshness deadline of a kind passes. -/
def freshDeadline (k : VslKind) (s : State) : State :=
  let s := moveFresh k (freshExpiry (freshOf s.vsr k)) s
  match k with
  | .motion => evalMotion s
  | .parkAssist => evalCadence false s

/-! ## Good frames (R5, R6) -/

/-- R5, R11: the MOTION part of the vehicle state record. -/
def motionPart (m : MotionFields) (seq : BitVec 4) (t : Dword) : MotionPart :=
  ⟨m.gear, m.speed, m.steering, m.speedValid, m.steeringValid, seq, t⟩

/-- R6, R11: the PARK_ASSIST part of the vehicle state record. -/
def parkPart (bits : List Bool) (seq : BitVec 4) (t : Dword) : ParkPart :=
  ⟨distanceAt bits 0, distanceAt bits 1, distanceAt bits 2, distanceAt bits 3, seq, t⟩

/-- R3: the sequence number of a header byte. -/
def headerSeq (hdr : Byte) : BitVec 4 := hdr.setWidth 4

/-- R5: a good MOTION frame. -/
def goodMotion (hdr : Byte) (bits : List Bool) (s : State) : State :=
  let m := motionFields bits
  let s := if m.adjusted = 0 then s else frameErrorNow .range m.adjusted (some hdr) s
  let s := s.setVsr { s.vsr with motion := motionPart m (headerSeq hdr) (cabin s) }
  viewSpeed (evalMotion (freshFrame .motion (headerSeq hdr) s))

/-- R6: a good PARK_ASSIST frame. -/
def goodPark (hdr : Byte) (bits : List Bool) (s : State) : State :=
  let s := s.setVsr { s.vsr with park := parkPart bits (headerSeq hdr) (cabin s) }
  evalCadence true (freshFrame .parkAssist (headerSeq hdr) s)

/-- What a bit of the line brings about. -/
def takeEvent (e : RxEvent) (s : State) : State :=
  match e with
  | .error e hdr => frameErrorNow e 0 hdr s
  | .good hdr bits => if hdr.toNat / 16 = 1 then goodMotion hdr bits s else goodPark hdr bits s

/-- R1 to R7: the line brings a string of bits. -/
def takeBits (bits : List Bool) (s : State) : State :=
  let r := rxBits bits s.vsr.rx
  r.2.foldl (fun t e => takeEvent e t) (s.setVsr { s.vsr with rx := r.1 })

/-! ## The reverse line (R12, R14) -/

/-- R12: a change of the raw level of REV_IN. -/
def revEdge (level : Bool) (s : State) : State :=
  if level = s.vsr.rawRev then s
  else s.setVsr { s.vsr with
    rawRev := level
    hold := if level = s.vsr.debRev then none else some (now s + holdTime) }

/-- R12: the hold timer has run out. -/
def holdExpiry (s : State) : State :=
  evalDisagreement (evalReverse (s.setVsr { s.vsr with hold := none, debRev := s.vsr.rawRev }))

/-- R14: the disagreement timer has run out. -/
def disagreementExpiry (s : State) : State :=
  let s := s.setVsr { s.vsr with disTimer := none }
  match disagreement s.vsr with
  | some form => raise .reverseDisagree (BitVec.ofNat 32 form) (BitVec.ofNat 32 (gearCode s.vsr.motion.gear)) s
  | none => s

/-! ## The supply (R16, R17) -/

/-- R16: the level of the two sense lines. -/
def supplyLevel (lo hi : Bool) : Nat := if lo then (if hi then 2 else 1) else (if hi then 1 else 0)

/-- R16: the run counts after a sample of a level. -/
def supplyRuns (level : Nat) (m : Smn) : Smn :=
  if level = 0 then { m with lowRun := min (m.lowRun + 1) 4, highRun := 0 }
  else if level = 1 then { m with lowRun := 0, highRun := 0 }
  else { m with lowRun := 0, highRun := min (m.highRun + 1) 4 }

/-- R17: the change to LOW is handed to CMP (R88), FLM (R102), MIX (R120), CHE (R139) and STO (R190, R195). -/
def handLow (s : State) : State :=
  suspendCopies (suspendLoads (muteForLow (onStreams holdStream (onPipes hideFetched s))))

/-- R17: the change to NORMAL is handed to FLM, CHE and STO; CMP takes it at each pipe's vblank (R88). -/
def handNormal (s : State) : State :=
  eraseAtNormal (resumeCopies (resumeLoads (onStreams releaseStream s)))

/-- R16, R17: the supply state changes. -/
def changeSupply (low : Bool) (s : State) : State :=
  let spent := msSince s.smn.entry s
  let s := s.setSmn { s.smn with low := low, lowRun := 0, highRun := 0, entry := now s }
  let s := raise .supplyChange (if low then 1 else 0) spent s
  if low then handLow s else handNormal s

/-- R16: a sample of the sense lines. -/
def takeSample (lo hi : Bool) (s : State) : State :=
  let s := s.setSmn (supplyRuns (supplyLevel lo hi) s.smn)
  if ¬ s.smn.low ∧ 4 ≤ s.smn.lowRun then changeSupply true s
  else if s.smn.low ∧ 4 ≤ s.smn.highRun then changeSupply false s
  else s

end Sys2Proof.Machine
end

