-- ==== Sys2Proof/Machine/Vblank.lean ====
section
/-! DEFINITION. What a pipe and the other blocks do at a vblank (R29, R45, R59, R73, R81, R83, R90, R98, R100). -/

namespace Sys2Proof.Machine

/-- R73, R75, R77: the start count of a pipe in STARTING, and its entry into RUNNING. -/
def countStart (p : PipeId) (s : State) : State :=
  let x := pipeOf s p
  if x.st = .starting then
    if x.startCount + 1 < 2 then setPipe p { x with startCount := x.startCount + 1 } s
    else
      let s := setPipe p { x with st := .running, startCount := 2, restarts := [] } s
      completeAll x.restarts statusDone (raisePipe p .running .starting .startComplete s)
  else s

/-- R81: the pending scene becomes the active scene. DESIGN CHOICE (log entry 42): the readers of the scene that is discarded are
stopped, so that none of its units can be taken for one of the new scene. -/
def activateScene (p : PipeId) (s : State) : State :=
  let x := pipeOf s p
  match x.pendingScene with
  | some sc => stopSlots p (setPipe p { x with active := sc, pendingScene := none } s)
  | none => s

/-- R83: the content of the frame that begins. -/
def frameContentOf (p : PipeId) (s : State) : Content :=
  match (pipeOf s p).st with
  | .off => .none
  | .starting => startingContent p s
  | .running => if viewOwns p s then .composition else .hostScene

/-- R90: whether a pipe's frame displays a stream. -/
def displays (p : PipeId) (st : StreamId) (s : State) : Bool :=
  let x := pipeOf s p
  x.st == .running && x.content == .hostScene && slotNumbers.any (fun n => match planeOf x n with
    | some q => q.kind.film == some st && !suppressed s p q
    | none => false)

/-- R84, R87, R88: whether a plane takes part in the frame that begins: a FILM plane only with a latch on its stream. -/
def takesPart (s : State) (p : PipeId) (q : Plane) : Bool :=
  !suppressed s p q && (q.kind.film.isNone || (latchedFrame s p q).isSome)

/-- R145: a slot at a vblank: a plane of the frame begins with its top row, another one is not fetched, and a slot that is empty or
holds a FILL plane has no reader (R82; log entry 42). -/
def beginSlot (p : PipeId) (n : Nat) (s : State) : State :=
  let x := pipeOf s p
  match planeOf x n with
  | none => stopSlot p n s
  | some q =>
    let s := if q.kind.fetches then hideSlot p n s else stopSlot p n s
    if (shownSlots x.content x.active).contains n ∧ takesPart s p q then
      handLine p n (setReader p n { idleReader with fetched := true } s)
    else s

/-- The rows of a layer that lie inside the pipe: the first one, and the one after the last. -/
def layerRows (cy : Int) (h activeH : Nat) : Nat × Nat := ((-cy).toNat, min h (activeH - cy).toNat)

/-- R151: the camera reader and the overlay reader begin the frame. -/
def beginLayers (activeH : Nat) (s : State) : State :=
  let s := dropLayers s
  let c := s.cmp.comp
  let cam : LayerReader := match c.camera with
    | some i =>
      let b := camBuf s.cin i
      let r := layerRows c.cy (min b.h c.h) activeH
      ⟨cameraAddr i, 2 * b.w, r.2, r.1, [], []⟩
    | none => idleLayer
  let ovl : LayerReader :=
    if s.vwc.view = .live ∧ frontTag s.glg ≠ .empty then
      let r := layerRows c.cy c.h activeH
      ⟨overlayAddr s.glg.front1, overlayRow c.w, r.2, r.1, [], []⟩
    else idleLayer
  s.setFen { s.fen with camRead := cam, ovlRead := ovl }

/-- R73, step 3, and R83: the pipe fixes what it shows in the frame that begins. -/
def fixFrame (p : PipeId) (s : State) : State :=
  let content := frameContentOf p s
  let s := if p = .centre then
      latchLayout (if content = .composition ∧ s.vwc.view = .live then shownBuf s.cin else none) s
    else s
  let s := setPipe p { pipeOf s p with content := content, outLine := 0, noticed := false } s
  let s := handSet p (displays p .a s) (displays p .b s) s
  let s := onSlots (beginSlot p) s
  if p = .centre then
    if content = .composition then beginLayers (activeArea p (pipeOf s p)).2 s else dropLayers s
  else s

/-- R29, R45, R59: what VWC, CIN and GLG do at a centre vblank. -/
def centreVblank (s : State) : State :=
  let s := viewVblank s
  let displayed := (pipeOf s .centre).st == .running && s.vwc.view == .live
  guideVblank (s.setCin (bufferStep displayed s.cin))

/-- R73: a vblank of a pipe in STARTING or RUNNING. -/
def vblank (p : PipeId) (s : State) : State :=
  let x := pipeOf s p
  let s := setPipe p { x with nextVblankNs := x.nextVblankNs + periodOf x } (reachNs x.nextVblankNs s)
  let s := activateScene p (countStart p s)
  let s := if p = .centre then centreVblank s else s
  fixFrame p (present p s)

end Sys2Proof.Machine
end

