-- ==== Sys2Proof/Machine/Mirrors.lean ====
section
/-! DEFINITION. What WAI writes into system memory, byte for byte: notice slots (Table 10-8), the board header (10.2), the status
mirrors (Tables 10-9 and 10-10), page headers (Table 10-3) and answers (R198). -/

namespace Sys2Proof.Machine

def zeros (n : Nat) : List Byte := List.replicate n 0

/-- A two's complement field of n bytes. -/
def leInt (n : Nat) (v : Int) : List Byte := leBytes n (BitVec.ofInt (8 * n) v).toNat

/-- Table 10-8. -/
def slotBytes (n : Nat) (x : Slot) : List Byte :=
  leBytes 2 n ++ zeros 2 ++ leBytes 4 x.count.toNat ++ leBytes 8 x.time.toNat ++ leBytes 4 x.d0.toNat
    ++ leBytes 4 x.d1.toNat ++ zeros 8

/-- All twenty slots (R165). -/
def slotTableBytes (xs : List Slot) : List Byte := xs.zipIdx.flatMap (fun e => slotBytes e.2 e.1)

/-- 10.2: the board header. -/
def boardHeader (counter : Word) (t : Dword) : List Byte :=
  leBytes 4 counter.toNat ++ zeros 4 ++ leBytes 8 t.toNat ++ zeros 48

/-! ## Mirrors -/

/-- R19: board bytes 704 to 767. -/
def vehicleMirror (v : Vsr) (m : Smn) : List Byte :=
  leBytes 1 (gearCode v.motion.gear)
  ++ leBytes 1 (bit v.motion.speedValid 0 + bit v.motion.steeringValid 1)
  ++ leBytes 2 v.motion.speed ++ leInt 2 v.motion.steering
  ++ leBytes 1 v.motion.seq.toNat ++ zeros 1 ++ leBytes 8 v.motion.arrival.toNat
  ++ [v.park.leftOuter, v.park.leftInner, v.park.rightInner, v.park.rightOuter]
  ++ leBytes 1 v.park.seq.toNat ++ zeros 3 ++ leBytes 8 v.park.arrival.toNat
  ++ leBytes 1 (freshCode v.motionFresh.st) ++ leBytes 1 (freshCode v.parkFresh.st)
  ++ leBytes 1 (bit v.reverse 0 + bit v.parked 1 + bit (lineSource v) 2 + bit (gearSource v) 3 + bit v.episode 4)
  ++ leBytes 1 (bit m.low 0)
  ++ leBytes 4 v.motionFresh.breaks.toNat ++ leBytes 4 v.parkFresh.breaks.toNat
  ++ leBytes 4 v.errors.badStart.toNat ++ leBytes 4 v.errors.shortFrame.toNat ++ leBytes 4 v.errors.badCheck.toNat
  ++ leBytes 4 v.errors.unknownKind.toNat ++ leBytes 4 v.errors.range.toNat

/-- R38: board bytes 768 to 783. -/
def cameraMirror (c : Cin) : List Byte :=
  leBytes 1 (camStreamCode c.stream) ++ leBytes 1 (bit c.frozen 0 + bit (c.source == .test) 1)
  ++ leBytes 1 (faultCode c.lastFault) ++ zeros 1 ++ leBytes 4 c.good.toNat ++ leBytes 4 c.malformed.toNat
  ++ leBytes 2 c.capW ++ leBytes 2 c.capH

/-- R68: board bytes 784 to 799. -/
def viewMirror (v : Vwc) (g : Glg) : List Byte :=
  leBytes 1 (viewCode v.view) ++ leBytes 1 (bit v.manual 0 + bit g.valid 1) ++ leBytes 1 (guideCode g.mode)
  ++ leBytes 1 (bit v.policy.chimeEnable 0) ++ leBytes 2 v.policy.exitDelay ++ leBytes 2 v.policy.exitSpeed
  ++ leBytes 2 v.policy.manualLimit ++ zeros 2 ++ leInt 4 g.ks

/-- R93: 24 bytes for each pipe, from board byte 800. DESIGN CHOICE (log entry 43): the timing fields of an absent record hold 0. -/
def pipeMirror (x : Pipe) : List Byte :=
  let t := x.timing.getD ⟨0, 0, 0, 0, 0⟩
  leBytes 1 (pipeStateCode x.st) ++ leBytes 1 (bit x.timing.isSome 0 + bit x.pendingScene.isSome 1)
  ++ leBytes 1 (x.active.slots.countP (·.isSome)) ++ leBytes 1 x.restarts.length
  ++ leBytes 2 t.activeW ++ leBytes 2 t.activeH ++ leBytes 2 t.totalW ++ leBytes 2 t.totalH ++ leBytes 1 t.rate ++ zeros 3
  ++ leBytes 4 x.underflow.toNat ++ leBytes 4 x.superseded.toNat

/-- R114, Table 10-10: 64 bytes for each stream, from board byte 872. DESIGN CHOICE (log entry 47): a list longer than 255 shows the low
8 bits of its length. -/
def filmMirror (f : Film) : List Byte :=
  leBytes 1 (streamStateCode f.st)
  ++ leBytes 1 (bit f.closing 0 + bit f.video.starved 1 + bit f.audio.underrun 2 + bit f.flush.isSome 3 + bit f.close.isSome 4)
  ++ leBytes 1 f.format ++ leBytes 1 (pipeCode f.pacing) ++ leBytes 2 f.width ++ leBytes 2 f.height
  ++ leBytes 4 (match f.video.current with
    | some c => c.token.toNat
    | none => 0)
  ++ leBytes 4 f.video.lastQueued.toNat ++ leBytes 4 f.video.lastRetired.toNat
  ++ leBytes 1 f.video.queue.length ++ leBytes 1 f.video.retiring.length ++ leBytes 1 f.audio.queue.length ++ zeros 1
  ++ leBytes 4 f.video.dropped.toNat ++ leBytes 4 f.video.repeats.toNat
  ++ leBytes 4 f.audio.lastQueued.toNat ++ leBytes 4 f.audio.lastRetired.toNat
  ++ leBytes 2 f.audio.staging.length ++ zeros 2
  ++ leBytes 4 f.audio.errors.toNat ++ leBytes 4 f.audio.lastError.toNat ++ zeros 4 ++ leBytes 8 f.audio.played.toNat

/-- R142: board bytes 1000 to 1011. DESIGN CHOICE (log entry 48): with no chime playing, bytes 1001 and 1002 hold 0. -/
def audioMirror (c : Che) (m : Mix) : List Byte :=
  let playing := match c.playing with
    | some p => leBytes 1 p.chime.num ++ leBytes 1 (classCode p.chime.cls) ++ leBytes 1 (p.chime.remaining.getD 0)
    | none => [0xFF, 0, 0]
  let dist := match c.playing with
    | some p => match p.cycle with
      | some cyc => cyc.dist
      | none => 255
    | none => 255
  playing ++ leBytes 1 c.queue.length ++ leBytes 1 (bit c.cadence 0) ++ leBytes 1 dist ++ leBytes 1 m.duck
  ++ (match c.ui with
    | some u => leBytes 1 u.entry
    | none => [0xFF])
  ++ leBytes 2 c.free.length ++ leBytes 1 c.loads ++ zeros 1

/-- R196: board bytes 1012 to 1031. -/
def settingsMirror (t : Sto) : List Byte :=
  leBytes 1 (sourceCode t.source)
  ++ leBytes 1 (match t.rejection with
    | some r => imageReasonCode r
    | none => 0)
  ++ leBytes 1 (writePhaseCode t.writePhase)
  ++ leBytes 1 (match t.lastOutcome with
    | some r => writeReasonCode r
    | none => 0)
  ++ leBytes 4 t.running.serial.toNat ++ leBytes 4 t.running.crc.toNat
  ++ leBytes 1 (bit t.waiting.isSome 0) ++ leBytes 1 (readPhaseCode t.readPhase) ++ zeros 2
  ++ leBytes 4 (match t.waiting with
    | some img => (imageSerial img).toNat
    | none => 0)

/-- R184: board bytes 1032 to 1047. -/
def waiMirror (w : Wai) : List Byte :=
  leBytes 4 w.expected.toNat ++ leBytes 1 w.taken.length ++ zeros 1
  ++ leBytes 2 ((w.taken.map (·.awaiting)).sum)
  ++ leBytes 1 (match w.anchor with
    | some a => a.period
    | none => 0)
  ++ leBytes 1 (match w.anchor with
    | some a => a.msi
    | none => 0)
  ++ zeros 6

/-- R184, Table 10-9: the 344 bytes of the status mirrors. -/
def mirrorBytes (s : State) : List Byte :=
  vehicleMirror s.vsr s.smn ++ cameraMirror s.cin ++ viewMirror s.vwc s.glg
  ++ pipeMirror (pipeOf s .centre) ++ pipeMirror (pipeOf s .rearL) ++ pipeMirror (pipeOf s .rearR)
  ++ filmMirror (filmOf s .a) ++ filmMirror (filmOf s .b)
  ++ audioMirror s.che s.mix ++ settingsMirror s.sto ++ waiMirror s.wai

/-! ## Pages and answers -/

/-- R198: a page header with a state and counts; the other fields are those of the header as it was read. -/
def headerBytes (header : List Byte) (state taken refused : Nat) : List Byte :=
  leBytes 2 state ++ (header.drop 2).take 10 ++ leBytes 2 taken ++ leBytes 2 refused

/-- R198: the 4-byte answer of a record. -/
def answerBytes (st : Status) (count : Nat) : List Byte :=
  leBytes 1 (majorCode st.major) ++ leBytes 1 (minorCode st.minor) ++ leBytes 2 count

/-- R177: detail word 1 of PENDING_DONE. -/
def doneWord (off : Nat) (st : Status) : Word :=
  BitVec.ofNat 32 (off + 65536 * majorCode st.major + 16777216 * minorCode st.minor)

end Sys2Proof.Machine
end

