-- ==== Sys2Proof/Machine/WorkArea.lean ====
section
/-! DEFINITION. The Work Area Interface (chapter 8): what it hands the WORK channel, scans and pages, records and their answers,
attaching and leaving, notices on the board, MSI pacing, and the registers. -/

namespace Sys2Proof.Machine

/-! ## Handing WORK a transfer (R170) -/

def handWork (job : WorkJob) (rs : List Range) (data : List Byte) (s : State) : State :=
  s.setFen { s.fen with work := s.fen.work ++ [⟨job, Channel.started rs job.dir, data⟩] }

def handWrite (job : WorkJob) (addr : Nat) (data : List Byte) (s : State) : State :=
  handWork job [⟨addr, data.length⟩] data s

/-- R153, R167: WORK is stopped: its list is discarded. -/
def stopWork (s : State) : State :=
  s.setFen { s.fen with work := [], units := orphanUnits .work s.fen.units }

def boardAddr (s : State) : Nat :=
  match s.wai.anchor with
  | some a => a.board
  | none => 0

/-- The system address of a page (8.4). -/
def pageAddr (s : State) (page : Nat) : Nat :=
  match s.wai.anchor with
  | some a => a.ring + 1024 * page
  | none => 0

/-! ## Pages (R174, R178) -/

/-- Whether a scan item writes to a page. -/
def ScanItem.concerns (page : Nat) : ScanItem → Bool
  | .answer r _ _ _ _ => r.page == page
  | .header p _ => p == page
  | _ => false

/-- An item placed after the last item that concerns a page. -/
def insertAfter (page : Nat) (x : ScanItem) : List ScanItem → List ScanItem
  | [] => [x]
  | i :: t => if t.any (·.concerns page) then i :: insertAfter page x t else if i.concerns page then i :: x :: t else x :: i :: t

/-- An item that joins the scan before its next look at a page. -/
def insertAnswer (x : ScanItem) : List ScanItem → List ScanItem
  | [] => [x]
  | i :: t => if i = .look then x :: i :: t else i :: insertAnswer x t

/-- R170, R178: a page is answered: it leaves the table, and its header write follows every status write of the page. It follows a
final status that was handed from the answer queue at the head of that queue, and is else the scan's. -/
def answerPage (queued : Bool) (p : TakenPage) (s : State) : State :=
  let w := { s.wai with taken := s.wai.taken.filter (fun q => q.page != p.page || q.seq != p.seq) }
  let bytes := headerBytes p.header 3 p.taken p.refused
  if w.scanQueue.any (·.concerns p.page) then
    s.setWai { w with scanQueue := insertAfter p.page (.header p.page bytes) w.scanQueue }
  else if queued then s.setWai { w with answers := .header p.page bytes :: w.answers }
  else s.setWai { w with scanQueue := insertAnswer (.header p.page bytes) w.scanQueue }

/-- Change the entry of a record's page. -/
def onPage (r : RecordRef) (f : TakenPage → TakenPage) (s : State) : State :=
  s.setWai { s.wai with taken := s.wai.taken.map (fun p => if p.isOf r then f p else p) }

/-- R178: the page of a record is answered if its processing has ended and its awaiting count is 0; `queued` says that a final status
handed from the answer queue is the event. -/
def checkPage (queued : Bool) (r : RecordRef) (s : State) : State :=
  match s.wai.taken.find? (·.isOf r) with
  | some p => if p.ended ∧ p.awaiting = 0 then answerPage queued p s else s
  | none => s

/-- R177: a final status is handed: the awaiting count decreases where it counts the record, and PENDING_DONE is raised. -/
def finalHanded (queued : Bool) (r : RecordRef) (st : Status) (counted : Bool) (s : State) : State :=
  let s := if counted then onPage r (fun p => { p with awaiting := p.awaiting - 1 }) s else s
  checkPage queued r (raise .pendingDone r.seq (doneWord r.off st) s)

/-- The 4-byte write of an answer. -/
def handAnswerWrite (r : RecordRef) (st : Status) (count : Nat) (s : State) : State :=
  handWrite .write (pageAddr s r.page + r.off + 4) (answerBytes st count) s

/-! ## Scans (R171, R172, R184) -/

/-- R172, R184: a scan begins with its snapshot. -/
def beginScan (s : State) : State :=
  s.setWai { s.wai with
    scanning := true
    scanWaits := false
    scanQueue := s.wai.scanQueue ++ [.openCounter, .mirrors (mirrorBytes s), .closeCounter (cabin s), .look] }

/-- R171: a scan is requested. -/
def requestScan (s : State) : State :=
  if s.wai.st = .attached then
    if s.wai.scanning then s.setWai { s.wai with scanRequest := true } else beginScan s
  else s

/-- R171: a scan ends; with the flag set a new one begins. -/
def endScan (s : State) : State :=
  let s := s.setWai { s.wai with scanning := false }
  if s.wai.scanRequest then beginScan (s.setWai { s.wai with scanRequest := false }) else s

/-- 8.4: the page that carries sequence E. -/
def expectedPage (w : Wai) : Nat :=
  match w.anchor with
  | some a => (w.expected - 1).toNat % a.pages
  | none => 0

/-- R172, step 2. -/
def lookPage (s : State) : State :=
  let i := expectedPage s.wai
  if s.wai.taken.any (fun p => p.page == i) then s
  else s.setWai { s.wai with scanQueue := .readHeader i :: s.wai.scanQueue }

/-- R184: the internal counter increases by 1. -/
def bumpCounter (s : State) : State := s.setWai { s.wai with counter := s.wai.counter + 1 }

/-- The scan hands its next transfer. -/
def handScan (i : ScanItem) (s : State) : State :=
  match i with
  | .openCounter =>
    let s := bumpCounter s
    handWrite .write (boardAddr s) (leBytes 4 s.wai.counter.toNat) s
  | .mirrors bytes => handWrite .write (boardAddr s + 704) bytes s
  | .closeCounter t =>
    let s := bumpCounter s
    handWrite .write (boardAddr s) (boardHeader s.wai.counter t) s
  | .look => lookPage s
  | .header page bytes => handWrite .write (pageAddr s page) bytes s
  | .readHeader page => handWork (.headerRead page) [⟨pageAddr s page, 16⟩] [] (s.setWai { s.wai with scanWaits := true })
  | .readRecords page len =>
    handWork (.recordsRead page) [⟨pageAddr s page + 16, len⟩] [] (s.setWai { s.wai with scanWaits := true })
  | .answer r st count final counted =>
    let s := handAnswerWrite r st count s
    if final then finalHanded false r st counted s else s

/-! ## Slot writes and MSI (R181, R182) -/

/-- The lowest dirty slot. -/
def dirtySlot (w : Wai) : Option Nat := w.slots.findIdx? (·.dirty)

/-- R181. -/
def handSlot (n : Nat) (s : State) : State :=
  match s.wai.slots[n]? with
  | none => s
  | some x =>
    handWrite .write (boardAddr s + 64 + 32 * n) (slotBytes n x)
      (s.setWai { s.wai with slots := s.wai.slots.set n { x with dirty := false } })

/-- R182: an MSI is due. -/
def msiDue (w : Wai) : Bool := w.st == .attached && w.wanted && w.msiTimer.isNone && (dirtySlot w).isNone

/-- R182: an MSI is handed. Its address is the host's configuration, and the model counts it (log entry 18). -/
def handMsi (s : State) : State :=
  let m := match s.wai.anchor with
    | some a => a.msi
    | none => 0
  handWork .msi [⟨0, 4⟩] [] (s.setWai { s.wai with
    wanted := false
    msiTimer := if m = 0 then none else some (now s + 1000 * m) })

/-- R170, R177: the head of the answer queue is handed. -/
def handQueued (a : QueuedAnswer) (s : State) : State :=
  match a with
  | .final r st => finalHanded true r st true (handAnswerWrite r st 0 s)
  | .header page bytes => handWrite .write (pageAddr s page) bytes s

/-- R172: what the scan does without a place on WORK's list: it looks at the page of E, or, with nothing left to hand, it ends. -/
def scanStep (s : State) : Option State :=
  if s.wai.scanWaits then none
  else match s.wai.scanQueue with
    | [] => if s.wai.scanning then some (endScan s) else none
    | i :: t => if i = .look then some (lookPage (s.setWai { s.wai with scanQueue := t })) else none

/-- R170: at a free place, WAI hands the first of what is waiting; none if nothing waits. -/
def handPlace (s : State) : Option State :=
  match s.wai.answers with
  | a :: t => some (handQueued a (s.setWai { s.wai with answers := t }))
  | [] =>
    match dirtySlot s.wai with
    | some n => some (handSlot n s)
    | none =>
      if msiDue s.wai then some (handMsi s)
      else if s.wai.scanWaits then none
      else match s.wai.scanQueue with
        | i :: t => some (handScan i (s.setWai { s.wai with scanQueue := t }))
        | [] => none

/-- R170, R172: WAI's next act while it is ATTACHED, if there is one. -/
def handOne (s : State) : Option State :=
  if s.wai.st ≠ .attached then none
  else match scanStep s with
    | some t => some t
    | none => if 16 ≤ s.fen.work.length then none else handPlace s

/-- R170 as often as there is something to do. Each handing takes one of 16 places, and between two of them lie at most a look and
the end of a scan, so that 64 is more than enough. -/
def handLoop : Nat → State → State
  | 0, s => s
  | n + 1, s => match handOne s with
    | some t => handLoop n t
    | none => s

/-- R170, after every command. -/
def settle (s : State) : State := handLoop 64 s

/-! ## Requests (Table 8-6) -/

/-- R183: ENABLE and MASK of the slots selected. -/
def setNotices (p : NoticeParams) (xs : List Slot) : List Slot :=
  xs.zipIdx.map (fun e =>
    if p.selector = 255 ∨ e.2 = p.selector.toNat then { e.1 with enable := p.enable == 1, mask := p.mask == 1 } else e.1)

/-- R183. -/
def ownSetNotice (p : NoticeParams) (s : State) : State × Answer :=
  if (19 < p.selector.toNat ∧ p.selector ≠ 255) ∨ 1 < p.enable.toNat ∨ 1 < p.mask.toNat then (s, answerInvalid .range)
  else (s.setWai { s.wai with slots := setNotices p s.wai.slots }, answerDone)

/-- Table 8-6: the owner of each kind takes the request. -/
def ownRequest (q : LongReq) : Request → State → State × Answer
  | .setPipeTiming p => ownSetPipeTiming p
  | .pipeOff c => ownPipeOff c
  | .restartPipe c => ownRestartPipe q c
  | .setScene p => ownSetScene p
  | .openStream p => ownOpenStream p
  | .queueFrame p => ownQueueFrame p
  | .queueAudio p => ownQueueAudio p
  | .flushStream c => ownFlushStream q c
  | .closeStream c => ownCloseStream q c
  | .viewRequest m => ownViewRequest m
  | .setViewPolicy p => ownSetViewPolicy p
  | .cameraTest m => ownCameraTest m
  | .setMix p => ownSetMix p
  | .defineChime p => ownDefineChime p
  | .playChime n => ownPlayChime n
  | .cancelChime n => ownCancelChime n
  | .loadSound p => ownLoadSound q p
  | .playSound n => ownPlaySound n
  | .setNotice p => ownSetNotice p
  | .writeSettings p => ownWriteSettings q p
  | .readSettings a => ownReadSettings q a

/-! ## Records (R175 to R177) -/

/-- The answer item of a record. -/
def ScanItem.isOf (r : RecordRef) : ScanItem → Bool
  | .answer ref _ _ _ _ => ref == r
  | _ => false

/-- R176: the owner's answer takes its place, unless the request has completed already (R177). -/
def ScanItem.answered (r : RecordRef) (a : Answer) : ScanItem → ScanItem
  | .answer ref st count final counted =>
    if ref = r ∧ ¬ final then .answer ref a.status a.count false (a.status.major == .pending)
    else .answer ref st count final counted
  | i => i

/-- R176: a page's counts after an answer. -/
def countAnswer (a : Answer) (pending : Bool) (p : TakenPage) : TakenPage :=
  { p with
    taken := p.taken + 1
    refused := if a.refused then p.refused + 1 else p.refused
    awaiting := if pending then p.awaiting + 1 else p.awaiting }

/-- Whether the scan still holds the answer of a record as PENDING. -/
def stillPending (r : RecordRef) (s : State) : Bool := s.wai.scanQueue.any (·.isPendingOf r)

/-- R176, R177: an answer is entered: in the scan's answer write for the record, and in the counts of its page. -/
def enterAnswer (r : RecordRef) (a : Answer) (s : State) : State :=
  let s := s.setWai { s.wai with scanQueue := s.wai.scanQueue.map (·.answered r a) }
  onPage r (countAnswer a (stillPending r s)) s

/-- R176, R177: a record is taken: its answer write is placed, its owner takes it, and the answer is entered. A record of no taken
page has no answer. -/
def takeRecord (r : RecordRef) (k : LongReq → State → State × Answer) (s : State) : State :=
  if s.wai.taken.any (·.isOf r) then
    let s := s.setWai { s.wai with
      scanQueue := insertAnswer (.answer r answerPending.status 0 false false) s.wai.scanQueue }
    let o := k ⟨some r⟩ s
    enterAnswer r o.2 o.1
  else (k ⟨some r⟩ s).1

/-- R175: whether the envelope of the record at a position of the fill is at fault. -/
def envelopeFault (fill pos len : Nat) : Bool :=
  len % 4 != 0 || decide (len < 8) || decide (1008 < len) || decide (fill < pos + len)

/-- R176: WAI's checks of a record's kind and length, and then its owner. -/
def takeKind (r : RecordRef) (rec : List Byte) (s : State) : State :=
  let kind := (u16At rec 0).toNat
  takeRecord r (fun q t => match fixedLength kind, requestOf kind rec with
    | some n, some rq => if rec.length - 8 < n then (t, answerInvalid .length) else ownRequest q rq t
    | _, _ => (t, answerInvalid .kind)) s

/-- R174 to R176: the records of a page, from a position of the fill, at most `n` of them. -/
def takeRecords (n : Nat) (page : Nat) (seq : Word) (fill : List Byte) (pos : Nat) (s : State) : State :=
  match n with
  | 0 => s
  | n + 1 =>
    if fill.length < pos + 8 then s
    else
      let r : RecordRef := ⟨page, seq, 16 + pos⟩
      let len := (u16At fill (pos + 2)).toNat
      if envelopeFault fill.length pos len then takeRecord r (fun _ t => (t, answerInvalid .envelope)) s
      else takeRecords n page seq fill (pos + len) (takeKind r ((fill.drop pos).take len) s)

/-- R174: the effective fill of a page header. -/
def effectiveFill (header : List Byte) : Nat := min (u16At header 8).toNat 1008

/-- R174, R178: processing of a page ends. -/
def endPage (r : RecordRef) (s : State) : State := checkPage false r (onPage r (fun p => { p with ended := true }) s)

/-- R174, step 4: the record read of a page has completed. -/
def recordsRead (page : Nat) (bytes : List Byte) (s : State) : State :=
  let s := s.setWai { s.wai with scanWaits := false }
  match s.wai.taken.find? (fun p => p.page == page) with
  | some p =>
    endPage ⟨page, p.seq, 0⟩ (takeRecords (u16At p.header 2).toNat page p.seq bytes 0 s)
  | none => s

/-- R174: WAI takes a page. -/
def takePage (page : Nat) (header : List Byte) (s : State) : State :=
  let seq := u32At header 4
  let fill := effectiveFill header
  let tail : List ScanItem := if 8 ≤ fill then [.readRecords page fill, .look] else [.look]
  let s := s.setWai { s.wai with
    taken := s.wai.taken ++ [⟨page, seq, 0, 0, 0, false, header⟩]
    expected := s.wai.expected + 1
    scanQueue := s.wai.scanQueue ++ (.header page (headerBytes header 2 0 0) :: tail) }
  if 8 ≤ fill then s else endPage ⟨page, seq, 0⟩ s

/-- R173: a page is refused whole. -/
def refusePage (page : Nat) (header : List Byte) (s : State) : State :=
  raise .pageSequenceFault s.wai.expected (u32At header 4)
    (s.setWai { s.wai with scanQueue := s.wai.scanQueue ++ [.header page (headerBytes header 3 0 0)] })

/-- R172, step 3: the header read of a page has completed. -/
def headerRead (page : Nat) (header : List Byte) (s : State) : State :=
  let s := s.setWai { s.wai with scanWaits := false }
  if u16At header 0 = 1 then
    if u32At header 4 = s.wai.expected then takePage page header s else refusePage page header s
  else s

/-! ## Attaching (R163 to R165) -/

/-- Table 10-2. DESIGN CHOICE (log entry 53): R164 has no check that the page ring and the board end within the 64-bit addresses; such
an anchor is taken, and a write beyond the last address goes on from address 0. -/
def anchorFields (base : Nat) (b : List Byte) : Anchor where
  pages   := (u32At b 4).toNat
  period  := if u32At b 8 = 0 then 4 else min (u32At b 8).toNat 20
  msi     := min (u32At b 12).toNat 10
  winBase := (u64At b 16).toNat
  winSize := (u64At b 24).toNat
  ring    := base + (u32At b 32).toNat
  board   := base + (u32At b 36).toNat

/-- Whether two byte regions share a byte. -/
def overlap (a m b n : Nat) : Bool := decide (a < b + n) && decide (b < a + m)

/-- R164: the first check that an anchor fails, or none. -/
def anchorFault (b : List Byte) : Option AttachCause :=
  let p := (u32At b 4).toNat
  let ring := (u32At b 32).toNat
  let board := (u32At b 36).toNat
  if u32At b 0 ≠ 0x41574346 then some .magic
  else if p < 4 ∨ 32 < p then some .pageCount
  else if ring % 1024 ≠ 0 ∨ board % 64 ≠ 0 then some .align
  else if overlap 0 256 ring (1024 * p) || overlap 0 256 board 4096 || overlap ring (1024 * p) board 4096 then some .overlap
  else if systemSize < (u64At b 16).toNat + (u64At b 24).toNat then some .window
  else none

/-- R164: an anchor with a value that WAI clamps. -/
def anchorAdjusted (b : List Byte) : Bool :=
  u32At b 8 == 0 || decide (20 < (u32At b 8).toNat) || decide (10 < (u32At b 12).toNat)

/-- R165: the next odd value of the update counter. -/
def nextOdd (c : Word) : Word := if c.getLsbD 0 then c + 2 else c + 1

/-- R165: the initial board write is handed. The first header too carries the time of the snapshot (log entry 19). -/
def handBoard (s : State) : State :=
  let odd := nextOdd s.wai.counter
  let t := cabin s
  let mirrors := mirrorBytes s
  let slots := slotTableBytes s.wai.slots
  let s := s.setWai { s.wai with
    counter := odd + 1
    slots := s.wai.slots.map (fun x => { x with dirty := false })
    wanted := false
    boardHanded := true }
  let s := handWrite .write (boardAddr s) (boardHeader odd t) s
  let s := handWrite .write (boardAddr s + 64) slots s
  let s := handWrite .write (boardAddr s + 704) mirrors s
  handWrite .lastBoardWrite (boardAddr s) (boardHeader (odd + 1) t) s

/-- An attach ends in DETACHED with a cause. -/
def failAttach (c : AttachCause) (s : State) : State :=
  s.setWai { s.wai with st := .detached, cause := c, anchor := none }

/-- R164: the anchor read has completed. -/
def anchorRead (b : List Byte) (s : State) : State :=
  match anchorFault b with
  | some c => failAttach c s
  | none =>
    handBoard (s.setWai { s.wai with
      anchor := some (anchorFields s.wai.base b)
      adjusted := anchorAdjusted b
      expected := 1
      taken := []
      answers := [] })

/-- R163. -/
def attachNow (s : State) : State :=
  if s.wai.st = .attaching ∨ s.wai.st = .attached then s.setWai { s.wai with ignored := true }
  else
    let base := s.wai.wbase.toNat
    let s := s.setWai { s.wai with
      st := .attaching, cause := .none, ignored := false, adjusted := false, base := base, boardHanded := false }
    if base % 4096 ≠ 0 then failAttach .align s
    else handWork .anchorRead [⟨base, 256⟩] [] s

/-- R165: the last unit of the initial board write has been issued. -/
def attachComplete (s : State) : State :=
  match s.wai.anchor with
  | none => s
  | some a =>
    (s.setWai { s.wai with st := .attached, scanTimer := some (now s + 1000 * a.period) }).setFen
      { s.fen with window := some ⟨a.winBase, a.winSize⟩ }

/-! ## Leaving (R166 to R169) -/

/-- R167: WAI's own state at an exit from ATTACHED. -/
def waiExit (new : AttachState) (cause : AttachCause) (w : Wai) : Wai :=
  { w with
    st := new
    cause := cause
    anchor := none
    taken := []
    answers := []
    scanning := false
    scanRequest := false
    scanQueue := []
    scanWaits := false
    scanTimer := none
    wanted := false
    msiTimer := none
    boardHanded := false }

/-- R167, R179: the pending RESTART_PIPE requests go on, but their page is abandoned. -/
def abandonRestarts (p : PipeId) (s : State) : State :=
  let x := pipeOf s p
  setPipe p { x with restarts := x.restarts.map (fun _ => ⟨none⟩) } s

/-- R158, R167: an exit from ATTACHED, and its effects in FEN, FLM, CMP, CHE and STO. -/
def exitAttached (new : AttachState) (cause : AttachCause) (s : State) : State :=
  let s := stopWork (s.setWai (waiExit new cause s.wai))
  let s := s.setFen { s.fen with window := none }
  let s := onPipes abandonRestarts (onPipes withdrawPipe (onStreams detachStream s))
  abandonRead (abandonWrite (onSounds abandonLoad s))

/-- R166: a DETACH in ATTACHING. -/
def exitAttaching (s : State) : State :=
  stopWork (s.setWai { s.wai with
    st := .detached
    anchor := none
    slots := s.wai.slots.map (fun x => { x with dirty := false })
    wanted := false
    boardHanded := false })

/-- R166. -/
def detachNow (s : State) : State :=
  match s.wai.st with
  | .detached => s
  | .attaching => exitAttaching s
  | .attached => exitAttached .detached s.wai.cause s
  | .faulted => s.setWai { s.wai with st := .detached }

/-- R164, R168: a WORK read has failed. -/
def workError (s : State) : State :=
  match s.wai.st with
  | .attached => exitAttached .faulted .workFetch s
  | .attaching => stopWork (failAttach .anchorFetch s)
  | _ => s

/-- R158, R169: a link reset. -/
def linkResetNow (s : State) : State :=
  let s := detachNow s
  let s := s.setFen { s.fen with units := [] }
  s.setWai { s.wai with cause := .none, ignored := false, adjusted := false, wbase := 0, timeLatch := 0 }

/-! ## Registers (R160, R161, R197) -/

/-- R161, Table 10-1: STAT. -/
def statValue (w : Wai) : Word :=
  BitVec.ofNat 32 (attachCode w.st + 256 * attachCauseCode w.cause + bit w.ignored 16 + bit w.adjusted 17)

/-- R160, R161: the value of the register at an offset; 0 where no register stands. -/
def registerValue (s : State) (offset : Nat) : Word :=
  if offset = 0x00 then 0x03300101
  else if offset = 0x08 then statValue s.wai
  else if offset = 0x0C then s.wai.wbase.setWidth 32
  else if offset = 0x10 then (s.wai.wbase >>> 32).setWidth 32
  else if offset = 0x14 then (cabin s).setWidth 32
  else if offset = 0x18 then s.wai.timeLatch
  else 0

/-- A byte of a 64-bit value replaced. -/
def putByte (v : Dword) (i : Nat) (b : Byte) : Dword :=
  BitVec.ofNat 64 (v.toNat - v.toNat / 256 ^ i % 256 * 256 ^ i + b.toNat * 256 ^ i)

/-- R160: the commands of a CTRL byte, DETACH, then ATTACH, then SCAN_NOW. -/
def ctrlByte (b : Byte) (s : State) : State :=
  let s := if b.getLsbD 1 then detachNow s else s
  let s := if b.getLsbD 0 then attachNow s else s
  if b.getLsbD 2 then requestScan s else s

/-- R197: a byte written to an offset of the register window. -/
def writeRegByte (offset : Nat) (b : Byte) (s : State) : State :=
  if offset = 4 then ctrlByte b s
  else if 0x0C ≤ offset ∧ offset < 0x14 then s.setWai { s.wai with wbase := putByte s.wai.wbase (offset - 0x0C) b }
  else s

/-- R197: bytes written from an offset on, in address order. -/
def writeRegs (offset : Nat) : List Byte → State → State
  | [], s => s
  | b :: t, s => writeRegs (offset + 1) t (writeRegByte offset b s)

/-- R160, R197: a read of a byte of TIME_LO latches the high 32 bits of cabin time. -/
def latchTime (offset : Nat) (s : State) : State :=
  if offset / 4 = 5 then s.setWai { s.wai with timeLatch := (cabin s >>> 32).setWidth 32 } else s

/-- R197: the byte of the register window at an offset. -/
def registerByte (s : State) (offset : Nat) : Byte := (registerValue s (offset / 4 * 4)).extractLsb' (8 * (offset % 4)) 8

/-- R197: a read of any offset and width, in address order: the bytes it returns, and what it latches. -/
def readRegs (offset : Nat) : Nat → State → List Byte × State
  | 0, s => ([], s)
  | n + 1, s =>
    let s := latchTime offset s
    let r := readRegs (offset + 1) n s
    (registerByte s offset :: r.1, r.2)

/-- R160, R197: a read of bytes of the register window, as the host receives it (log entry 11). -/
def readWindow (offset count : Nat) (s : State) : State :=
  let r := readRegs offset count s
  r.2.setWai { r.2.wai with readData := r.1 }

/-! ## The end of a command -/

/-- The next state after a command's effect: WAI hands what waits (R170). -/
def finish (s : State) : Host.Outcome State Fault Refusal := .next (settle s)

/-- R176: WAI takes a record while it is ATTACHED (R170, R174); otherwise no record reaches its owner. -/
def request (r : RecordRef) (k : LongReq → State → State × Answer) (s : State) : Host.Outcome State Fault Refusal :=
  if s.wai.st = .attached then finish (takeRecord r k s) else .next s

end Sys2Proof.Machine
end

