-- ==== Sys2Proof/Machine/Fetch.lean ====
section
/-! DEFINITION. The Fetch Engine (chapter 7): grant units, the choice of the system port and of the local port, completions,
failures and timeouts, and what each tells the owner of the channel. -/

namespace Sys2Proof.Machine

/-! ## Units (R145, R146) -/

/-- R145: the unit limit of a system channel. -/
def unitLimit : ChanId → Nat
  | .plane _ _ => 512
  | _ => 256

/-- R145: the next grant unit of a system channel. -/
def nextUnit (c : ChanId) (rs : List Range) : Option Range :=
  match rs with
  | [] => none
  | r :: _ => some ⟨r.addr, min (min (unitLimit c) r.len) (4096 - r.addr % 4096)⟩

/-- R144: the units of a channel's transfer that have not been handed to its owner. A unit held behind an older one counts toward
the channel's limit of 2 (Table 7-6, log entry 22). -/
def liveUnits (f : Fen) (c : ChanId) : List FetchUnit := f.units.filter (fun u => u.chan == c && u.live)

/-- R146, R154: whether a unit keeps one of the port's 16 places; one whose completion has arrived does not. -/
def FetchUnit.keepsPlace (u : FetchUnit) : Bool :=
  match u.phase with
  | .held _ => false
  | _ => true

def placesUsed (f : Fen) : List Nat := (f.units.filter (·.keepsPlace)).map (·.place)

/-- The place a new unit takes: the lowest free one. -/
def freePlace (f : Fen) : Option Nat := (List.range 16).find? (fun n => !(placesUsed f).contains n)

/-- Whether a channel's transfer writes to system memory. -/
def writesSystem (f : Fen) : ChanId → Bool
  | .work => match f.work with
    | [] => false
    | i :: _ => i.job == .write || i.job == .lastBoardWrite || i.job == .msi
  | .bulk .settingsOut => true
  | _ => false

/-- R149: whether a BULK transfer uses the data store. -/
def usesStore : ChanId → Bool
  | .bulk (.sound _) => true
  | _ => false

/-- R149: the bytes that the data store holds or awaits. -/
def storeBytes (f : Fen) : Nat :=
  (f.store.map (·.2.length)).sum + ((f.units.filter (fun u => usesStore u.chan && u.live)).map (·.len)).sum

/-- R146: whether the owner has room for a unit of `n` bytes. -/
def ownerRoom (s : State) (c : ChanId) (n : Nat) : Bool :=
  match c with
  | .plane p slot => decide ((readerOf (pipeOf s p) slot).lines.length < 2)
  | .audio st =>
    decide ((filmOf s st).audio.staging.length + ((liveUnits s.fen c).map (·.len / 4)).sum + n / 4 ≤ 1024)
  | .bulk (.sound _) => decide (storeBytes s.fen + n ≤ 512)
  | _ => true

/-- R146: whether a channel is eligible for the system port. -/
def eligible (s : State) (c : ChanId) : Bool :=
  let x := channelOf s.fen c
  match nextUnit c x.toReq with
  | none => false
  | some u =>
    x.st == .active && decide ((liveUnits s.fen c).length < 2) && ownerRoom s c u.len && (freePlace s.fen).isSome

/-! ## The choice of the system port (R147 to R149) -/

/-- R148: the pipes in the order of a rotation state. -/
def Rotation.order : Rotation → List PipeId
  | .clr => [.centre, .rearL, .rearR]
  | .lrc => [.rearL, .rearR, .centre]
  | .rcl => [.rearR, .centre, .rearL]

/-- R148: the order in which a pipe is last. -/
def rotationAfter : PipeId → Rotation
  | .centre => .lrc
  | .rearL => .rcl
  | .rearR => .clr

/-- R148: the slots after a pipe's last granted slot, wrapping. -/
def slotsAfter (last : Nat) : List Nat := (List.range 6).map (fun i => (last + 1 + i) % 6)

/-- R148: the plane reader that the DISPLAY class would grant. -/
def displayChoice (s : State) : Option ChanId :=
  s.fen.rotation.order.findSome? (fun p =>
    ((slotsAfter (s.fen.lastSlot.get p)).find? (fun n => eligible s (.plane p n))).map (fun n => .plane p n))

def otherStream : StreamId → StreamId
  | .a => .b
  | .b => .a

/-- R149: the reader that the AUDIO class would grant. -/
def audioChoice (s : State) : Option ChanId :=
  [ChanId.audio s.fen.audioTurn, .audio (otherStream s.fen.audioTurn)].find? (eligible s)

/-- R149: the transfer that BULK serves: the oldest on the list that is ACTIVE. -/
def bulkServed (f : Fen) : Option ChanId :=
  (f.bulk.find? (fun b => b.chan.st == .active)).map (fun b => .bulk b.id)

def bulkChoice (s : State) : Option ChanId :=
  match bulkServed s.fen with
  | some c => if eligible s c then some c else none
  | none => none

/-- R147: the channel that the system port would grant. -/
def systemChoice (s : State) : Option ChanId :=
  match displayChoice s with
  | some c => some c
  | none => match audioChoice s with
    | some c => some c
    | none => if eligible s .work then some .work else bulkChoice s

/-! ## What a failure tells the owner (R154 to R156) -/

/-- Table 7-5. -/
def tellOwner (c : ChanId) (addr : Nat) (discard : Bool) (s : State) : State :=
  match c with
  | .plane p slot => planeError p slot addr s
  | .audio st => audioError st discard s
  | .work => workError s
  | .bulk (.sound n) => failLoad n s
  | .bulk .settingsIn => copyInFailed (dropBulk .settingsIn s)
  | .bulk .settingsOut => endRead (statusFailed .fetch) (dropBulk .settingsOut s)
  | .camWr => s
  | .guideWr => s

/-- R154, R157: a channel fails at an address: its other units are discarded, and its owner is told. -/
def failChannel (c : ChanId) (addr : Nat) (discard : Bool) (s : State) : State :=
  let f := { s.fen with units := orphanUnits c s.fen.units }
  tellOwner c addr discard (s.setFen (setChannel f c ((channelOf f c).failed addr)))

/-! ## Grants of the system port (R147, R150, R157) -/

/-- R154: the 50 ms of a read unit and of a timed-out place. -/
def unitTime : Nat := 50000

/-- R157: whether a unit passes the window check. -/
def windowOk (s : State) (c : ChanId) (u : Range) : Bool :=
  match c with
  | .work => true
  | _ => insideWindow s.fen.window u.addr u.len

/-- R148, R149: what a grant does to the turns of its class. -/
def turnAfter (c : ChanId) (f : Fen) : Fen :=
  match c with
  | .plane p slot => { f with rotation := rotationAfter p, lastSlot := f.lastSlot.set p slot }
  | .audio st => { f with audioTurn := otherStream st }
  | _ => f

/-- R150: a read unit is granted, in a place. -/
def grantRead (c : ChanId) (u : Range) (place : Nat) (s : State) : State :=
  let x := channelOf s.fen c
  let f := setChannel s.fen c { x with toReq := advance u.len x.toReq }
  s.setFen { f with units := f.units ++ [⟨place, c, u.addr, u.len, now s + unitTime, .inFlight, false⟩] }

/-- R150: the transfer at the head of WORK's list is complete. -/
def popWork (s : State) : State := s.setFen { s.fen with work := s.fen.work.tail }

/-- R150: a write unit of WORK is issued, and the transfer it may complete. -/
def grantWork (u : Range) (s : State) : State :=
  match s.fen.work with
  | [] => s
  | i :: t =>
    let left := advance u.len i.chan.toReq
    let done := { i with chan := { i.chan with toReq := left, toMove := left }, data := i.data.drop u.len }
    let s := if i.job = .msi then s.setWai { s.wai with msiIssued := s.wai.msiIssued + 1 }
      else writeSystem u.addr (i.data.take u.len) s
    let s := s.setFen { s.fen with work := done :: t }
    if left.isEmpty then
      let s := popWork s
      if i.job = .lastBoardWrite then attachComplete s else s
    else s

/-- R150, R195: a write unit of the copy out is issued; the last one completes the READ_SETTINGS. -/
def grantCopyOut (u : Range) (s : State) : State :=
  let x := channelOf s.fen (.bulk .settingsOut)
  let left := advance u.len x.toReq
  let s := writeSystem u.addr ((s.sto.readImage.drop (u.addr - s.sto.readAddr)).take u.len) s
  let s := s.setFen (setChannel s.fen (.bulk .settingsOut) { x with toReq := left, toMove := left })
  if left.isEmpty then endRead statusDone (dropBulk .settingsOut s) else s

/-- R147: a unit of a channel is granted and issued. -/
def grantUnit (c : ChanId) (u : Range) (s : State) : State :=
  if windowOk s c u then
    let s := s.setFen (turnAfter c s.fen)
    if writesSystem s.fen c then
      if c = .work then grantWork u s else grantCopyOut u s
    else match freePlace s.fen with
      | some n => grantRead c u n s
      | none => s
  else failChannel c u.addr false s

/-- R147: the system port grants one unit; it waits when no channel is eligible. -/
def systemGrant (s : State) : State :=
  match systemChoice s with
  | none => s
  | some c => match nextUnit c (channelOf s.fen c).toReq with
    | some u => grantUnit c u s
    | none => s

/-! ## Completions (R150) -/

/-- R144, R150: a progress record advances; at 0 remaining bytes the channel becomes IDLE. -/
def Channel.moved (n : Nat) (c : Channel) : Channel :=
  let left := advance n c.toMove
  if left.isEmpty then idleChannel else { c with toMove := left }

/-- WAI takes the data of a WORK read; the last of it completes the transfer. -/
def workArrived (data : List Byte) (s : State) : State :=
  match s.fen.work with
  | [] => s
  | i :: t =>
    let left := advance data.length i.chan.toMove
    let all := i.data ++ data
    if left.isEmpty then
      let s := popWork s
      match i.job with
      | .anchorRead => anchorRead all s
      | .headerRead page => headerRead page all s
      | .recordsRead page => recordsRead page all s
      | _ => s
    else s.setFen { s.fen with work := { i with chan := { i.chan with toMove := left }, data := all } :: t }

/-- R150: the data of a unit is handed to the owner of its channel. -/
def handData (c : ChanId) (discard : Bool) (data : List Byte) (s : State) : State :=
  match c with
  | .plane p slot =>
    let x := (channelOf s.fen c).moved data.length
    let s := lineBytes p slot data (s.setFen (setChannel s.fen c x))
    if x.toMove.isEmpty then lineDone p slot s else s
  | .audio st => audioUnitDone st discard data (s.setFen (setChannel s.fen c ((channelOf s.fen c).moved data.length)))
  | .work => workArrived data s
  | .bulk .settingsIn =>
    let x := channelOf s.fen c
    let left := advance data.length x.toMove
    let s := s.setSto { s.sto with staged := s.sto.staged ++ data }
    if left.isEmpty then copyInDone (dropBulk .settingsIn s)
    else s.setFen (setChannel s.fen c { x with toMove := left })
  | .bulk id =>
    let x := channelOf s.fen c
    let f := setChannel s.fen c { x with toMove := advance data.length x.toMove }
    s.setFen { f with store := f.store ++ [(id, data)] }
  | .camWr => s
  | .guideWr => s

def isLiveOf (c : ChanId) (u : FetchUnit) : Bool := u.chan == c && u.live

/-- A list without the first entry that a test finds. -/
def dropFirst {α : Type} (f : α → Bool) : List α → List α
  | [] => []
  | x :: t => if f x then t else x :: dropFirst f t

/-- R150: the units of a channel that have completed are handed over in address order, up to the first that has not. -/
def drain : Nat → ChanId → State → State
  | 0, _, s => s
  | n + 1, c, s =>
    match s.fen.units.find? (isLiveOf c) with
    | none => s
    | some u =>
      match u.phase with
      | .held data =>
        drain n c (handData c u.discard data (s.setFen { s.fen with units := dropFirst (isLiveOf c) s.fen.units }))
      | _ => s

/-- The unit in a place of the port. -/
def unitAt (f : Fen) (place : Nat) : Option FetchUnit := f.units.find? (fun u => u.keepsPlace && u.place == place)

def isAt (place : Nat) (u : FetchUnit) : Bool := u.keepsPlace && u.place == place

/-- R109, R111: the end of an audio unit whose data is discarded is examined too. -/
def afterOrphan (c : ChanId) (s : State) : State :=
  match c with
  | .audio st => afterAudioUnit st s
  | _ => s

/-- The unit in a place leaves the list. -/
def removeUnit (place : Nat) (s : State) : State :=
  s.setFen { s.fen with units := dropFirst (isAt place) s.fen.units }

/-- The unit in a place takes another phase. -/
def rephase (place : Nat) (ph : UnitPhase) (s : State) : State :=
  s.setFen { s.fen with units := s.fen.units.map (fun u => if isAt place u then { u with phase := ph } else u) }

/-- R150, R154: a completion arrives for the unit in a place. -/
def completion (place : Nat) (ok : Bool) (data : List Byte) (s : State) : State :=
  match unitAt s.fen place with
  | none => s
  | some u =>
    match u.phase with
    | .inFlight =>
      if ok then drain 16 u.chan (rephase place (.held (fitBytes u.len data)) s)
      else failChannel u.chan u.addr u.discard (removeUnit place s)
    | .orphan => afterOrphan u.chan (removeUnit place s)
    | _ => removeUnit place s

/-- R154: no completion has arrived for the unit in a place within 50 ms of its grant. -/
def unitTimedOut (place : Nat) (s : State) : State :=
  match unitAt s.fen place with
  | none => s
  | some u =>
    let t := rephase place (.timedOut (u.deadline + unitTime)) (reach u.deadline s)
    match u.phase with
    | .inFlight => failChannel u.chan u.addr u.discard t
    | .orphan => afterOrphan u.chan t
    | _ => s

/-- R154: the place of a timed-out unit is released. -/
def placeRelease (place : Nat) (s : State) : State :=
  match unitAt s.fen place with
  | none => s
  | some u =>
    match u.phase with
    | .timedOut t => removeUnit place (reach t s)
    | _ => s

/-! ## The local port (R151) -/

/-- R145: the next unit of a local channel. -/
def localRange (c : Channel) : Option Range :=
  if c.st = .active then
    match c.toReq with
    | [] => none
    | r :: _ => some ⟨r.addr, min 512 r.len⟩
  else none

/-- R151: the next unit of a layer reader: it reads up to two rows ahead. -/
def layerRange (l : LayerReader) : Option Range :=
  if l.next < l.rows ∧ l.lines.length < 2 then
    some ⟨l.base + l.next * l.rowLen + l.got.length, min 512 (l.rowLen - l.got.length)⟩
  else none

/-- R151: the next unit of the bank reader, its start as a sample index: up to 256 samples ahead of the voice, 128 samples a unit.
DESIGN CHOICE (log entry 55): where the voice's position has passed every sample fetched, the reader goes on from the position, and the
samples passed are never read; and a unit ends at the end of a block of the bank and at the end of the sound, so that it may hold less
than 256 bytes. -/
def bankRange (c : Che) : Option Range :=
  match c.ui with
  | none => none
  | some u =>
    let i := max u.fetched u.pos
    let n := min (min 128 ((soundOf c u.entry).len - i)) (2048 - i % 2048)
    if 0 < n ∧ i + n ≤ u.pos + 256 then some ⟨i, 2 * n⟩ else none

/-- R149: the data that BULK would write next. DESIGN CHOICE (log entry 52): of the data of the transfers that are ACTIVE, the data
that arrived first, whichever copy is the older one. -/
def storeHead (f : Fen) : Option (BulkId × List Byte) :=
  f.store.find? (fun d => (bulkChannel f.bulk d.1).st == .active)

/-- How many bytes of a copy have been written to the bank. -/
def bulkWritten (f : Fen) (id : BulkId) : Nat :=
  match f.bulk.find? (fun b => b.id == id) with
  | some b => b.written
  | none => 0

/-- The local address of a byte of a sound (R137, R149). -/
def bankByte (e : SoundEntry) (i : Nat) : Nat := bankAddr (nth e.blocks (i / 4096) 0) + i % 4096

/-- R149: bytes of a sound from an offset on, each at its place in the sound's blocks. -/
def bankWrites (e : SoundEntry) (off : Nat) : List Byte → List (Nat × List Byte)
  | [] => []
  | b :: t => (bankByte e off, [b]) :: bankWrites e (off + 1) t

/-- R23: what a unit of CAM_WR writes. -/
def cameraWrites (f : Fen) (r : Range) : List (Nat × List Byte) := [(r.addr, f.camData.take r.len)]

/-- R59, R146: what a unit of GUIDE_WR writes. -/
def guideWrites (g : Glg) (r : Range) : List (Nat × List Byte) :=
  match g.run with
  | some x => [(r.addr, guideBytes x (r.addr - overlayAddr (!g.front1)) r.len)]
  | none => []

/-- The unit of a user and a range, with what it writes. -/
def localUnitOf (user : LocalUser) (writes : Range → List (Nat × List Byte)) (o : Option Range) : Option LocalUnit :=
  match o with
  | some r => some ⟨user, r.addr, r.len, writes r, true⟩
  | none => none

/-- A reader of the local port writes nothing. -/
def noWrites : Range → List (Nat × List Byte) := fun _ => []

/-- The first of two. -/
def firstOf {α : Type} (a b : Option α) : Option α :=
  match a with
  | some x => some x
  | none => b

/-- R151: the two layer readers, in turn. -/
def layerChoice (f : Fen) : Option LocalUnit :=
  let cam := localUnitOf .camRead noWrites (layerRange f.camRead)
  let ovl := localUnitOf .ovlRead noWrites (layerRange f.ovlRead)
  if f.ovlTurn then firstOf ovl cam else firstOf cam ovl

/-- R149: what a BULK local write writes, from an offset of its sound. -/
def bulkWrites (c : Che) (id : BulkId) (off : Nat) (data : List Byte) : List (Nat × List Byte) :=
  match id with
  | .sound n => bankWrites (soundOf c n) off data
  | _ => []

/-- R151: a BULK local write. -/
def bulkWrite (s : State) : Option LocalUnit :=
  match storeHead s.fen with
  | some d =>
    let off := bulkWritten s.fen d.1
    some ⟨.bulk d.1, off, d.2.length, bulkWrites s.che d.1 off d.2, true⟩
  | none => none

/-- R151: the unit that the local port would grant, in its fixed order. -/
def localChoice (s : State) : Option LocalUnit :=
  firstOf (localUnitOf .camWr (cameraWrites s.fen) (localRange s.fen.camWr))
    (firstOf (layerChoice s.fen)
      (firstOf (localUnitOf .guideWr (guideWrites s.glg) (localRange s.fen.guideWr))
        (firstOf (localUnitOf .bank noWrites (bankRange s.che)) (bulkWrite s))))

/-- What a local grant does to the user's request. -/
def localRequested (u : LocalUnit) (f : Fen) : Fen :=
  match u.user with
  | .camWr => { f with camWr := { f.camWr with toReq := advance u.len f.camWr.toReq } }
  | .guideWr => { f with guideWr := { f.guideWr with toReq := advance u.len f.guideWr.toReq } }
  | .camRead => { f with ovlTurn := true }
  | .ovlRead => { f with ovlTurn := false }
  | _ => f

/-- R151: the local port grants one unit; it moves one at a time. -/
def localGrant (s : State) : State :=
  match s.fen.localUnit with
  | some _ => s
  | none => match localChoice s with
    | some u => s.setFen { localRequested u s.fen with localUnit := some u }
    | none => s

/-- R151: what a completed unit writes reaches local memory. -/
def writePieces (ws : List (Nat × List Byte)) (s : State) : State := ws.foldl (fun t w => writeLocal w.1 w.2 t) s

/-- R23, R151: a unit of CAM_WR has been written. -/
def cameraWritten (u : LocalUnit) (s : State) : State :=
  let c := s.fen.camWr.moved u.len
  let s := s.setFen { s.fen with camWr := c, camData := s.fen.camData.drop u.len }
  if c.toMove.isEmpty then lineWritten s else s

/-- R59, R151: a unit of GUIDE_WR has been written. -/
def guideWritten (u : LocalUnit) (s : State) : State :=
  let c := s.fen.guideWr.moved u.len
  let s := s.setFen { s.fen with guideWr := c }
  if c.toMove.isEmpty then guideDone s else s

/-- R151: bytes of a layer arrive; a whole row is held unless the pipe has passed it. -/
def layerArrived (data : List Byte) (cy : Int) (outLine : Nat) (l : LayerReader) : LayerReader :=
  let got := l.got ++ data
  if got.length < l.rowLen then { l with got := got }
  else
    { l with
      next := l.next + 1
      got := []
      lines := if (l.next : Int) + cy < outLine then l.lines else l.lines ++ [(l.next, got)] }

/-- R151: the bank reader's samples arrive. -/
def bankArrived (u : LocalUnit) (s : State) : State :=
  match s.che.ui with
  | none => s
  | some v =>
    let bytes := readLocal s (bankByte (soundOf s.che v.entry) (2 * u.addr)) u.len
    let xs := (List.range (u.len / 2)).map (fun k => u16At bytes (2 * k))
    s.setChe { s.che with ui := some (uiArrive u.addr xs v) }

/-- R139, R149: a BULK local write has been written; the last byte ends the load. -/
def bulkWrote (id : BulkId) (u : LocalUnit) (s : State) : State :=
  match id with
  | .sound n =>
    let s := s.setFen { s.fen with
      store := dropFirst (fun d => d.1 == id) s.fen.store
      bulk := s.fen.bulk.map (fun b => if b.id = id then { b with written := b.written + u.len } else b) }
    if 2 * (soundOf s.che n).len ≤ u.addr + u.len then finishLoad n s else s
  | _ => s

/-- R151: a completed unit that its user still wants advances the user. -/
def localMoved (u : LocalUnit) (s : State) : State :=
  match u.user with
  | .camWr => cameraWritten u s
  | .guideWr => guideWritten u s
  | .camRead =>
    s.setFen { s.fen with
      camRead := layerArrived (readLocal s u.addr u.len) s.cmp.comp.cy (pipeOf s .centre).outLine s.fen.camRead }
  | .ovlRead =>
    s.setFen { s.fen with
      ovlRead := layerArrived (readLocal s u.addr u.len) s.cmp.comp.cy (pipeOf s .centre).outLine s.fen.ovlRead }
  | .bank => bankArrived u s
  | .bulk id => bulkWrote id u s

/-- R151: the unit that the local port is moving completes, whether or not its user still wants it. -/
def localDone (s : State) : State :=
  match s.fen.localUnit with
  | none => s
  | some u =>
    let s := writePieces u.writes (s.setFen { s.fen with localUnit := none })
    if u.live then localMoved u s else s

end Sys2Proof.Machine
end

