-- ==== Sys2Proof/Machine/ExecAudio.lean ====
section
/-! DEFINITION. The commands of the mixer and of the chime engine (chapter 6). -/

namespace Sys2Proof.Machine

/-- R115: output sample instant n, counted from 0, falls n + 1 periods of 1/48000 s after power-on reset; in ns. -/
def instantNs (n : Nat) : Nat := (n + 1) * 62500 / 3

/-- R115, R116, R140: the sources hand their samples, MIX computes the outputs, and the sources advance. -/
def sampleInstant (s : State) : State :=
  let ch := chimeInstant s.vsr s.che
  let x : Sources := ⟨filmSample s .a, filmSample s .b, uiSample s.che, ch.1⟩
  let out := mixAll x (headphoneOn s.che) s.mix
  let s := onStreams handSample s
  let s := s.setChe (uiAdvance ch.2)
  s.setMix { s.mix with out := out, instants := s.mix.instants + 1 }

/-- OUTPUT_SAMPLE_INSTANT (R115). -/
def execOutputSampleInstant (s : State) : Host.Outcome State Fault Refusal :=
  finish (sampleInstant (reachNs (instantNs s.mix.instants) s))

/-- RAMP_BLOCK (R119): the first instant of the next ramp block. -/
def execRampBlock (s : State) : Host.Outcome State Fault Refusal :=
  let t := rampAll (reachNs (instantNs (48 * s.mix.blocks)) s)
  finish (t.setMix { t.mix with blocks := t.mix.blocks + 1 })

/-- SET_MIX (R117). -/
def execSetMix (r : RecordRef) (p : MixParams) (s : State) : Host.Outcome State Fault Refusal :=
  request r (fun _ => ownSetMix p) s

/-- R122: the duck depth becomes 0. -/
def duckExpiry (s : State) : State := s.setMix { s.mix with duck := 0, duckTimer := none }

/-- DUCK_HOLD_TIMER (R122). -/
def execDuckHoldTimer (s : State) : Host.Outcome State Fault Refusal :=
  match s.mix.duckTimer with
  | some t => finish (duckExpiry (reach t s))
  | none => .next s

/-- DEFINE_CHIME (R124). -/
def execDefineChime (r : RecordRef) (p : ChimeParams) (s : State) : Host.Outcome State Fault Refusal :=
  request r (fun _ => ownDefineChime p) s

/-- PLAY_CHIME (R132). -/
def execPlayChime (r : RecordRef) (number : Byte) (s : State) : Host.Outcome State Fault Refusal :=
  request r (fun _ => ownPlayChime number) s

/-- CANCEL_CHIME (R133). -/
def execCancelChime (r : RecordRef) (number : Byte) (s : State) : Host.Outcome State Fault Refusal :=
  request r (fun _ => ownCancelChime number) s

/-- LOAD_SOUND (R138). -/
def execLoadSound (r : RecordRef) (p : LoadParams) (s : State) : Host.Outcome State Fault Refusal :=
  request r (fun q => ownLoadSound q p) s

/-- PLAY_SOUND (R140). -/
def execPlaySound (r : RecordRef) (entry : Byte) (s : State) : Host.Outcome State Fault Refusal :=
  request r (fun _ => ownPlaySound entry) s

/-- TONE_STEP_END (R125, R131). -/
def execToneStepEnd (s : State) : Host.Outcome State Fault Refusal :=
  finish (stepEnd s)

/-- RELEASE_TAIL_END (R126). -/
def execReleaseTailEnd (s : State) : Host.Outcome State Fault Refusal :=
  finish (tailEnd s)

/-- CADENCE_DECISION_POINT (R136). -/
def execCadenceDecisionPoint (s : State) : Host.Outcome State Fault Refusal :=
  finish (cadenceDecision s)

/-- CADENCE_CYCLE_END (R136). -/
def execCadenceCycleEnd (s : State) : Host.Outcome State Fault Refusal :=
  finish (cadenceCycle s)

end Sys2Proof.Machine
end

