-- ==== Sys2Proof/Machine/ExecCamera.lean ====
section
/-! DEFINITION. The commands of the camera port, of its deadline and of test mode (chapter 2). -/

namespace Sys2Proof.Machine

/-- FRAME_START (R24): the code on the camera port; with the source TEST the port is passed over (R33). -/
def execFrameStart (s : State) : Host.Outcome State Fault Refusal :=
  if s.cin.source = .port then finish (camFrameStart s) else .next s

/-- LINE_START (R21). -/
def execLineStart (s : State) : Host.Outcome State Fault Refusal :=
  finish (camLineStart s)

/-- LINE_END (R23). -/
def execLineEnd (s : State) : Host.Outcome State Fault Refusal :=
  finish (camLineEnd s)

/-- FRAME_END (R21). -/
def execFrameEnd (s : State) : Host.Outcome State Fault Refusal :=
  finish (camFrameEnd s)

/-- INVALID_CODE (R20): every code byte outside Table 2-1 acts alike. -/
def execInvalidCode (_code : Byte) (s : State) : Host.Outcome State Fault Refusal :=
  finish (camInvalid s)

/-- PIXEL_BYTE (R21). -/
def execPixelByte (b : Byte) (s : State) : Host.Outcome State Fault Refusal :=
  finish (camPixel b s)

/-- FRAME_START_DEADLINE (R26). -/
def execFrameStartDeadline (s : State) : Host.Outcome State Fault Refusal :=
  match s.cin.deadline with
  | some t => finish (camDeadline (reach t s))
  | none => .next s

/-- TEST_FRAME_START (R34). -/
def execTestFrameStart (s : State) : Host.Outcome State Fault Refusal :=
  if s.cin.source = .test then finish (startTestFrame s) else .next s

/-- TEST_FRAME_END (R34). -/
def execTestFrameEnd (s : State) : Host.Outcome State Fault Refusal :=
  if s.cin.source = .test then finish (endTestFrame s) else .next s

/-- CAMERA_TEST (R35). -/
def execCameraTest (r : RecordRef) (mode : Byte) (s : State) : Host.Outcome State Fault Refusal :=
  request r (fun _ => ownCameraTest mode) s

end Sys2Proof.Machine
end

