-- ==== Sys2Proof/Machine/ExecDisplay.lean ====
section
/-! DEFINITION. The commands of the display pipes and scenes (chapter 4). -/

namespace Sys2Proof.Machine

/-- SET_PIPE_TIMING (R71). -/
def execSetPipeTiming (r : RecordRef) (p : TimingParams) (s : State) : Host.Outcome State Fault Refusal :=
  request r (fun _ => ownSetPipeTiming p) s

/-- PIPE_OFF (R74). -/
def execPipeOff (r : RecordRef) (pipe : Byte) (s : State) : Host.Outcome State Fault Refusal :=
  request r (fun _ => ownPipeOff pipe) s

/-- RESTART_PIPE (R75). -/
def execRestartPipe (r : RecordRef) (pipe : Byte) (s : State) : Host.Outcome State Fault Refusal :=
  request r (fun q => ownRestartPipe q pipe) s

/-- SET_SCENE (R79). -/
def execSetScene (r : RecordRef) (p : SceneParams) (s : State) : Host.Outcome State Fault Refusal :=
  request r (fun _ => ownSetScene p) s

/-- PIPE_VBLANK (R73). A pipe in OFF has no vblanks. -/
def execPipeVblank (p : PipeId) (s : State) : Host.Outcome State Fault Refusal :=
  if (pipeOf s p).st = .off then .next s else finish (vblank p s)

/-- OUTPUT_LINE (R91): the next output line of the frame begins. A pipe in OFF sends none, and a frame has as many as the active
height. -/
def execOutputLine (p : PipeId) (s : State) : Host.Outcome State Fault Refusal :=
  match (pipeOf s p).timing with
  | some t =>
    if (pipeOf s p).st ≠ .off ∧ (pipeOf s p).outLine < t.activeH then finish (outputLine p t.activeW s) else .next s
  | none => .next s

end Sys2Proof.Machine
end

