-- ==== Sys2Proof/Machine/ExecFetch.lean ====
section
/-! DEFINITION. The commands of the two memory ports (chapter 7). -/

namespace Sys2Proof.Machine

/-- SYSTEM_PORT_GRANT (R147). -/
def execSystemPortGrant (s : State) : Host.Outcome State Fault Refusal :=
  finish (systemGrant s)

/-- LOCAL_PORT_GRANT (R151). -/
def execLocalPortGrant (s : State) : Host.Outcome State Fault Refusal :=
  finish (localGrant s)

/-- READ_COMPLETION (R150). -/
def execReadCompletion (place : Nat) (ok : Bool) (data : List Byte) (s : State) : Host.Outcome State Fault Refusal :=
  finish (completion place ok data s)

/-- LOCAL_UNIT_COMPLETION (R151). -/
def execLocalUnitCompletion (s : State) : Host.Outcome State Fault Refusal :=
  finish (localDone s)

/-- UNIT_TIMEOUT (R154). -/
def execUnitTimeout (place : Nat) (s : State) : Host.Outcome State Fault Refusal :=
  finish (unitTimedOut place s)

/-- TIMEOUT_PLACE_RELEASE (R154). -/
def execTimeoutPlaceRelease (place : Nat) (s : State) : Host.Outcome State Fault Refusal :=
  finish (placeRelease place s)

end Sys2Proof.Machine
end

