-- ==== Sys2Proof/Machine/ExecFilm.lean ====
section
/-! DEFINITION. The commands of the film streams (chapter 5). -/

namespace Sys2Proof.Machine

/-- OPEN_STREAM (R95). -/
def execOpenStream (r : RecordRef) (p : OpenParams) (s : State) : Host.Outcome State Fault Refusal :=
  request r (fun _ => ownOpenStream p) s

/-- QUEUE_FRAME (R96). -/
def execQueueFrame (r : RecordRef) (p : FrameParams) (s : State) : Host.Outcome State Fault Refusal :=
  request r (fun _ => ownQueueFrame p) s

/-- QUEUE_AUDIO (R103). -/
def execQueueAudio (r : RecordRef) (p : AudioParams) (s : State) : Host.Outcome State Fault Refusal :=
  request r (fun _ => ownQueueAudio p) s

/-- FLUSH_STREAM (R108). -/
def execFlushStream (r : RecordRef) (stream : Byte) (s : State) : Host.Outcome State Fault Refusal :=
  request r (fun q => ownFlushStream q stream) s

/-- CLOSE_STREAM (R110). -/
def execCloseStream (r : RecordRef) (stream : Byte) (s : State) : Host.Outcome State Fault Refusal :=
  request r (fun q => ownCloseStream q stream) s

end Sys2Proof.Machine
end

