-- ==== Sys2Proof/Machine/ExecSettings.lean ====
section
/-! DEFINITION. The commands of the settings store and its flash (chapter 9). -/

namespace Sys2Proof.Machine

/-- SETTINGS_LOAD (R188): the start-up flash read ends. -/
def execSettingsLoad (image : List Byte) (s : State) : Host.Outcome State Fault Refusal :=
  match s.sto.flash with
  | some (.load t) => finish (freeFlash (takeStartImage image (reachNs t s)))
  | _ => .next s

/-- WRITE_SETTINGS (R190). -/
def execWriteSettings (r : RecordRef) (p : WriteParams) (s : State) : Host.Outcome State Fault Refusal :=
  request r (fun q => ownWriteSettings q p) s

/-- READ_SETTINGS (R195). -/
def execReadSettings (r : RecordRef) (addr : Dword) (s : State) : Host.Outcome State Fault Refusal :=
  request r (fun q => ownReadSettings q addr) s

/-- READY_WAIT_DONE (R191, R195): the device reports itself ready, and the operation that waited for it is issued: a READ_SETTINGS
keeps the port that its wait holds. -/
def execReadyWaitDone (s : State) : Host.Outcome State Fault Refusal :=
  match s.sto.flash with
  | some (.readyWait forWrite _) =>
    let s := s.setSto { s.sto with notReady := false }
    finish (if forWrite then freeFlash s else setFlash (some (.read (s.clockNs + flashReadNs))) s)
  | _ => .next s

/-- READY_WAIT_TIMEOUT (R191). -/
def execReadyWaitTimeout (s : State) : Host.Outcome State Fault Refusal :=
  match s.sto.flash with
  | some (.readyWait forWrite t) =>
    let s := reachNs t s
    finish (if forWrite then timeoutWrite .eraseTimeout s else freeFlash (endRead (statusFailed .verify) s))
  | _ => .next s

/-- ERASE_COMPLETE (R191). -/
def execEraseComplete (s : State) : Host.Outcome State Fault Refusal :=
  match s.sto.flash with
  | some (.erase _) => finish (programPage 0 s)
  | _ => .next s

/-- ERASE_TIMEOUT (R191). -/
def execEraseTimeout (s : State) : Host.Outcome State Fault Refusal :=
  match s.sto.flash with
  | some (.erase t) => finish (timeoutWrite .eraseTimeout (reachNs t s))
  | _ => .next s

/-- PAGE_PROGRAM_COMPLETE (R191). -/
def execPageProgramComplete (s : State) : Host.Outcome State Fault Refusal :=
  match s.sto.flash with
  | some (.program n _) => finish (if n + 1 < 4 then programPage (n + 1) s else startVerify s)
  | _ => .next s

/-- PROGRAM_TIMEOUT (R191). -/
def execProgramTimeout (s : State) : Host.Outcome State Fault Refusal :=
  match s.sto.flash with
  | some (.program _ t) => finish (timeoutWrite .programTimeout (reachNs t s))
  | _ => .next s

/-- VERIFY_READ_COMPLETE (R192). -/
def execVerifyReadComplete (bytes : List Byte) (s : State) : Host.Outcome State Fault Refusal :=
  match s.sto.flash with
  | some (.verify t) => finish (compareImage bytes (reachNs t s))
  | _ => .next s

/-- FLASH_READ_COMPLETE (R195). -/
def execFlashReadComplete (bytes : List Byte) (s : State) : Host.Outcome State Fault Refusal :=
  match s.sto.flash with
  | some (.read t) => finish (startCopyOut bytes (reachNs t s))
  | _ => .next s

end Sys2Proof.Machine
end

