-- ==== Sys2Proof/Machine/ExecSignals.lean ====
section
/-! DEFINITION. The commands of power-on reset, the vehicle lines and the supply (chapter 1). -/

namespace Sys2Proof.Machine

/-- POWER_ON_RESET (R18): every block takes its reset values and the start-up load begins. The commands waiting, what lies in the two
memories and the count that free values are drawn by are kept (log entries 4 and 14). -/
def execPowerOnReset (revIn : Bool) (s : State) : Host.Outcome State Fault Refusal :=
  .next { State.reset with
    pending := s.pending
    vsr := resetVsr revIn
    cmp := { resetCmp with drawn := s.cmp.drawn }
    localMem := s.localMem
    sysMem := s.sysMem }

/-- MOTION_FRAME (R5): the line brings bits up to the last check bit of a good MOTION frame. -/
def execMotionFrame (bits : List Bool) (s : State) : Host.Outcome State Fault Refusal :=
  finish (takeBits bits s)

/-- PARK_ASSIST_FRAME (R6): the line brings bits up to the last check bit of a good PARK_ASSIST frame. -/
def execParkAssistFrame (bits : List Bool) (s : State) : Host.Outcome State Fault Refusal :=
  finish (takeBits bits s)

/-- FRAME_ERROR (R7): the line brings bits up to the one at which a frame error is found. -/
def execFrameError (bits : List Bool) (s : State) : Host.Outcome State Fault Refusal :=
  finish (takeBits bits s)

/-- RETURN_TO_REST (R2): the line brings bits up to the 1 that ends SKIP. -/
def execReturnToRest (bits : List Bool) (s : State) : Host.Outcome State Fault Refusal :=
  finish (takeBits bits s)

/-- FRESHNESS_DEADLINE (R9). A kind with no deadline has none to pass. -/
def execFreshnessDeadline (k : VslKind) (s : State) : Host.Outcome State Fault Refusal :=
  match (freshOf s.vsr k).deadline with
  | some t => finish (freshDeadline k (reach t s))
  | none => .next s

/-- REV_IN_EDGE (R12). -/
def execRevInEdge (level : Bool) (s : State) : Host.Outcome State Fault Refusal :=
  finish (revEdge level s)

/-- HOLD_TIMER (R12, R13). -/
def execHoldTimer (s : State) : Host.Outcome State Fault Refusal :=
  match s.vsr.hold with
  | some t => finish (holdExpiry (reach t s))
  | none => .next s

/-- DISAGREEMENT_TIMER (R14). -/
def execDisagreementTimer (s : State) : Host.Outcome State Fault Refusal :=
  match s.vsr.disTimer with
  | some t => finish (disagreementExpiry (reach t s))
  | none => .next s

/-- SUPPLY_SAMPLE (R16): the next 2 ms sample reads the two sense lines. -/
def execSupplySample (senseLo senseHi : Bool) (s : State) : Host.Outcome State Fault Refusal :=
  let t := reach s.smn.nextSample s
  finish (takeSample senseLo senseHi (t.setSmn { t.smn with nextSample := t.smn.nextSample + 2000 }))

end Sys2Proof.Machine
end

