-- ==== Sys2Proof/Machine/ExecView.lean ====
section
/-! DEFINITION. The commands of the reversing view (chapter 3). -/

namespace Sys2Proof.Machine

/-- VIEW_REQUEST (R43, R51). -/
def execViewRequest (r : RecordRef) (mode : Byte) (s : State) : Host.Outcome State Fault Refusal :=
  request r (fun _ => ownViewRequest mode) s

/-- SET_VIEW_POLICY (R41). -/
def execSetViewPolicy (r : RecordRef) (p : PolicyParams) (s : State) : Host.Outcome State Fault Refusal :=
  request r (fun _ => ownSetViewPolicy p) s

/-- START_TIMER (R46). -/
def execStartTimer (s : State) : Host.Outcome State Fault Refusal :=
  match s.vwc.startTimer with
  | some t => finish (viewStartTimeout (reach t s))
  | none => .next s

/-- EXIT_TIMER (R49). -/
def execExitTimer (s : State) : Host.Outcome State Fault Refusal :=
  match s.vwc.exitTimer with
  | some t => finish (viewExitTimeout (reach t s))
  | none => .next s

end Sys2Proof.Machine
end

