-- ==== Sys2Proof/Machine/ExecWork.lean ====
section
/-! DEFINITION. The commands of the register window, of the work area and of the notices (chapter 8). -/

namespace Sys2Proof.Machine

/-- LINK_RESET (R169). -/
def execLinkReset (s : State) : Host.Outcome State Fault Refusal :=
  finish (linkResetNow s)

/-- ATTACH (R163): the command bit of CTRL. -/
def execAttach (s : State) : Host.Outcome State Fault Refusal :=
  finish (attachNow s)

/-- DETACH (R166): the command bit of CTRL. -/
def execDetach (s : State) : Host.Outcome State Fault Refusal :=
  finish (detachNow s)

/-- SCAN_NOW (R171): the command bit of CTRL. -/
def execScanNow (s : State) : Host.Outcome State Fault Refusal :=
  finish (requestScan s)

/-- REGISTER_WRITE (R197). -/
def execRegisterWrite (offset : Nat) (bytes : List Byte) (s : State) : Host.Outcome State Fault Refusal :=
  finish (writeRegs offset bytes s)

/-- TIME_LO_READ (R160, R197): a read of any offset and width that takes in a byte of TIME_LO. -/
def execTimeLoRead (offset count : Nat) (s : State) : Host.Outcome State Fault Refusal :=
  finish (readWindow offset count s)

/-- R171: the scan period timer runs on from one expiry to the next. -/
def scanExpiry (t : Nat) (s : State) : State :=
  let period := match s.wai.anchor with
    | some a => a.period
    | none => 0
  requestScan (s.setWai { s.wai with scanTimer := some (t + 1000 * period) })

/-- SCAN_PERIOD_TIMER (R171). -/
def execScanPeriodTimer (s : State) : Host.Outcome State Fault Refusal :=
  match s.wai.scanTimer with
  | some t => finish (scanExpiry t (reach t s))
  | none => .next s

/-- MSI_INTERVAL_TIMER (R182): the timer stops, and an MSI that is due is handed. -/
def execMsiIntervalTimer (s : State) : Host.Outcome State Fault Refusal :=
  match s.wai.msiTimer with
  | some t =>
    let s := reach t s
    finish (s.setWai { s.wai with msiTimer := none })
  | none => .next s

/-- SET_NOTICE (R183). -/
def execSetNotice (r : RecordRef) (p : NoticeParams) (s : State) : Host.Outcome State Fault Refusal :=
  request r (fun _ => ownSetNotice p) s

end Sys2Proof.Machine
end

