-- ==== Sys2Proof/Machine/Dispatch.lean ====
section
/-! DEFINITION. The dispatch: one arm for each command, each one direct call of its meaning. -/

namespace Sys2Proof.Machine

def exec (i : Instr) (s : State) : Host.Outcome State Fault Refusal :=
  match i with
  | .powerOnReset revIn => Sys2Proof.Machine.execPowerOnReset revIn s
  | .linkReset => Sys2Proof.Machine.execLinkReset s
  | .motionFrame bits => Sys2Proof.Machine.execMotionFrame bits s
  | .parkAssistFrame bits => Sys2Proof.Machine.execParkAssistFrame bits s
  | .frameError bits => Sys2Proof.Machine.execFrameError bits s
  | .freshnessDeadline kind => Sys2Proof.Machine.execFreshnessDeadline kind s
  | .revInEdge level => Sys2Proof.Machine.execRevInEdge level s
  | .holdTimer => Sys2Proof.Machine.execHoldTimer s
  | .disagreementTimer => Sys2Proof.Machine.execDisagreementTimer s
  | .supplySample senseLo senseHi => Sys2Proof.Machine.execSupplySample senseLo senseHi s
  | .frameStart => Sys2Proof.Machine.execFrameStart s
  | .lineStart => Sys2Proof.Machine.execLineStart s
  | .lineEnd => Sys2Proof.Machine.execLineEnd s
  | .frameEnd => Sys2Proof.Machine.execFrameEnd s
  | .invalidCode code => Sys2Proof.Machine.execInvalidCode code s
  | .frameStartDeadline => Sys2Proof.Machine.execFrameStartDeadline s
  | .testFrameStart => Sys2Proof.Machine.execTestFrameStart s
  | .testFrameEnd => Sys2Proof.Machine.execTestFrameEnd s
  | .cameraTest ref mode => Sys2Proof.Machine.execCameraTest ref mode s
  | .viewRequest ref mode => Sys2Proof.Machine.execViewRequest ref mode s
  | .setViewPolicy ref params => Sys2Proof.Machine.execSetViewPolicy ref params s
  | .startTimer => Sys2Proof.Machine.execStartTimer s
  | .exitTimer => Sys2Proof.Machine.execExitTimer s
  | .setPipeTiming ref params => Sys2Proof.Machine.execSetPipeTiming ref params s
  | .pipeOff ref pipe => Sys2Proof.Machine.execPipeOff ref pipe s
  | .restartPipe ref pipe => Sys2Proof.Machine.execRestartPipe ref pipe s
  | .setScene ref params => Sys2Proof.Machine.execSetScene ref params s
  | .pipeVblank pipe => Sys2Proof.Machine.execPipeVblank pipe s
  | .outputLine pipe => Sys2Proof.Machine.execOutputLine pipe s
  | .openStream ref params => Sys2Proof.Machine.execOpenStream ref params s
  | .queueFrame ref params => Sys2Proof.Machine.execQueueFrame ref params s
  | .queueAudio ref params => Sys2Proof.Machine.execQueueAudio ref params s
  | .flushStream ref stream => Sys2Proof.Machine.execFlushStream ref stream s
  | .closeStream ref stream => Sys2Proof.Machine.execCloseStream ref stream s
  | .outputSampleInstant => Sys2Proof.Machine.execOutputSampleInstant s
  | .rampBlock => Sys2Proof.Machine.execRampBlock s
  | .setMix ref params => Sys2Proof.Machine.execSetMix ref params s
  | .duckHoldTimer => Sys2Proof.Machine.execDuckHoldTimer s
  | .defineChime ref params => Sys2Proof.Machine.execDefineChime ref params s
  | .playChime ref number => Sys2Proof.Machine.execPlayChime ref number s
  | .cancelChime ref number => Sys2Proof.Machine.execCancelChime ref number s
  | .loadSound ref params => Sys2Proof.Machine.execLoadSound ref params s
  | .playSound ref entry => Sys2Proof.Machine.execPlaySound ref entry s
  | .toneStepEnd => Sys2Proof.Machine.execToneStepEnd s
  | .releaseTailEnd => Sys2Proof.Machine.execReleaseTailEnd s
  | .cadenceDecisionPoint => Sys2Proof.Machine.execCadenceDecisionPoint s
  | .cadenceCycleEnd => Sys2Proof.Machine.execCadenceCycleEnd s
  | .systemPortGrant => Sys2Proof.Machine.execSystemPortGrant s
  | .localPortGrant => Sys2Proof.Machine.execLocalPortGrant s
  | .readCompletion place ok data => Sys2Proof.Machine.execReadCompletion place ok data s
  | .localUnitCompletion => Sys2Proof.Machine.execLocalUnitCompletion s
  | .unitTimeout place => Sys2Proof.Machine.execUnitTimeout place s
  | .timeoutPlaceRelease place => Sys2Proof.Machine.execTimeoutPlaceRelease place s
  | .attach => Sys2Proof.Machine.execAttach s
  | .detach => Sys2Proof.Machine.execDetach s
  | .scanNow => Sys2Proof.Machine.execScanNow s
  | .registerWrite offset bytes => Sys2Proof.Machine.execRegisterWrite offset bytes s
  | .timeLoRead offset count => Sys2Proof.Machine.execTimeLoRead offset count s
  | .scanPeriodTimer => Sys2Proof.Machine.execScanPeriodTimer s
  | .msiIntervalTimer => Sys2Proof.Machine.execMsiIntervalTimer s
  | .setNotice ref params => Sys2Proof.Machine.execSetNotice ref params s
  | .settingsLoad image => Sys2Proof.Machine.execSettingsLoad image s
  | .writeSettings ref params => Sys2Proof.Machine.execWriteSettings ref params s
  | .readSettings ref addr => Sys2Proof.Machine.execReadSettings ref addr s
  | .readyWaitDone => Sys2Proof.Machine.execReadyWaitDone s
  | .readyWaitTimeout => Sys2Proof.Machine.execReadyWaitTimeout s
  | .eraseComplete => Sys2Proof.Machine.execEraseComplete s
  | .eraseTimeout => Sys2Proof.Machine.execEraseTimeout s
  | .pageProgramComplete => Sys2Proof.Machine.execPageProgramComplete s
  | .programTimeout => Sys2Proof.Machine.execProgramTimeout s
  | .verifyReadComplete bytes => Sys2Proof.Machine.execVerifyReadComplete bytes s
  | .flashReadComplete bytes => Sys2Proof.Machine.execFlashReadComplete bytes s
  | .pixelByte byte => Sys2Proof.Machine.execPixelByte byte s
  | .returnToRest bits => Sys2Proof.Machine.execReturnToRest bits s

end Sys2Proof.Machine
end

