-- ==== Sys2Proof/Safety.lean ====
section
/-! DEFINITION. The terms that statements about this machine use: the parts of the state and which of them each command may change
(written from the rules, family by family), the invariants of a run, and where an answer and a notice are found. -/

namespace Sys2Proof.Machine

/-! ## The parts of the state -/

/-- The parts of the state that a frame speaks of. Some lie inside others: the policy inside the view record, the timing records
inside the pipes, the matrix inside the mixer, the sound bank inside the chime engine, the turns of the ports inside the fetch
engine, the link, the registers and the switches of the notice slots inside the work area interface, and the running settings
inside the settings store. -/
inductive Part where
  | clock | queue | vsr | smn | cin | vwc | policy | glg | cmp | timings | flm | mix | matrix | che | bank | fen | turns | wai
  | link | regs | switches | sto | running | localMem | sysMem
  deriving DecidableEq, Repr

/-- A part is the same in two states. -/
def Part.same (p : Part) (s t : State) : Prop :=
  match p with
  | .clock => t.clockNs = s.clockNs
  | .queue => t.pending = s.pending
  | .vsr => t.vsr = s.vsr
  | .smn => t.smn = s.smn
  | .cin => t.cin = s.cin
  | .vwc => t.vwc = s.vwc
  | .policy => t.vwc.policy = s.vwc.policy
  | .glg => t.glg = s.glg
  | .cmp => t.cmp = s.cmp
  | .timings => ∀ q, (pipeOf t q).timing = (pipeOf s q).timing
  | .flm => t.flm = s.flm
  | .mix => t.mix = s.mix
  | .matrix => t.mix.matrix = s.mix.matrix
  | .che => t.che = s.che
  | .bank => t.che.bank = s.che.bank ∧ t.che.free = s.che.free ∧ t.che.loads = s.che.loads
  | .fen => t.fen = s.fen
  | .turns => t.fen.rotation = s.fen.rotation ∧ t.fen.lastSlot = s.fen.lastSlot ∧ t.fen.audioTurn = s.fen.audioTurn
  | .wai => t.wai = s.wai
  | .link => t.wai.st = s.wai.st ∧ t.wai.cause = s.wai.cause ∧ t.wai.ignored = s.wai.ignored ∧
      t.wai.adjusted = s.wai.adjusted ∧ t.wai.anchor = s.wai.anchor ∧ t.fen.window = s.fen.window
  | .regs => t.wai.wbase = s.wai.wbase ∧ t.wai.timeLatch = s.wai.timeLatch ∧ t.wai.readData = s.wai.readData
  | .switches => t.wai.slots.map (fun x => (x.enable, x.mask)) = s.wai.slots.map (fun x => (x.enable, x.mask))
  | .sto => t.sto = s.sto
  | .running => t.sto.running = s.sto.running ∧ t.sto.source = s.sto.source ∧ t.sto.rejection = s.sto.rejection
  | .localMem => t.localMem = s.localMem
  | .sysMem => t.sysMem = s.sysMem

/-- Nothing changes from one state to another but the parts listed. -/
def OnlyTouches (ps : List Part) (s t : State) : Prop := ∀ p, p ∉ ps → p.same s t

/-- What the entry into OFF of the view may change: the waiting settings are applied (R52, R193). -/
def offParts : List Part := [.vwc, .policy, .glg, .che, .sto, .running, .fen, .wai]

/-- What a move of the view may change: the overlay, the CENTRE pipe and the film latches, the chime voice with its duck, and what
an entry into OFF changes (R39 to R54). -/
def viewParts : List Part := offParts ++ [.cmp, .timings, .flm, .mix]

/-- What the loss of the camera picture may change (R27, R32, R47, R54). -/
def pictureParts : List Part := [.cin, .vwc, .glg, .che, .mix, .fen, .wai]

/-- What the vehicle line, REVERSE and PARKED may change (R5 to R15). -/
def vehicleParts : List Part := [.vsr, .cin] ++ viewParts

/-- What an exit from ATTACHED or a failed unit may change (R154, R158, R167). -/
def exitParts : List Part := [.link, .flm, .cmp, .che, .bank, .sto, .fen, .wai]

/-- The parts that a command may change: the rules of its family. WORK's list and the interface's own record are in every list,
for WAI hands what waits after each command (R170). -/
def mayTouch : Instr → List Part
  | .powerOnReset _ =>
    [.clock, .vsr, .smn, .cin, .vwc, .policy, .glg, .cmp, .timings, .flm, .mix, .matrix, .che, .bank, .fen, .turns, .wai, .link,
     .regs, .switches, .sto, .running]
  | .motionFrame _ => vehicleParts
  | .parkAssistFrame _ => vehicleParts
  | .frameError _ => vehicleParts
  | .returnToRest _ => vehicleParts
  | .freshnessDeadline _ => .clock :: vehicleParts
  | .revInEdge _ => [.vsr, .fen, .wai]
  | .holdTimer => .clock :: vehicleParts
  | .disagreementTimer => [.clock, .vsr, .fen, .wai]
  | .supplySample _ _ => [.clock, .smn, .cmp, .flm, .mix, .sto, .fen, .wai]
  | .frameStart => .localMem :: pictureParts
  | .lineStart => pictureParts
  | .lineEnd => .localMem :: pictureParts
  | .frameEnd => pictureParts
  | .invalidCode _ => pictureParts
  | .pixelByte _ => pictureParts
  | .frameStartDeadline => .clock :: pictureParts
  | .testFrameStart => .clock :: .localMem :: pictureParts
  | .testFrameEnd => .clock :: .localMem :: pictureParts
  | .cameraTest _ _ => pictureParts
  | .viewRequest _ _ => viewParts
  | .setViewPolicy _ _ => [.vwc, .policy, .fen, .wai]
  | .startTimer => [.clock, .vwc, .che, .mix, .fen, .wai]
  | .exitTimer => .clock :: offParts
  | .setPipeTiming _ _ => [.cmp, .timings, .flm, .fen, .wai]
  | .pipeOff _ _ => [.cin, .cmp, .flm, .fen, .wai]
  | .restartPipe _ _ => [.cmp, .flm, .fen, .wai]
  | .setScene _ _ => [.cmp, .fen, .wai]
  | .pipeVblank _ => [.clock, .cin, .vwc, .glg, .cmp, .flm, .fen, .wai]
  | .outputLine _ => [.cmp, .fen, .wai]
  | .openStream _ _ => [.flm, .fen, .wai]
  | .queueFrame _ _ => [.flm, .fen, .wai]
  | .queueAudio _ _ => [.flm, .fen, .wai]
  | .flushStream _ _ => [.flm, .fen, .wai]
  | .closeStream _ _ => [.flm, .fen, .wai]
  | .outputSampleInstant => [.clock, .flm, .mix, .che, .fen, .wai]
  | .rampBlock => [.clock, .mix, .fen, .wai]
  | .setMix _ _ => [.mix, .matrix, .fen, .wai]
  | .duckHoldTimer => [.clock, .mix, .fen, .wai]
  | .defineChime _ _ => [.che, .fen, .wai]
  | .playChime _ _ => [.che, .mix, .fen, .wai]
  | .cancelChime _ _ => [.che, .mix, .fen, .wai]
  | .loadSound _ _ => [.che, .bank, .fen, .wai]
  | .playSound _ _ => [.che, .fen, .wai]
  | .toneStepEnd => [.che, .mix, .fen, .wai]
  | .releaseTailEnd => [.che, .fen, .wai]
  | .cadenceDecisionPoint => [.che, .fen, .wai]
  | .cadenceCycleEnd => [.che, .fen, .wai]
  | .systemPortGrant => .turns :: .sysMem :: exitParts
  | .localPortGrant => [.fen, .wai]
  | .readCompletion _ _ _ => [.cin, .timings, .mix, .matrix, .switches] ++ viewParts ++ exitParts
  | .localUnitCompletion => .localMem :: .bank :: pictureParts
  | .unitTimeout _ => .clock :: exitParts
  | .timeoutPlaceRelease _ => [.clock, .fen, .wai]
  | .linkReset => .regs :: exitParts
  | .attach => [.link, .fen, .wai]
  | .detach => exitParts
  | .scanNow => [.fen, .wai]
  | .registerWrite _ _ => .regs :: exitParts
  | .timeLoRead _ _ => [.regs, .fen, .wai]
  | .scanPeriodTimer => [.clock, .fen, .wai]
  | .msiIntervalTimer => [.clock, .fen, .wai]
  | .setNotice _ _ => [.switches, .fen, .wai]
  | .settingsLoad _ => .clock :: offParts
  | .writeSettings _ _ => [.sto, .fen, .wai]
  | .readSettings _ _ => [.sto, .fen, .wai]
  | .readyWaitDone => [.sto, .fen, .wai]
  | .readyWaitTimeout => [.clock, .sto, .fen, .wai]
  | .eraseComplete => [.sto, .fen, .wai]
  | .eraseTimeout => [.clock, .sto, .fen, .wai]
  | .pageProgramComplete => [.sto, .fen, .wai]
  | .programTimeout => [.clock, .sto, .fen, .wai]
  | .verifyReadComplete _ => .clock :: offParts
  | .flashReadComplete _ => [.clock, .sto, .fen, .wai]

/-! ## Invariants -/

/-- Every listed address of a memory lies below `n`. -/
def Memory.below (n : Nat) (m : Memory) : Bool := m.all (fun c => decide (c.1 < n))

/-- Both memories have the canonical form and lie in their address spaces (3.1). -/
def State.memOk (s : State) : Bool :=
  Memory.wf s.localMem && Memory.below localSize s.localMem && Memory.wf s.sysMem && Memory.below systemSize s.sysMem

/-- R13 to R15: REVERSE is true exactly while a source is, PARKED while its condition holds, and an episode while the sources
disagree. -/
def vehicleOk (v : Vsr) : Bool :=
  (v.reverse == (lineSource v || gearSource v)) && (v.parked == parkedNow v) && (v.episode == (disagreement v).isSome)

/-- R39, R44, R48: each timer of the view runs only in its state, and MANUAL is clear in OFF. -/
def viewOk (v : Vwc) : Bool :=
  (v.startTimer.isSome == (v.view == .starting)) && (v.exitTimer.isSome == (v.view == .exitHold))
    && !(v.manual && (v.view == .off || v.view == .exitHold))

/-- R42, R48, R51: REVERSE is false in OFF and in EXIT_HOLD, where MANUAL is clear; and a view in STARTING, LIVE or NO_SIGNAL is held open
by REVERSE exactly where MANUAL is clear. -/
def reverseOk (s : State) : Bool :=
  match s.vwc.view with
  | .off => !s.vsr.reverse && !s.vwc.manual
  | .exitHold => !s.vsr.reverse && !s.vwc.manual
  | _ => s.vwc.manual == !s.vsr.reverse

/-- How many camera buffers are in a state. -/
def bufCount (c : Cin) (b : BufState) : Nat :=
  (if c.buf0.st = b then 1 else 0) + (if c.buf1.st = b then 1 else 0) + (if c.buf2.st = b then 1 else 0)

/-- R28 to R30: a buffer is FILLING exactly while a frame is in progress and it is that frame's, and at most one buffer is READY
and at most one SHOWN. -/
def buffersOk (c : Cin) : Bool :=
  decide (bufCount c .ready ≤ 1) && decide (bufCount c .shown ≤ 1)
    && (match c.frame with
      | some f => decide (bufCount c .filling = 1) && (camBuf c f.buf).st == .filling && decide (f.buf < 3)
      | none => decide (bufCount c .filling = 0))

/-- R117: the five codes of an output lie in 0..192. -/
def codesOk (g : OutGains) : Bool :=
  decide (g.filmA ≤ 192) && decide (g.filmB ≤ 192) && decide (g.ui ≤ 192) && decide (g.chime ≤ 192) && decide (g.master ≤ 192)

/-- R117, R119: every code of the matrix and every effective gain lies in 0..192. -/
def gainsOk (m : Mix) : Bool :=
  codesOk m.matrix.cabin && codesOk m.matrix.headA && codesOk m.matrix.headB
    && codesOk m.effective.cabin && codesOk m.effective.headA && codesOk m.effective.headB

/-- R127 to R130: the chime queue holds at most 8 records, by class and then by priority, no definition is in it or playing twice, no
queued record is of a higher class than the playing chime, and the voice has a playing chime while the queue holds one. -/
def queueOk (c : Che) : Bool :=
  decide (c.queue.length ≤ 8)
    && decide (c.queue.Pairwise (fun a b =>
      classRank b.cls ≤ classRank a.cls ∧ (classRank b.cls = classRank a.cls → b.priority ≤ a.priority)))
    && decide (((c.playing.map (·.chime.num)).toList ++ c.queue.map (·.num)).Nodup)
    && match c.playing with
      | some p => c.queue.all (fun r => decide (classRank r.cls ≤ classRank p.chime.cls))
      | none => c.queue.isEmpty

/-- R146: the units of the system port are in distinct places of its 16. -/
def placesOk (f : Fen) : Bool := decide (placesUsed f).Nodup && (placesUsed f).all (fun n => decide (n < 16))

/-- R150: a unit in flight is in a place of the port, and is the only one of its channel whose data its owner has still to take. -/
def soleUnit (s : State) (place : Nat) (u : FetchUnit) : Prop :=
  placesOk s.fen = true ∧ unitAt s.fen place = some u ∧ u.phase = .inFlight ∧ s.fen.units.countP (isLiveOf u.chan) = 1

/-- R87: a scene without its FILM planes. -/
def withoutFilms (sc : Scene) : Scene :=
  { sc with slots := sc.slots.map (fun o => match o with
      | some q => if q.kind.film.isSome then none else some q
      | none => none) }

/-- Table 8-6: the row of a request that a record of a page carries. -/
def commandOf (r : RecordRef) : Request → Instr
  | .setPipeTiming p => .setPipeTiming r p
  | .pipeOff c => .pipeOff r c
  | .restartPipe c => .restartPipe r c
  | .setScene p => .setScene r p
  | .openStream p => .openStream r p
  | .queueFrame p => .queueFrame r p
  | .queueAudio p => .queueAudio r p
  | .flushStream c => .flushStream r c
  | .closeStream c => .closeStream r c
  | .viewRequest m => .viewRequest r m
  | .setViewPolicy p => .setViewPolicy r p
  | .cameraTest m => .cameraTest r m
  | .setMix p => .setMix r p
  | .defineChime p => .defineChime r p
  | .playChime n => .playChime r n
  | .cancelChime n => .cancelChime r n
  | .loadSound p => .loadSound r p
  | .playSound n => .playSound r n
  | .setNotice p => .setNotice r p
  | .writeSettings p => .writeSettings r p
  | .readSettings a => .readSettings r a

/-! ## Notices and answers -/

/-- A slot of the notice table holds after a step what it held before: count, time and details. -/
def slotKept (k : NoticeKind) (s t : State) : Prop :=
  (t.wai.slots[slotNumber k]?).map (fun x => (x.count, x.time, x.d0, x.d1))
    = (s.wai.slots[slotNumber k]?).map (fun x => (x.count, x.time, x.d0, x.d1))

/-- R180: a notice was raised once, with its two detail words: its slot, where it is enabled, counts one more and holds the cabin
time and the details; a slot that is not enabled holds what it held. -/
def noticeRaised (k : NoticeKind) (d0 d1 : Word) (s t : State) : Prop :=
  ∀ x, s.wai.slots[slotNumber k]? = some x →
    if x.enable then
      ∃ y, t.wai.slots[slotNumber k]? = some y ∧ y.count = x.count + 1 ∧ y.time = cabin t ∧ y.d0 = d0 ∧ y.d1 = d1
    else slotKept k s t

/-- R176: a record has its answer: the answer waits in the scan, or its 4-byte write stands on WORK's list, at the record's offset
plus 4 in its page. -/
def answered (r : RecordRef) (a : Answer) (t : State) : Prop :=
  (∃ final counted, ScanItem.answer r a.status a.count final counted ∈ t.wai.scanQueue)
    ∨ ∃ i ∈ t.fen.work, i.job = .write ∧ i.data = answerBytes a.status a.count
        ∧ i.chan = Channel.started [⟨pageAddr t r.page + r.off + 4, 4⟩] .write

/-- R174, R176: WAI can take a record: it is ATTACHED and the record's page is in the taken-page table. -/
def canTake (r : RecordRef) (s : State) : Bool := s.wai.st == .attached && s.wai.taken.any (·.isOf r)

/-- Whether an owner holds a long request for a record. -/
def held (r : RecordRef) (s : State) : Bool :=
  let is (o : Option LongReq) : Bool := match o with
    | some q => q.ref == some r
    | none => false
  let pipe (p : PipeId) : Bool := (pipeOf s p).restarts.any (fun q => is (some q))
  let film (st : StreamId) : Bool := is (filmOf s st).flush || is (filmOf s st).close
  pipe .centre || pipe .rearL || pipe .rearR || film .a || film .b || s.che.bank.any (fun e => is e.load)
    || is s.sto.writeReq || is s.sto.readReq

/-- R177: a final status was given to a long request: it waits in the answer queue, or in the scan in place of the PENDING answer, or its
write stands on WORK's list. -/
def finalGiven (r : RecordRef) (st : Status) (t : State) : Prop :=
  QueuedAnswer.final r st ∈ t.wai.answers
    ∨ (∃ n counted, ScanItem.answer r st n true counted ∈ t.wai.scanQueue)
    ∨ ∃ n, ∃ i ∈ t.fen.work, i.job = .write ∧ i.data = answerBytes st n
        ∧ i.chan = Channel.started [⟨pageAddr t r.page + r.off + 4, 4⟩] .write

/-! ## The line of a frame, and what an event of the vehicle brings -/

/-- Table 10-12: the line of a MOTION frame after a preamble of `ones` ones. -/
def motionLine (ones : Nat) (seq : BitVec 4) (gear flags : Byte) (speed steer : Half) : List Bool :=
  vslLine ones (vslHeader .motion seq)
    [gear, speed.extractLsb' 8 8, speed.extractLsb' 0 8, steer.extractLsb' 8 8, steer.extractLsb' 0 8, flags]

/-- R14: the two sources of REVERSE disagree, in either form. -/
def disagrees (v : Vsr) : Prop :=
  v.motionFresh.st = .valid ∧ ((v.debRev = true ∧ v.motion.gear ≠ .r) ∨ (v.debRev = false ∧ v.motion.gear = .r))

/-- R14: disagreement was evaluated at an event: an episode begins and starts its timer of 500 ms, goes on with what its timer holds, or ends
and stops it. -/
def episodeTaken (s t : State) : Prop :=
  (disagrees t.vsr → t.vsr.episode = true ∧
    t.vsr.disTimer = (if s.vsr.episode then s.vsr.disTimer else some (now t + 500000))) ∧
  (¬ disagrees t.vsr → t.vsr.episode = false ∧
    t.vsr.disTimer = (if s.vsr.episode then none else s.vsr.disTimer))

/-! ## What an event brings to the chime voice -/

/-- R130: CHIME_DROPPED was raised once, about a record, with its cause. -/
def droppedNotice (r : ChimeRec) (cause : Nat) (s t : State) : Prop :=
  noticeRaised .chimeDropped (BitVec.ofNat 32 (r.num + (if r.origin = .request then 0 else 256) + 65536 * cause)) r.arrival s t

/-- R128 to R130: an arrival of INTERNAL origin: it renews the repeats of a chime that plays or waits; and else its record, with the next
arrival number, plays at once on a free voice, preempts a chime of a lower class, which goes back to the queue, or takes its place in the
queue; and an EMPTY entry brings nothing. A full queue drops its lowest-ranked record (cause 1), the new one (cause 2), or the preempted
one (cause 3). -/
def internalArrival (n : Nat) (s t : State) : Prop :=
  match defOf s.che n with
  | none => t.che.playing = s.che.playing ∧ t.che.queue = s.che.queue ∧ t.che.tail = s.che.tail ∧ t.che.counter = s.che.counter
  | some d =>
    let rep := if d.repeats = 0 then none else some d.repeats
    let record : ChimeRec := ⟨n, d.cls, d.priority, rep, s.che.counter, .internal⟩
    (isPlaying s.che n = true →
      t.che.playing = s.che.playing.map (fun p => { p with chime := { p.chime with remaining := rep } }) ∧
      t.che.queue = s.che.queue ∧ t.che.tail = s.che.tail ∧ t.che.counter = s.che.counter) ∧
    (isPlaying s.che n = false → isQueued s.che n = true →
      t.che.queue = s.che.queue.map (fun q => if q.num = n then { q with remaining := rep } else q) ∧
      t.che.playing = s.che.playing ∧ t.che.tail = s.che.tail ∧ t.che.counter = s.che.counter) ∧
    (inUse s.che n = false →
      t.che.counter = (if s.che.counter = 0xFFFFFFFF then 1 else s.che.counter + 1) ∧
      (s.che.playing = none → s.che.queue = [] →
        t.che.playing = some ⟨record, 0, 0, 0, 0, false, none, none⟩ ∧ t.che.queue = [] ∧ t.che.tail = s.che.tail) ∧
      (∀ p, s.che.playing = some p →
        (classRank p.chime.cls < classRank d.cls →
          t.che.playing = some ⟨record, 0, 0, 0, 0, false, none, none⟩ ∧ t.che.tail = tailOf s.che ∧
          (s.che.queue.length < 8 → t.che.queue = insertRec p.chime s.che.queue) ∧
          (∀ qs low, s.che.queue = qs ++ [low] → 8 ≤ s.che.queue.length →
            if outranks p.chime low then t.che.queue = insertRec p.chime qs ∧ droppedNotice low 1 s t
            else t.che.queue = s.che.queue ∧ droppedNotice p.chime 3 s t)) ∧
        (classRank d.cls ≤ classRank p.chime.cls →
          t.che.playing = s.che.playing ∧ t.che.tail = s.che.tail ∧
          (s.che.queue.length < 8 → t.che.queue = insertRec record s.che.queue) ∧
          (∀ qs low, s.che.queue = qs ++ [low] → 8 ≤ s.che.queue.length →
            if outranks record low then t.che.queue = insertRec record qs ∧ droppedNotice low 1 s t
            else t.che.queue = s.che.queue ∧ droppedNotice record 2 s t))))

/-- R135: the cadence condition: PARK_ASSIST is VALID and the nearest distance is below 150, while REVERSE is true. -/
def cadenceHolds (reverse : Bool) (v : Vsr) : Prop :=
  reverse = true ∧ v.parkFresh.st = .valid ∧ ∃ d, nearest v.park = some d ∧ d < 150

/-- R135: the cadence condition became false: definition 1 stops with a release tail, and the next entry plays, or it leaves the queue; no
notice is raised. -/
def cadenceStopped (s t : State) : Prop :=
  t.che.cadence = false ∧ slotKept .chimeFinished s t ∧ slotKept .chimeDropped s t ∧
  (isPlaying s.che 1 = true → t.che.tail = tailOf s.che ∧
    match s.che.queue with
    | [] => t.che.playing = none ∧ t.che.queue = []
    | q :: rest => t.che.playing = some ⟨q, 0, 0, 0, 0, false, none, none⟩ ∧ t.che.queue = rest) ∧
  (isPlaying s.che 1 = false → t.che.playing = s.che.playing ∧ t.che.tail = s.che.tail ∧ t.mix = s.mix ∧
    t.che.queue = s.che.queue.filter (fun q => q.num ≠ 1))

/-- R121, R122: the playing chime of `s` gave way to that of `t`. One of a duck depth above 0 sets the duck and stops its hold timer; any
other, and none, starts the 300 ms of a duck that is not running out already; and one of class SAFETY lowers the effective gain of CHIME on
CABIN to its target (R118) at once. -/
def voiceChanged (s t : State) : Prop :=
  let depth := match t.che.playing with
    | none => 0
    | some p => match defOf s.che p.chime.num with
      | none => 0
      | some d => d.duck
  let floor := if s.smn.low then 24 else min s.mix.matrix.cabin.chime 24
  (0 < depth → t.mix.duck = depth ∧ t.mix.duckTimer = none) ∧
  (depth = 0 → t.mix.duck = s.mix.duck ∧
    t.mix.duckTimer = (if 0 < s.mix.duck ∧ s.mix.duckTimer = none then some (now t + 300000) else s.mix.duckTimer)) ∧
  t.mix.matrix = s.mix.matrix ∧
  ∀ o : OutputId, t.mix.effective.get o = { s.mix.effective.get o with
    chime := if o = .cabin ∧ safetyPlaying t = true then min (s.mix.effective.get o).chime floor
      else (s.mix.effective.get o).chime }

/-- R123: CHE took definitions 0 to 2 of the new running settings: at once where the entry is neither queued nor playing, and else it holds
them and the entry keeps its values. -/
def definitionsTaken (s t : State) : Prop :=
  s.che.defs.length = 16 → s.che.waiting.length = 3 →
    t.che.playing = s.che.playing ∧ t.che.queue = s.che.queue ∧
    (∀ n, 3 ≤ n → defOf t.che n = defOf s.che n) ∧ (∃ a b c, t.sto.running.chimes = [a, b, c]) ∧
    ∀ n d, t.sto.running.chimes[n]? = some d →
      (n = 1 → d.cls = .safety ∧ d.repeats = 0) ∧
      (inUse s.che n = false → defOf t.che n = some d ∧ nth t.che.waiting n none = none) ∧
      (inUse s.che n = true → defOf t.che n = defOf s.che n ∧ nth t.che.waiting n none = some d)

/-! ## Lines of the camera -/

/-- R23: what local memory holds once what CAM_WR has still to write of a camera line is written; where CAM_WR is idle, what it held. -/
def flushedMemory (s : State) : Memory :=
  if s.fen.camWr.st = .idle then s.localMem
  else Memory.writeBytes localSize s.localMem s.fen.camWr.nextAddress s.fen.camData

/-! ## Faults of a camera frame -/

/-- Table 2-2: the command that shows a fault of the frame `f` in progress on the port, with its cause; a second FRAME_START (CUT)
apart. That a FRAME_END inside a line is CODE_ORDER and not LINE_COUNT is the model's choice (log entry 54). -/
inductive CameraFault (f : CamFrame) : Instr → FaultCause → Prop where
  | shortLine (bs : List Byte) (h : f.store = some bs) (n : bs.length < 2 * f.w) : CameraFault f .lineEnd .lineLength
  | longLine (b : Byte) (bs : List Byte) (h : f.store = some bs) (n : 2 * f.w ≤ bs.length) :
      CameraFault f (.pixelByte b) .lineLength
  | extraLine (h : f.store = none) (n : f.h ≤ f.lines) : CameraFault f .lineStart .lineCount
  | missingLine (h : f.store = none) (n : f.lines < f.h) : CameraFault f .frameEnd .lineCount
  | badCode (code : Byte) : CameraFault f (.invalidCode code) .badCode
  | startInLine (bs : List Byte) (h : f.store = some bs) : CameraFault f .lineStart .codeOrder
  | endOutsideLine (h : f.store = none) : CameraFault f .lineEnd .codeOrder
  | byteOutsideLine (b : Byte) (h : f.store = none) : CameraFault f (.pixelByte b) .codeOrder
  | frameEndInLine (bs : List Byte) (h : f.store = some bs) : CameraFault f .frameEnd .codeOrder

/-- R21: a frame is in progress on the camera port. -/
def onPort (s : State) (f : CamFrame) : Prop := s.cin.source = .port ∧ s.cin.frame = some f ∧ f.ended = false

end Sys2Proof.Machine
end

