-- ==== Sys2Proof/Certificates/Slice0/Obligations.lean ====
section
/-! DEFINITION. The statements for the provers, chapter by chapter of the spec. Where a statement says `t.clockNs = max s.clockNs …`, it is
the rule that fixes the instant of the event, and the model's choice that the clock of a state that stands later already is not
set back (log entry 1). -/

open Sys2Proof Sys2Proof.Machine

/-! ## The machine -/

/-- A step takes the command at the front of the queue and runs it on the state with the rest of the queue. On an empty queue it lets one
microsecond of cabin time pass and changes nothing else, which is the model's choice (log entry 1). -/
def Obligations.StepTakesTheFrontCommand : Prop :=
  (∀ (c : Instr) (rest : List Instr) (s : State),
    step { s with pending := c :: rest } = exec c { s with pending := rest }) ∧
  (∀ s : State, s.pending = [] → step s = .next { s with clockNs := s.clockNs + 1000 } ∧
    cabin { s with clockNs := s.clockNs + 1000 } = cabin s + 1)

/-- Every command runs to a next state from every state, and leaves the queue of the commands that wait as it is. That no command stops,
and a free value in place of what the spec leaves open, is the model's choice (log entry 2), and so is that power-on reset keeps the queue
(log entry 4). R202: no command but power-on reset sets cabin time back. -/
def Obligations.EveryCommandCompletes : Prop :=
  ∀ (c : Instr) (s : State), ∃ t, exec c s = .next t ∧ t.pending = s.pending ∧
    ((∀ rev, c ≠ .powerOnReset rev) → s.clockNs ≤ t.clockNs)

/-- The conditions that the statements `StepKeeps…` and `QueueStaysInRankOrder` carry over a step hold right after power-on reset: of the
memories, the vehicle, the view, the camera buffers, the gain codes, the places of the system port, the chime queue, and the view against
REVERSE. -/
def Obligations.InvariantsHoldAtReset : Prop :=
  State.reset.memOk = true ∧ vehicleOk State.reset.vsr = true ∧ viewOk State.reset.vwc = true ∧ buffersOk State.reset.cin = true ∧
    gainsOk State.reset.mix = true ∧ placesOk State.reset.fen = true ∧ queueOk State.reset.che = true ∧
    reverseOk State.reset = true

/-- Every step keeps both memories in their canonical form and in their address spaces (3.1: 64 MiB and 2^64 bytes); and R146: every step
keeps the units of the system port in distinct places of its 16. -/
def Obligations.StepKeepsMemoriesCanonical : Prop :=
  (∀ s t : State, s.memOk = true → step s = .next t → t.memOk = true) ∧
  (∀ s t : State, placesOk s.fen = true → step s = .next t → placesOk t.fen = true)

/-- A command changes only the parts of the machine that its rules name: any other part is after it what it was before. `mayTouch` lists the
parts, command by command. Of the rows whose list names a memory (`localMem`, `sysMem`) it says nothing of that memory: which bytes
a system grant and a local completion write stands in `SystemPortGrantsOneUnit` and `LocalPortMovesOneUnit`, and which bytes of local memory
a FRAME_START, a LINE_END and the two ends of a generated frame write in `FrameStartsAndTheirDeadline`, `CameraLinesAreCaptured` and
`TestModeGeneratesFrames`; every other row leaves every byte of both memories as it was. That power-on reset keeps both memories and the
queue is the model's choice (log entry 4). -/
def Obligations.EveryCommandTouchesOnlyItsParts : Prop :=
  ∀ (c : Instr) (s t : State), exec c s = .next t → OnlyTouches (mayTouch c) s t

/-! ## Chapter 1: vehicle signals and supply watch -/

/-- R18, with Tables 1-4 and 2-7 and the reset values of the other chapters: power-on reset, whatever the state it finds.
That the commands waiting and the bytes of both memories are kept is the model's choice (log entry 4). -/
def Obligations.PowerOnResetValues : Prop :=
  ∀ (rev : Bool) (s : State), ∃ t, exec (.powerOnReset rev) s = .next t ∧
    t.clockNs = 0 ∧
    t.vsr.rx = .hunt 0 ∧ t.vsr.errors = ⟨0, 0, 0, 0, 0⟩ ∧
    t.vsr.motion = ⟨.unknown, 0, 0, false, false, 0, 0⟩ ∧ t.vsr.park = ⟨255, 255, 255, 255, 0, 0⟩ ∧
    t.vsr.motionFresh = ⟨.none, 1, 0, 0, none⟩ ∧ t.vsr.parkFresh = ⟨.none, 1, 0, 0, none⟩ ∧
    t.vsr.debRev = false ∧ t.vsr.hold = (if rev then some 40000 else none) ∧
    t.vsr.reverse = false ∧ t.vsr.parked = false ∧ t.vsr.episode = false ∧ t.vsr.disTimer = none ∧
    t.smn.low = false ∧ t.smn.lowRun = 0 ∧ t.smn.highRun = 0 ∧ t.smn.entry = 0 ∧
    t.cin.source = .port ∧ t.cin.stream = .absent ∧ t.cin.deadline = none ∧ bufCount t.cin .free = 3 ∧
    t.cin.frozen = false ∧ t.cin.good = 0 ∧ t.cin.malformed = 0 ∧ t.cin.lastFault = none ∧
    t.vwc.view = .off ∧ t.vwc.manual = false ∧ t.glg.mode = .none ∧
    (∀ p, (pipeOf t p).st = .off ∧ (pipeOf t p).timing = none ∧ (pipeOf t p).active = ⟨0xFF000000, []⟩ ∧
      (pipeOf t p).pendingScene = none) ∧
    (∀ st, (filmOf t st).st = .closed) ∧
    t.mix.effective = t.mix.matrix ∧ t.mix.duck = 0 ∧
    t.che.playing = none ∧ t.che.queue = [] ∧ t.che.counter = 1 ∧ t.che.free.length = 256 ∧ t.che.ui = none ∧
    t.fen.work = [] ∧ t.fen.bulk = [] ∧ t.fen.units = [] ∧ t.fen.window = none ∧
    t.wai.st = .detached ∧ t.wai.wbase = 0 ∧ t.wai.counter = 0 ∧
    (∀ x ∈ t.wai.slots, x.count = 0 ∧ x.enable = true ∧ x.mask = true) ∧
    t.sto.source = .loading ∧ t.sto.running = defaultSettings ∧ t.sto.writePhase = .idle ∧ t.sto.readPhase = .idle ∧
    t.localMem = s.localMem ∧ t.sysMem = s.sysMem

/-- R16, whole: the sampling times, the levels of the two sense lines, and Table 1-7; with the notice of R17 at a change. -/
def Obligations.SupplySamplesMoveTheSupplyState : Prop :=
  (State.reset.smn.low = false ∧ State.reset.smn.lowRun = 0 ∧ State.reset.smn.highRun = 0 ∧ State.reset.smn.nextSample = 2000) ∧
  ∀ (lo hi : Bool) (s : State), ∃ t, exec (.supplySample lo hi) s = .next t ∧
    (s.clockNs ≤ s.smn.nextSample * 1000 → t.clockNs = s.smn.nextSample * 1000) ∧ t.smn.nextSample = s.smn.nextSample + 2000 ∧
    (let level0 := !lo && !hi
     let level2 := lo && hi
     let lowRun := if level0 then min (s.smn.lowRun + 1) 4 else 0
     let highRun := if level2 then min (s.smn.highRun + 1) 4 else 0
     if (if s.smn.low then highRun = 4 else lowRun = 4) then
       t.smn.low = !s.smn.low ∧ t.smn.lowRun = 0 ∧ t.smn.highRun = 0 ∧ t.smn.entry = now t ∧
       noticeRaised .supplyChange (if s.smn.low then 0 else 1)
         (BitVec.ofNat 32 (min ((now t - s.smn.entry) / 1000) 0xFFFFFFFF)) s t
     else
       t.smn.low = s.smn.low ∧ t.smn.lowRun = lowRun ∧ t.smn.highRun = highRun ∧ t.smn.entry = s.smn.entry ∧
       slotKept .supplyChange s t)

/-- R12, whole: the raw edges, the 40 ms hold timer, its running out, and the values after power-on reset. -/
def Obligations.ReverseLineIsDebounced : Prop :=
  (∀ (level : Bool) (s : State), ∃ t, exec (.revInEdge level) s = .next t ∧
    t.vsr.rawRev = level ∧ t.vsr.debRev = s.vsr.debRev ∧
    t.vsr.hold = (if level = s.vsr.rawRev then s.vsr.hold else if level = s.vsr.debRev then none else some (now s + 40000))) ∧
  (∀ (s : State) (due : Nat), s.vsr.hold = some due → ∃ t, exec .holdTimer s = .next t ∧
    (s.clockNs ≤ due * 1000 → t.clockNs = due * 1000) ∧ t.vsr.hold = none ∧ t.vsr.debRev = s.vsr.rawRev ∧ t.vsr.rawRev = s.vsr.rawRev) ∧
  (∀ (rev : Bool) (s : State), ∃ t, exec (.powerOnReset rev) s = .next t ∧
    t.vsr.rawRev = rev ∧ t.vsr.debRev = false ∧ t.vsr.hold = (if rev then some 40000 else none))

/-- R13: at the end of the hold, and where MOTION becomes STALE, REVERSE is the OR of the two sources. Where it changes, either way, one
REVERSE_CHANGE is raised with the new value and the two sources; where it does not, none, and the end of the hold hands nothing on. The
third clause says so of the evaluation that every event of the two sources runs, from every state. R14: at the end of the hold, where
MOTION becomes STALE, and at a good MOTION frame an episode begins and starts the disagreement timer of 500 ms, or goes on, or ends and
stops it, and the same of the evaluation itself, from every state. The disagreement timer runs out: one notice, with the form and the
gear, while the sources disagree; the episode goes on. -/
def Obligations.HoldAndDisagreementTimersAct : Prop :=
  (∀ (s : State) (due : Nat), s.vsr.hold = some due → ∃ t, exec .holdTimer s = .next t ∧
    t.vsr.reverse = (s.vsr.rawRev || (s.vsr.motionFresh.st == .valid && s.vsr.motion.gear == .r)) ∧
    (t.vsr.reverse = s.vsr.reverse →
      OnlyTouches [.clock, .vsr, .fen, .wai] s t ∧ slotKept .reverseChange s t) ∧
    t.vsr.debRev = s.vsr.rawRev ∧ t.vsr.motion = s.vsr.motion ∧ t.vsr.motionFresh = s.vsr.motionFresh ∧ episodeTaken s t ∧
    (t.vsr.reverse ≠ s.vsr.reverse →
      noticeRaised .reverseChange (if t.vsr.reverse then 1 else 0)
        (BitVec.ofNat 32 ((if s.vsr.rawRev then 1 else 0)
          + (if s.vsr.motionFresh.st = .valid ∧ s.vsr.motion.gear = .r then 2 else 0))) s t)) ∧
  (∀ (s : State) (due : Nat), s.vsr.motionFresh.deadline = some due → ∃ t, exec (.freshnessDeadline .motion) s = .next t ∧
    t.vsr.reverse = s.vsr.debRev ∧ ¬ disagrees t.vsr ∧ episodeTaken s t ∧
    (if t.vsr.reverse = s.vsr.reverse then slotKept .reverseChange s t
    else noticeRaised .reverseChange (if t.vsr.reverse then 1 else 0) (if s.vsr.debRev then 1 else 0) s t)) ∧
  (∀ s : State,
    (evalReverse s).vsr.reverse = (s.vsr.debRev || (s.vsr.motionFresh.st == .valid && s.vsr.motion.gear == .r)) ∧
    ((evalReverse s).vsr.reverse = s.vsr.reverse → evalReverse s = s) ∧
    ((evalReverse s).vsr.reverse ≠ s.vsr.reverse →
      noticeRaised .reverseChange (if (evalReverse s).vsr.reverse then 1 else 0)
        (BitVec.ofNat 32 ((if s.vsr.debRev then 1 else 0)
          + (if s.vsr.motionFresh.st = .valid ∧ s.vsr.motion.gear = .r then 2 else 0))) s (evalReverse s))) ∧
  (∀ s : State,
    (disagrees s.vsr → s.vsr.episode = false →
      evalDisagreement s = { s with vsr := { s.vsr with episode := true, disTimer := some (now s + 500000) } }) ∧
    (¬ disagrees s.vsr → s.vsr.episode = true →
      evalDisagreement s = { s with vsr := { s.vsr with episode := false, disTimer := none } }) ∧
    ((disagrees s.vsr ↔ s.vsr.episode = true) → evalDisagreement s = s)) ∧
  (∀ (s : State) (run ones : Nat) (seq : BitVec 4) (gear flags : Byte) (speed steer : Half), s.vsr.rx = .hunt run → 8 ≤ ones →
    ∃ t, exec (.motionFrame (motionLine ones seq gear flags speed steer)) s = .next t ∧ t.vsr.debRev = s.vsr.debRev ∧
      (t.vsr.motion.gear = .r ↔ gear = 1) ∧
      t.vsr.reverse = (s.vsr.debRev || (t.vsr.motionFresh.st == .valid && t.vsr.motion.gear == .r)) ∧ episodeTaken s t) ∧
  (∀ (s : State) (due : Nat), s.vsr.disTimer = some due → ∃ t, exec .disagreementTimer s = .next t ∧
    t.vsr = { s.vsr with disTimer := none } ∧ t.clockNs = max s.clockNs (due * 1000) ∧
    (if s.vsr.motionFresh.st = .valid ∧ s.vsr.debRev = true ∧ s.vsr.motion.gear ≠ .r then
       noticeRaised .reverseDisagree 1 (BitVec.ofNat 32 (gearCode s.vsr.motion.gear)) s t
     else if s.vsr.motionFresh.st = .valid ∧ s.vsr.debRev = false ∧ s.vsr.motion.gear = .r then
       noticeRaised .reverseDisagree 2 1 s t
     else slotKept .reverseDisagree s t))

/-- R2, R3, R4, R7: each frame error of Table 1-2 but RANGE, at the bit that shows it, is counted and notified with its header byte where
one was received, and nothing else of VSR but the reception state changes. In SKIP the 1 after five ones is the line at rest: the
receiver hunts again with six ones seen, and no error is counted. -/
def Obligations.FrameErrorsAndRestAreTaken : Prop :=
  (∀ s : State,
    -- a preamble of 1 to 7 ones
    (∀ run, s.vsr.rx = .hunt (run + 1) → run < 7 → ∃ t, exec (.frameError [false]) s = .next t ∧
      t.vsr = { s.vsr with rx := .hunt 0, errors := { s.vsr.errors with badStart := s.vsr.errors.badStart + 1 } } ∧
      noticeRaised .vslFrameError 1 0xFFFFFFFF s t) ∧
    -- a wrong second bit of the start pattern, and a wrong third one
    (s.vsr.rx = .start false → ∃ t, exec (.frameError [false]) s = .next t ∧
      t.vsr = { s.vsr with rx := .hunt 0, errors := { s.vsr.errors with badStart := s.vsr.errors.badStart + 1 } } ∧
      noticeRaised .vslFrameError 1 0xFFFFFFFF s t) ∧
    (s.vsr.rx = .start true → ∃ t, exec (.frameError [true]) s = .next t ∧
      t.vsr = { s.vsr with rx := .hunt 1, errors := { s.vsr.errors with badStart := s.vsr.errors.badStart + 1 } } ∧
      noticeRaised .vslFrameError 1 0xFFFFFFFF s t) ∧
    -- the line at rest inside the header, and inside the payload
    (∀ got crc, s.vsr.rx = .header got crc 5 → ∃ t, exec (.frameError [true]) s = .next t ∧
      t.vsr = { s.vsr with rx := .hunt 6, errors := { s.vsr.errors with shortFrame := s.vsr.errors.shortFrame + 1 } } ∧
      noticeRaised .vslFrameError 2 0xFFFFFFFF s t) ∧
    (∀ hdr need got crc, s.vsr.rx = .payload hdr need got crc 5 → ∃ t, exec (.frameError [true]) s = .next t ∧
      t.vsr = { s.vsr with rx := .hunt 6, errors := { s.vsr.errors with shortFrame := s.vsr.errors.shortFrame + 1 } } ∧
      noticeRaised .vslFrameError 2 (hdr.setWidth 32) s t) ∧
    -- a check byte that differs from the register
    (∀ hdr need got crc ins b, s.vsr.rx = .payload hdr need got crc ins → ins < 5 → got.length = need + 7 →
      bitsByte (got.drop need ++ [b]) ≠ crc → ∃ t, exec (.frameError [b]) s = .next t ∧
      t.vsr = { s.vsr with rx := .hunt 0, errors := { s.vsr.errors with badCheck := s.vsr.errors.badCheck + 1 } } ∧
      noticeRaised .vslFrameError 3 (hdr.setWidth 32) s t) ∧
    -- a header of a kind other than 1 and 2
    (∀ got crc ins b, s.vsr.rx = .header got crc ins → ins < 5 → got.length = 7 →
      (bitsByte (got ++ [b])).toNat / 16 ≠ 1 → (bitsByte (got ++ [b])).toNat / 16 ≠ 2 → ∃ t,
      exec (.frameError [b]) s = .next t ∧
      t.vsr = { s.vsr with rx := .skip (if b then ins + 1 else 0),
                           errors := { s.vsr.errors with unknownKind := s.vsr.errors.unknownKind + 1 } } ∧
      noticeRaised .vslFrameError 4 ((bitsByte (got ++ [b])).setWidth 32) s t)) ∧
  (∀ (ins : Nat) (s : State), s.vsr.rx = .skip ins → ins ≤ 5 →
    ∃ t, exec (.returnToRest (List.replicate (6 - ins) true)) s = .next t ∧ t.vsr = { s.vsr with rx := .hunt 6 } ∧
      slotKept .vslFrameError s t ∧ OnlyTouches [.vsr, .fen, .wai] s t)

/-- R1 to R5 and R8: a MOTION frame as the gateway sends it (Table 10-12), after any preamble of eight ones or more and with zero
insertion, is decoded: the vehicle state record takes its fields with the clamps of R5, a clamp is one RANGE error, and the
freshness of MOTION moves as in Table 1-3. -/
def Obligations.MotionFrameIsDecoded : Prop :=
  ∀ (s : State) (run ones : Nat) (seq : BitVec 4) (gear flags : Byte) (speed steer : Half),
    s.vsr.rx = .hunt run → 8 ≤ ones →
    ∃ t, exec (.motionFrame (vslLine ones (vslHeader .motion seq)
        [gear, speed.extractLsb' 8 8, speed.extractLsb' 0 8, steer.extractLsb' 8 8, steer.extractLsb' 0 8, flags])) s = .next t ∧
      t.vsr.rx = .hunt 0 ∧
      t.vsr.motion =
        { gear := if gear = 0 then .p else if gear = 1 then .r else if gear = 2 then .n else if gear = 3 then .d else .unknown
          speed := min speed.toNat 30000
          steering := max (-7800) (min steer.toInt 7800)
          speedValid := flags.getLsbD 7
          steeringValid := flags.getLsbD 6
          seq := seq
          arrival := cabin s } ∧
      t.vsr.errors = (if gear.toNat < 5 ∧ speed.toNat ≤ 30000 ∧ -7800 ≤ steer.toInt ∧ steer.toInt ≤ 7800 then s.vsr.errors
        else { s.vsr.errors with range := s.vsr.errors.range + 1 }) ∧
      t.vsr.park = s.vsr.park ∧ t.vsr.parkFresh = s.vsr.parkFresh ∧
      t.vsr.motionFresh.lastSeq = seq ∧ t.vsr.motionFresh.deadline = some (now s + 100000) ∧
      (match s.vsr.motionFresh.st with
        | .valid => t.vsr.motionFresh.st = .valid ∧
            t.vsr.motionFresh.breaks = s.vsr.motionFresh.breaks + (if seq = s.vsr.motionFresh.lastSeq + 1 then 0 else 1)
        | .acquiring => t.vsr.motionFresh.breaks = s.vsr.motionFresh.breaks ∧
            (if seq = s.vsr.motionFresh.lastSeq + 1 then
              t.vsr.motionFresh.run = min (s.vsr.motionFresh.run + 1) 3 ∧
              t.vsr.motionFresh.st = (if s.vsr.motionFresh.run + 1 < 3 then .acquiring else .valid)
            else t.vsr.motionFresh.run = 1 ∧ t.vsr.motionFresh.st = .acquiring)
        | _ => t.vsr.motionFresh.breaks = s.vsr.motionFresh.breaks ∧ t.vsr.motionFresh.st = .acquiring ∧
            t.vsr.motionFresh.run = 1)

/-- R1 to R4, R6 and R8: the same of a PARK_ASSIST frame, whose four distances are the record's, and which gives no error. -/
def Obligations.ParkAssistFrameIsDecoded : Prop :=
  ∀ (s : State) (run ones : Nat) (seq : BitVec 4) (a b c d : Byte), s.vsr.rx = .hunt run → 8 ≤ ones →
    ∃ t, exec (.parkAssistFrame (vslLine ones (vslHeader .parkAssist seq) [a, b, c, d])) s = .next t ∧
      t.vsr.rx = .hunt 0 ∧ t.vsr.park = ⟨a, b, c, d, seq, cabin s⟩ ∧ t.vsr.errors = s.vsr.errors ∧
      t.vsr.motion = s.vsr.motion ∧ t.vsr.motionFresh = s.vsr.motionFresh ∧
      t.vsr.parkFresh.lastSeq = seq ∧ t.vsr.parkFresh.deadline = some (now s + 250000) ∧
      (match s.vsr.parkFresh.st with
        | .valid => t.vsr.parkFresh.st = .valid ∧
            t.vsr.parkFresh.breaks = s.vsr.parkFresh.breaks + (if seq = s.vsr.parkFresh.lastSeq + 1 then 0 else 1)
        | .acquiring => t.vsr.parkFresh.breaks = s.vsr.parkFresh.breaks ∧
            (if seq = s.vsr.parkFresh.lastSeq + 1 then
              t.vsr.parkFresh.run = min (s.vsr.parkFresh.run + 1) 3 ∧
              t.vsr.parkFresh.st = (if s.vsr.parkFresh.run + 1 < 3 then .acquiring else .valid)
            else t.vsr.parkFresh.run = 1 ∧ t.vsr.parkFresh.st = .acquiring)
        | _ => t.vsr.parkFresh.breaks = s.vsr.parkFresh.breaks ∧ t.vsr.parkFresh.st = .acquiring ∧
            t.vsr.parkFresh.run = 1) ∧
      t.vsr.reverse = s.vsr.reverse ∧ t.vsr.parked = s.vsr.parked

/-- R9: a freshness deadline passes: the kind is STALE with no deadline, the record's values are kept, and REVERSE and PARKED lose
what MOTION gave them. -/
def Obligations.FreshnessDeadlineMakesStale : Prop :=
  (∀ (s : State) (due : Nat), s.vsr.motionFresh.deadline = some due → ∃ t, exec (.freshnessDeadline .motion) s = .next t ∧
    t.clockNs = max s.clockNs (due * 1000) ∧
    t.vsr.motionFresh.st = .stale ∧ t.vsr.motionFresh.deadline = none ∧ t.vsr.motionFresh.lastSeq = s.vsr.motionFresh.lastSeq ∧
    t.vsr.motion = s.vsr.motion ∧ t.vsr.park = s.vsr.park ∧ t.vsr.parkFresh = s.vsr.parkFresh ∧
    t.vsr.reverse = s.vsr.debRev ∧ t.vsr.parked = false ∧ t.vsr.episode = false) ∧
  (∀ (s : State) (due : Nat), s.vsr.parkFresh.deadline = some due → ∃ t, exec (.freshnessDeadline .parkAssist) s = .next t ∧
    t.clockNs = max s.clockNs (due * 1000) ∧
    t.vsr.parkFresh.st = .stale ∧ t.vsr.parkFresh.deadline = none ∧ t.vsr.park = s.vsr.park ∧
    t.vsr.motion = s.vsr.motion ∧ t.vsr.motionFresh = s.vsr.motionFresh ∧ t.vsr.reverse = s.vsr.reverse)

/-- R13 to R15: after every step REVERSE is the OR of its two sources, PARKED its four conditions, and an episode is in progress
exactly while the sources disagree. -/
def Obligations.StepKeepsVehicleConditions : Prop :=
  ∀ s t : State, vehicleOk s.vsr = true → step s = .next t → vehicleOk t.vsr = true

/-! ## Chapter 2: camera input -/

/-- R22, R24, R26, R28: a FRAME_START on the port takes the lowest-numbered FREE buffer for a frame of the size and mirror flag of the
running settings, renews the deadline and, in ABSENT and LOST, starts an acquisition; one that finds a frame in progress ends that
frame CUT first (R21). With the source TEST it is passed over (R33). Of local memory a FRAME_START writes what CAM_WR has still to write of a
line, and nothing else, and where that line is the last one of an ended frame, the frame's good end comes first; that the line is written
then is the model's choice (log entry 17). The deadline passes: the stream is LOST with no deadline, a frame in progress is abandoned and
not counted, and where the stream was LOCKED, FROZEN is cleared with its notice (R31, R32) and a LIVE view loses its picture (R47). -/
def Obligations.FrameStartsAndTheirDeadline : Prop :=
  (∀ (s : State) (i : Nat), s.cin.source = .port → s.cin.frame = none →
    i < 3 → (camBuf s.cin i).st = .free → (∀ j < i, (camBuf s.cin j).st ≠ .free) →
    ∃ t, exec .frameStart s = .next t ∧
      t.cin.frame = some ⟨i, s.sto.running.camW / 2 * 2, s.sto.running.camH, s.sto.running.mirror, 0, none, 0, false⟩ ∧
      (camBuf t.cin i).st = .filling ∧ (∀ j < 3, j ≠ i → camBuf t.cin j = camBuf s.cin j) ∧
      t.cin.deadline = some (now s + 100000) ∧ t.cin.good = s.cin.good ∧ t.cin.malformed = s.cin.malformed ∧
      (if s.cin.stream = .absent ∨ s.cin.stream = .lost then
        t.cin.stream = .acquiring ∧ t.cin.goodRun = 0 ∧
          noticeRaised .cameraLockChange (BitVec.ofNat 32 (1 + 256 * camStreamCode s.cin.stream)) 1 s t
      else t.cin.stream = s.cin.stream ∧ t.cin.goodRun = s.cin.goodRun ∧ slotKept .cameraLockChange s t)) ∧
  (∀ (s : State) (f : CamFrame), onPort s f → ∃ t, exec .frameStart s = .next t ∧
      t.cin.malformed = s.cin.malformed + 1 ∧ t.cin.lastFault = some .cut ∧
      ∃ g, t.cin.frame = some g ∧ g.lines = 0 ∧ g.store = none ∧ g.ended = false) ∧
  (∀ s : State, s.cin.source = .test → exec .frameStart s = .next s) ∧
  (∀ s : State, s.cin.source = .port → ∃ t, exec .frameStart s = .next t ∧ t.localMem = flushedMemory s ∧
    t.fen.camWr = (if s.fen.camWr.st = .idle then s.fen.camWr else idleChannel) ∧
    (∀ f, s.cin.frame = some f → f.ended = true → s.fen.camWr.st ≠ .idle →
      t.cin.good = s.cin.good + 1 ∧ t.cin.malformed = s.cin.malformed ∧ t.cin.capW = f.w ∧ t.cin.capH = f.h)) ∧
  (∀ (s : State) (due : Nat), s.cin.deadline = some due → ∃ t, exec .frameStartDeadline s = .next t ∧
    t.clockNs = max s.clockNs (due * 1000) ∧ t.cin.stream = .lost ∧ t.cin.deadline = none ∧ t.cin.frame = none ∧
    bufCount t.cin .filling = 0 ∧ bufCount t.cin .ready = bufCount s.cin .ready ∧
    bufCount t.cin .shown = bufCount s.cin .shown ∧ t.cin.malformed = s.cin.malformed ∧ t.cin.good = s.cin.good ∧
    t.cin.lastFault = s.cin.lastFault ∧
    noticeRaised .cameraLockChange (BitVec.ofNat 32 (3 + 256 * camStreamCode s.cin.stream)) 4 s t ∧
    (s.cin.stream = .locked → t.cin.frozen = false ∧ t.cin.sameRun = 0 ∧
      (if s.cin.frozen then noticeRaised .cameraFrozen 0 (BitVec.ofNat 32 s.cin.lastSig) s t else slotKept .cameraFrozen s t) ∧
      (if s.vwc.view = .live then t.vwc = { s.vwc with view := .noSignal, startTimer := none, exitTimer := none } ∧
        noticeRaised .viewChange (BitVec.ofNat 32 (515 + if s.vwc.manual then 196608 else 0)) 7 s t
      else t.vwc = s.vwc)))

/-- R21, R23, R31: inside a frame a LINE_START opens the line store, a pixel byte joins it, and the LINE_END of a line of 2W bytes
hands the line to CAM_WR at its row of the FILLING buffer: as it arrived, or, mirrored, the pairs in reverse order with the luma
samples of each exchanged. Where the line is one of the eight sampled rows, the luma of its eight sampled columns, as stored, joins the
frame's signature. Of local memory a LINE_END writes what CAM_WR has still to write of the line before, and no byte where it completes no
line; that such a line is written then is the model's choice (log entry 17). -/
def Obligations.CameraLinesAreCaptured : Prop :=
  (∀ (s : State) (f : CamFrame), onPort s f → f.store = none → f.lines < f.h → ∃ t, exec .lineStart s = .next t ∧
    t.cin = { s.cin with frame := some { f with store := some [] } }) ∧
  (∀ (s : State) (f : CamFrame) (bs : List Byte) (b : Byte), onPort s f → f.store = some bs → bs.length < 2 * f.w →
    ∃ t, exec (.pixelByte b) s = .next t ∧ t.cin = { s.cin with frame := some { f with store := some (bs ++ [b]) } }) ∧
  (∀ (s : State) (f : CamFrame) (bs : List Byte), onPort s f → f.store = some bs → bs.length = 2 * f.w → f.w % 2 = 0 →
    0 < f.w →
    ∃ t, exec .lineEnd s = .next t ∧
      (let luma (column : Nat) : Nat := (t.fen.camData[2 * column + 1]?.getD 0).toNat
       t.cin = { s.cin with frame := some { f with
        lines := f.lines + 1
        store := none
        sig := f.sig + (if ∃ j < 8, (2 * j + 1) * f.h / 16 = f.lines then
          ((List.range 8).map (fun i => luma ((2 * i + 1) * f.w / 16))).sum else 0) } }) ∧
      t.localMem = flushedMemory s ∧
      t.fen.camWr = Channel.started [⟨2048000 * f.buf + f.lines * (2 * f.w), 2 * f.w⟩] .write ∧
      t.fen.camData.length = 2 * f.w ∧
      (f.mirror = false → t.fen.camData = bs) ∧
      (f.mirror = true → ∀ p < f.w / 2, ∀ k < 4,
        t.fen.camData[4 * (f.w / 2 - 1 - p) + k]? = bs[4 * p + (if k = 1 then 3 else if k = 3 then 1 else k)]?)) ∧
  (∀ s : State, (∀ f bs, onPort s f → f.store = some bs → bs.length < 2 * f.w) →
    ∃ t, exec .lineEnd s = .next t ∧ t.localMem = s.localMem ∧ t.fen.camWr = s.fen.camWr ∧ t.fen.camData = s.fen.camData)

/-- R21, R23, R24, R25, R28: the FRAME_END of a frame whose lines are all complete and written is a good frame end: the FILLING
buffer is READY and another READY buffer FREE, the frame is counted with its captured size, and the stream takes it. Where the last
line is still being written, the FRAME_END changes nothing but that the frame has ended, and the completion of the local unit that ends
the writing is the good frame end. R31, R32: the signature then joins the identical run, and FROZEN is set, or cleared, with its notice; set
in a LIVE view it takes the picture away (R47) and brings the camera-fault chime (R54). That FROZEN is also set where the run stands at 15
already, and that the notice of a differing signature carries the last one, are the model's readings (log entries 16 and 25). -/
def Obligations.GoodFrameEnd : Prop :=
  let taken (s : State) (f : CamFrame) (t : State) : Prop :=
      t.cin.frame = none ∧ (camBuf t.cin f.buf).st = .ready ∧ bufCount t.cin .ready = 1 ∧ bufCount t.cin .filling = 0 ∧
      bufCount t.cin .shown = bufCount s.cin .shown ∧
      t.cin.good = s.cin.good + 1 ∧ t.cin.malformed = s.cin.malformed ∧ t.cin.capW = f.w ∧ t.cin.capH = f.h ∧
      t.cin.lastSig = f.sig ∧
      (let same : Bool := s.cin.sameRun != 0 && f.sig == s.cin.lastSig
       let sets : Prop := same = true ∧ 14 ≤ s.cin.sameRun ∧ t.cin.stream = .locked ∧ s.cin.frozen = false
       t.cin.sameRun = (if same then min (s.cin.sameRun + 1) 15 else 1) ∧
       (sets → t.cin.frozen = true ∧ noticeRaised .cameraFrozen 1 (BitVec.ofNat 32 f.sig) s t ∧
         (s.vwc.view = .live → t.vwc = { s.vwc with view := .noSignal, startTimer := none, exitTimer := none } ∧
           noticeRaised .viewChange (BitVec.ofNat 32 (515 + if s.vwc.manual then 196608 else 0)) 8 s t ∧ internalArrival 2 s t) ∧
         (s.vwc.view ≠ .live → t.vwc = s.vwc)) ∧
       (same = true → ¬ sets → t.cin.frozen = s.cin.frozen ∧ slotKept .cameraFrozen s t ∧ t.vwc = s.vwc) ∧
       (same = false → t.cin.frozen = false ∧ t.vwc = s.vwc ∧
         if s.cin.frozen then noticeRaised .cameraFrozen 0 (BitVec.ofNat 32 s.cin.lastSig) s t else slotKept .cameraFrozen s t)) ∧
      (s.cin.stream = .acquiring → if s.cin.goodRun < 2 then t.cin.stream = .acquiring ∧ t.cin.goodRun = s.cin.goodRun + 1
        else t.cin.stream = .locked ∧ t.cin.badRun = 0) ∧
      (s.cin.stream = .locked → t.cin.stream = .locked ∧ t.cin.badRun = 0)
  (∀ (s : State) (f : CamFrame), onPort s f → f.store = none → f.lines = f.h → s.fen.camWr.st = .idle →
    buffersOk s.cin = true → ∃ t, exec .frameEnd s = .next t ∧ taken s f t) ∧
  (∀ (s : State) (f : CamFrame), onPort s f → f.store = none → f.lines = f.h → s.fen.camWr.st ≠ .idle →
    ∃ t, exec .frameEnd s = .next t ∧ t.cin = { s.cin with frame := some { f with ended := true } } ∧
      t.fen.camWr = s.fen.camWr ∧ OnlyTouches [.cin, .fen, .wai] s t) ∧
  (∀ (s : State) (f : CamFrame) (u : LocalUnit) (r : Range), s.cin.source = .port → s.cin.frame = some f → f.ended = true →
    buffersOk s.cin = true → s.fen.localUnit = some u → u.user = .camWr → u.live = true → s.fen.camWr.toMove = [r] → r.len ≤ u.len →
    ∃ t, exec .localUnitCompletion s = .next t ∧ t.fen.camWr = idleChannel ∧ taken s f t)

/-- R21, R23 to R25, R28: every fault of Table 2-2 but CUT makes one malformed frame: its buffer is FREE, the count and the last
cause take it, and the stream takes it: ACQUIRING loses its good run, and LOCKED is LOST at the second one in a run. With no frame
in progress the same codes and bytes are passed over (R20). Leaving LOCKED clears FROZEN with its notice (R31, R32), and a LIVE view loses
its picture (R47). That a FRAME_END inside a line is CODE_ORDER, where Table 2-2 names it under LINE_COUNT too, is the model's choice (log
entry 54). -/
def Obligations.CameraFaultsMakeMalformedFrames : Prop :=
  (∀ (s : State) (f : CamFrame) (c : Instr) (cause : FaultCause), onPort s f → CameraFault f c cause →
    ∃ t, exec c s = .next t ∧
      t.cin.frame = none ∧ bufCount t.cin .filling = 0 ∧ bufCount t.cin .ready = bufCount s.cin .ready ∧
      bufCount t.cin .shown = bufCount s.cin .shown ∧
      t.cin.malformed = s.cin.malformed + 1 ∧ t.cin.lastFault = some cause ∧ t.cin.good = s.cin.good ∧
      (s.cin.stream = .acquiring → t.cin.stream = .acquiring ∧ t.cin.goodRun = 0) ∧
      (s.cin.stream = .locked → if s.cin.badRun = 0 then t.cin.stream = .locked ∧ t.cin.badRun = 1 ∧
          t.cin.frozen = s.cin.frozen ∧ t.cin.sameRun = s.cin.sameRun ∧ slotKept .cameraFrozen s t ∧ t.vwc = s.vwc
        else t.cin.stream = .lost ∧ t.cin.deadline = none ∧ t.cin.frozen = false ∧ t.cin.sameRun = 0 ∧
          noticeRaised .cameraLockChange 515 (BitVec.ofNat 32 (3 + 256 * faultCode (some cause))) s t ∧
          (if s.cin.frozen then noticeRaised .cameraFrozen 0 (BitVec.ofNat 32 s.cin.lastSig) s t else slotKept .cameraFrozen s t) ∧
          (if s.vwc.view = .live then t.vwc = { s.vwc with view := .noSignal, startTimer := none, exitTimer := none } ∧
            noticeRaised .viewChange (BitVec.ofNat 32 (515 + if s.vwc.manual then 196608 else 0)) 7 s t
          else t.vwc = s.vwc))) ∧
  (∀ (s : State) (b : Byte), (s.cin.frame = none ∨ s.cin.source = .test) →
    ∀ c ∈ [Instr.lineStart, .lineEnd, .frameEnd, .invalidCode b, .pixelByte b],
      ∃ t, exec c s = .next t ∧ OnlyTouches [.fen, .wai] s t)

/-- R33 to R35: CAMERA_TEST changes the capture source; the generator starts a frame every 33,333 µs, and hands its first line to
CAM_WR; a generated frame ends 30,000 µs after its start with all its lines captured, the last of them on its way to the buffer, or, where
it is written already, with the good frame end. Entering test mode clears FROZEN with its notice (R32). Of local memory the start of a
generated frame writes what CAM_WR has still to write of a line, after the end of a generated frame whose end has not been sent; and the
end of a generated frame writes that too, where lines are left, and then those but the last one, each at its row. With the source PORT
neither row does anything. When each generated line is handed to CAM_WR, and that a line still unwritten is written then, are the model's
choices (log entries 15 and 17). -/
def Obligations.TestModeGeneratesFrames : Prop :=
  (∀ (s : State) (r : RecordRef), canTake r s = true → s.vwc.view = .off → s.vsr.reverse = false → s.cin.source = .port →
    ∃ t, exec (.cameraTest r 1) s = .next t ∧ t.cin.source = .test ∧ t.cin.stream = .acquiring ∧ t.cin.goodRun = 0 ∧
      t.cin.frame = none ∧ t.cin.deadline = some (now s + 100000) ∧ t.cin.sameRun = 0 ∧ t.cin.frozen = false ∧
      t.cin.testEntry = now s ∧ t.cin.nextTest = now s ∧ bufCount t.cin .ready = bufCount s.cin .ready ∧
      (if s.cin.frozen then noticeRaised .cameraFrozen 0 (BitVec.ofNat 32 s.cin.lastSig) s t else slotKept .cameraFrozen s t)) ∧
  (∀ (s : State) (r : RecordRef), canTake r s = true → s.cin.source = .test → s.vwc.view ≠ .live →
    ∃ t, exec (.cameraTest r 0) s = .next t ∧ t.cin.source = .port ∧ t.cin.stream = .acquiring ∧ t.cin.frame = none ∧
      noticeRaised .cameraTestEnd 1 (BitVec.ofNat 32 (min ((now s - s.cin.testEntry) / 1000) 0xFFFFFFFF)) s t) ∧
  (∀ s : State, s.cin.source = .test → s.cin.frame = none → ∃ t, exec .testFrameStart s = .next t ∧
    t.clockNs = max s.clockNs (s.cin.nextTest * 1000) ∧ t.cin.nextTest = s.cin.nextTest + 33333 ∧
    t.cin.testEnd = s.cin.nextTest + 30000 ∧ t.cin.deadline = some (now t + 100000) ∧
    ∃ f, t.cin.frame = some f ∧ f.w = s.sto.running.camW / 2 * 2 ∧ f.h = s.sto.running.camH ∧ f.lines = min 1 f.h ∧
      f.ended = false ∧ (0 < f.h → t.fen.camWr = Channel.started [⟨2048000 * f.buf, 2 * f.w⟩] .write ∧
        t.fen.camData = storedLine f.mirror (testLine f.w))) ∧
  (∀ (s : State) (f : CamFrame), s.cin.source = .test → s.cin.frame = some f → f.ended = false → 0 < f.w →
    ∃ t, exec .testFrameEnd s = .next t ∧ t.clockNs = max s.clockNs (s.cin.testEnd * 1000) ∧
      (f.lines < f.h →
        (∃ g, t.cin.frame = some { f with lines := f.h, store := none, sig := g, ended := true }) ∧
        t.fen.camWr = Channel.started [⟨2048000 * f.buf + (f.h - 1) * (2 * f.w), 2 * f.w⟩] .write ∧
        t.fen.camData = storedLine f.mirror (testLine f.w)) ∧
      (f.lines = f.h → s.fen.camWr.st ≠ .idle →
        t.cin = { s.cin with frame := some { f with ended := true } } ∧ t.fen.camWr = s.fen.camWr ∧ t.fen.camData = s.fen.camData) ∧
      (f.lines = f.h → s.fen.camWr.st = .idle →
        t.cin.frame = none ∧ t.cin.good = s.cin.good + 1 ∧ t.cin.malformed = s.cin.malformed ∧ t.cin.capW = f.w ∧ t.cin.capH = f.h) ∧
      t.localMem = (if f.lines < f.h then (List.range (f.h - 1 - f.lines)).foldl (fun m k => Memory.writeBytes localSize m
          (2048000 * f.buf + (f.lines + k) * (2 * f.w)) (storedLine f.mirror (testLine f.w))) (flushedMemory s)
        else s.localMem)) ∧
  (∀ s : State, s.cin.source = .test → (∀ f, s.cin.frame = some f → f.ended = true) →
    (∃ t, exec .testFrameEnd s = .next t ∧ OnlyTouches [.fen, .wai] s t) ∧
    ∃ t, exec .testFrameStart s = .next t ∧ t.localMem = flushedMemory s) ∧
  (∀ (s : State) (f : CamFrame), s.cin.source = .test → s.cin.frame = some f → f.ended = false →
    ∃ t u v, exec .testFrameStart s = .next t ∧ exec .testFrameEnd s = .next u ∧ exec .testFrameStart u = .next v ∧
      t.localMem = v.localMem) ∧
  (∀ s : State, s.cin.source = .port → exec .testFrameStart s = .next s ∧ exec .testFrameEnd s = .next s)

/-- R28 to R30: after every step at most one buffer is READY and at most one SHOWN, and a buffer is FILLING exactly while a frame is
in progress, and it is that frame's. -/
def Obligations.StepKeepsCameraBuffers : Prop :=
  ∀ s t : State, buffersOk s.cin = true → step s = .next t → buffersOk t.cin = true

/-! ## Chapter 3: the reversing view -/

/-- R43, whole: a VIEW_REQUEST of mode 1 by Table 3-3, with its answers; a mode other than 0 and 1 is refused. -/
def Obligations.ViewRequestOnFollowsItsTable : Prop :=
  ∀ (s : State) (r : RecordRef), canTake r s = true → held r s = false →
    let slow : Bool := s.vsr.motionFresh.st == .valid && s.vsr.motion.speedValid
      && decide (s.vsr.motion.speed ≤ s.vwc.policy.manualLimit)
    let ready : Bool := (pipeOf s .centre).st == .running && s.cin.stream == .locked && !s.cin.frozen
    (∀ mode : Byte, 1 < mode.toNat → ∃ t, exec (.viewRequest r mode) s = .next t ∧ OnlyTouches [.fen, .wai] s t ∧
      answered r ⟨⟨.refusedInvalid, .range⟩, 0⟩ t) ∧
    ∃ t, exec (.viewRequest r 1) s = .next t ∧
      (s.vwc.view = .off →
        if ¬ s.vsr.reverse ∧ slow then
          t.vwc.view = .starting ∧ t.vwc.manual = true ∧ t.vwc.startTimer = some (now s + 1500000) ∧ t.vwc.exitTimer = none ∧
            (pipeOf t .centre).st = (if (pipeOf s .centre).st = .off then .starting else (pipeOf s .centre).st) ∧
            answered r ⟨⟨.done, .none⟩, 0⟩ t
        else t.vwc = s.vwc ∧ OnlyTouches [.fen, .wai] s t ∧ answered r ⟨⟨.refusedState, .speed⟩, 0⟩ t) ∧
      (s.vwc.view = .exitHold →
        if slow then
          t.vwc.view = (if ready then .live else .noSignal) ∧ t.vwc.manual = true ∧ t.vwc.exitTimer = none ∧
            t.vwc.startTimer = none ∧ answered r ⟨⟨.done, .none⟩, 0⟩ t
        else t.vwc = s.vwc ∧ OnlyTouches [.fen, .wai] s t ∧ answered r ⟨⟨.refusedState, .speed⟩, 0⟩ t) ∧
      (s.vwc.view = .starting ∨ s.vwc.view = .live ∨ s.vwc.view = .noSignal →
        OnlyTouches [.fen, .wai] s t ∧ answered r ⟨⟨.done, .none⟩, 0⟩ t)

/-- R51 and R52: a VIEW_REQUEST of mode 0 ends a manual view and an EXIT_HOLD and is answered DONE, changes nothing in OFF, and is
refused in a view that REVERSE holds open. -/
def Obligations.ViewRequestOffEndsAManualView : Prop :=
  ∀ (s : State) (r : RecordRef), canTake r s = true → ∃ t, exec (.viewRequest r 0) s = .next t ∧
    (if s.vwc.view = .off then OnlyTouches [.fen, .wai] s t ∧ answered r ⟨⟨.done, .none⟩, 0⟩ t
    else if s.vwc.view = .exitHold ∨ s.vwc.manual then
      t.vwc.view = .off ∧ t.vwc.manual = false ∧ t.vwc.startTimer = none ∧ t.vwc.exitTimer = none ∧ t.glg.ks = 0 ∧
        (pipeOf t .centre).st = (pipeOf s .centre).st ∧
        noticeRaised .viewChange
          (BitVec.ofNat 32 (256 * viewCode s.vwc.view + if s.vwc.manual then 131072 else 0)) 4 s t ∧
        answered r ⟨⟨.done, .none⟩, 0⟩ t
    else OnlyTouches [.fen, .wai] s t ∧ answered r ⟨⟨.refusedState, .viewActive⟩, 0⟩ t)

/-- R41: SET_VIEW_POLICY with its clamps and answers, in OFF and in the other view states; the policy stays through DETACH and
link reset, and the next settings application or power-on reset replaces it. That a start-up image that fails its checks replaces
it too, by the defaults, is the model's reading (log entry 35). -/
def Obligations.SetViewPolicyClampsAndKeeps : Prop :=
  (∀ (s : State) (r : RecordRef) (p : PolicyParams), canTake r s = true →
    ∃ t, exec (.setViewPolicy r p) s = .next t ∧
      (if s.vwc.view = .off then
        t.vwc = { s.vwc with policy := ⟨min p.exitDelay.toNat 10000, min p.exitSpeed.toNat 30000,
          min p.manualLimit.toNat 30000, p.chimeEnable ≠ 0⟩ } ∧
        (let n := (if 10000 < p.exitDelay.toNat then 1 else 0) + (if 30000 < p.exitSpeed.toNat then 1 else 0)
          + (if 30000 < p.manualLimit.toNat then 1 else 0) + (if 1 < p.chimeEnable.toNat then 1 else 0)
        answered r (if n = 0 then ⟨⟨.done, .none⟩, 0⟩ else ⟨⟨.doneAdjusted, .none⟩, n⟩) t)
      else t.vwc = s.vwc ∧ answered r ⟨⟨.refusedState, .viewActive⟩, 0⟩ t)) ∧
  (∀ s : State, ∃ t, exec .detach s = .next t ∧ t.vwc.policy = s.vwc.policy) ∧
  (∀ s : State, ∃ t, exec .linkReset s = .next t ∧ t.vwc.policy = s.vwc.policy) ∧
  (∀ (s : State) (img : List Byte) (due : Nat), s.sto.flash = some (.load due) →
    ∃ t, exec (.settingsLoad img) s = .next t ∧ t.vwc.policy = t.sto.running.policy) ∧
  (∀ (s : State) (img : List Byte) (due : Nat), s.vwc.exitTimer = some due → s.vwc.view = .exitHold → s.sto.waiting = some img →
    ∃ t, exec .exitTimer s = .next t ∧ t.sto.waiting = none ∧ t.vwc.policy = imagePolicy img) ∧
  (∀ (s : State) (rev : Bool), ∃ t, exec (.powerOnReset rev) s = .next t ∧ t.vwc.policy = ⟨3000, 1500, 1000, true⟩)

/-- R46 and R49: the start timer of a view in STARTING runs out into NO_SIGNAL, and the exit timer of one in EXIT_HOLD into OFF. R42, R44
and R48 at the end of the hold of REV_IN: REVERSE opens the view from OFF, and leaves a view without MANUAL: to OFF at once with an exit
delay of 0 or a known speed above the exit speed, and else to EXIT_HOLD for the exit delay. R42: REVERSE takes over a manual view, whose
state and timer stay, but for a LIVE one on the test pattern, which is left in NO_SIGNAL; and it takes a view in EXIT_HOLD to LIVE where the
picture can be shown, and else to NO_SIGNAL. R50: at a good MOTION frame that leaves REVERSE as it was, a known speed above the exit speed ends
EXIT_HOLD, and one above the manual limit ends a manual view; an equal speed, an unknown one and a view without MANUAL end nothing. -/
def Obligations.TimersAndReverseMoveTheView : Prop :=
  (∀ (s : State) (due : Nat), s.vwc.startTimer = some due → s.vwc.view = .starting →
    ∃ t, exec .startTimer s = .next t ∧ t.clockNs = max s.clockNs (due * 1000) ∧
      t.vwc = { s.vwc with view := .noSignal, startTimer := none, exitTimer := none } ∧
      noticeRaised .viewChange (BitVec.ofNat 32 (259 + if s.vwc.manual then 196608 else 0)) 6 s t) ∧
  (∀ (s : State) (due : Nat), s.vwc.exitTimer = some due → s.vwc.view = .exitHold → s.vwc.manual = false →
    s.sto.waiting = none →
    ∃ t, exec .exitTimer s = .next t ∧ t.clockNs = max s.clockNs (due * 1000) ∧
      t.vwc = { s.vwc with view := .off, manual := false, startTimer := none, exitTimer := none } ∧ t.glg.ks = 0 ∧
      noticeRaised .viewChange 1024 9 s t) ∧
  (∀ (s : State) (due : Nat), s.vsr.hold = some due → s.vsr.rawRev = true → s.vsr.reverse = false → s.vwc.view = .off →
    ∃ t, exec .holdTimer s = .next t ∧ t.vsr.reverse = true ∧ t.vwc.view = .starting ∧ t.vwc.manual = false ∧
      t.vwc.startTimer = some (now t + 1500000) ∧ (pipeOf t .centre).st ≠ .off ∧
      ((pipeOf s .centre).st ≠ .off → (pipeOf t .centre).timing = (pipeOf s .centre).timing)) ∧
  (∀ (s : State) (due : Nat), s.vsr.hold = some due → s.vsr.rawRev = false → s.vsr.reverse = true →
    gearSource s.vsr = false → s.vwc.view = .starting ∨ s.vwc.view = .live ∨ s.vwc.view = .noSignal → s.vwc.manual = false →
    ∃ t, exec .holdTimer s = .next t ∧ t.vsr.reverse = false ∧
      (if s.vwc.policy.exitDelay = 0 ∨ (s.vsr.motionFresh.st = .valid ∧ s.vsr.motion.speedValid = true ∧
          s.vwc.policy.exitSpeed < s.vsr.motion.speed) then
        t.vwc.view = .off ∧ t.vwc.startTimer = none ∧ t.vwc.exitTimer = none
      else t.vwc.view = .exitHold ∧ t.vwc.exitTimer = some (now t + 1000 * s.vwc.policy.exitDelay) ∧ t.vwc.startTimer = none)) ∧
  -- R42: REVERSE becomes true in an open view
  (∀ (s : State) (due : Nat), s.vsr.hold = some due → s.vsr.rawRev = true → s.vsr.reverse = false →
    ∃ t, exec .holdTimer s = .next t ∧ t.vsr.reverse = true ∧
      (s.vwc.manual = true → s.vwc.view = .starting ∨ s.vwc.view = .noSignal ∨ (s.vwc.view = .live ∧ s.cin.source = .port) →
        t.vwc = { s.vwc with manual := false } ∧
        noticeRaised .viewChange (BitVec.ofNat 32 (257 * viewCode s.vwc.view + 131072)) 1 s t) ∧
      (s.vwc.manual = true → s.vwc.view = .live → s.cin.source = .test → s.cin.stream = .locked →
        t.vwc.view = .noSignal ∧ t.vwc.manual = false ∧ t.cin.source = .port) ∧
      (s.vwc.view = .exitHold → s.cin.source = .port →
        let view : ViewState := if (pipeOf s .centre).st = .running ∧ s.cin.stream = .locked ∧ s.cin.frozen = false then .live
          else .noSignal
        t.vwc = { s.vwc with view := view, startTimer := none, exitTimer := none } ∧
        noticeRaised .viewChange (BitVec.ofNat 32 (1024 + viewCode view + if s.vwc.manual then 196608 else 0)) 1 s t)) ∧
  -- R50: the speed tests
  (∀ (s : State) (run ones : Nat) (seq : BitVec 4) (gear flags : Byte) (speed steer : Half), s.vsr.rx = .hunt run → 8 ≤ ones →
    ∃ t, exec (.motionFrame (motionLine ones seq gear flags speed steer)) s = .next t ∧
      t.vsr.motion.speedValid = flags.getLsbD 7 ∧ t.vsr.motion.speed = min speed.toNat 30000 ∧
      (t.vsr.reverse = s.vsr.reverse →
        let above (limit : Nat) : Prop := t.vsr.motionFresh.st = .valid ∧ t.vsr.motion.speedValid = true ∧ limit < t.vsr.motion.speed
        let ended (cause : Word) : Prop := t.vwc.view = .off ∧ t.vwc.manual = false ∧ t.vwc.startTimer = none ∧
          t.vwc.exitTimer = none ∧ t.glg.ks = 0 ∧
          noticeRaised .viewChange (BitVec.ofNat 32 (256 * viewCode s.vwc.view + if s.vwc.manual then 131072 else 0)) cause s t
        (s.vwc.view = .off → t.vwc = s.vwc) ∧
        (s.vwc.view = .exitHold → (above s.vwc.policy.exitSpeed → ended 10) ∧ (¬ above s.vwc.policy.exitSpeed → t.vwc = s.vwc)) ∧
        (s.vwc.view = .starting ∨ s.vwc.view = .live ∨ s.vwc.view = .noSignal →
          (s.vwc.manual = true → above s.vwc.policy.manualLimit → ended 11) ∧
          (s.vwc.manual = true → ¬ above s.vwc.policy.manualLimit → t.vwc = s.vwc) ∧
          (s.vwc.manual = false → t.vwc = s.vwc))))

/-- R61, and the rule of R62 with its bound: with a table of 17 values, the target curvature lies between the two values around the
steering angle, is the table's value at its points, and is its first and last one at the ends and beyond them; a run moves the shown
curvature toward the target and never beyond it, all the way with a snap or within 2^n. R59, R60, R62: at a centre vblank with the view
LIVE a completed back buffer becomes the front one, the guide mode is decided, with its notice at a change, and a run of that mode
starts into the back buffer, with a FULL run's curvature; with no valid calibration the back buffer is completed empty at once. -/
def Obligations.CurvatureFollowsTheTable : Prop :=
  (∀ (k : List Int) (steer : Int), k.length = 17 →
    (steer ≤ -6400 → some (targetCurvature k steer) = k[0]?) ∧ (6400 ≤ steer → some (targetCurvature k steer) = k[16]?) ∧
    (∀ j : Nat, j ≤ 16 → some (targetCurvature k (-6400 + 800 * j)) = k[j]?) ∧
    (∀ (j : Nat) (a b : Int), k[j]? = some a → k[j + 1]? = some b →
      -6400 + 800 * (j : Int) ≤ steer → steer ≤ -6400 + 800 * ((j : Int) + 1) →
      min a b ≤ targetCurvature k steer ∧ targetCurvature k steer ≤ max a b)) ∧
  (∀ (n : Nat) (snap : Bool) (ks kt : Int),
    min ks kt ≤ shownCurvature n snap ks kt ∧ shownCurvature n snap ks kt ≤ max ks kt ∧
    (snap = true ∨ (kt - ks).natAbs < 2 ^ n → shownCurvature n snap ks kt = kt) ∧
    (shownCurvature n snap ks kt = ks → kt = ks)) ∧
  (∀ s : State, (pipeOf s .centre).st = .running → s.vwc.view = .live →
    let front := if s.glg.backDone then !s.glg.front1 else s.glg.front1
    let mode : GuideMode := if s.glg.valid = false then .noCalibration
      else if s.vsr.motionFresh.st = .valid ∧ s.vsr.motion.steeringValid = true then .full else .staticOnly
    let c := s.sto.running.calib
    ∃ t, exec (.pipeVblank .centre) s = .next t ∧ t.vwc.view = .live ∧ t.glg.front1 = front ∧ t.glg.mode = mode ∧
      t.glg.valid = s.glg.valid ∧
      (if mode = s.glg.mode then slotKept .guideState s t
      else noticeRaised .guideState (BitVec.ofNat 32 (guideCode mode + 256 * guideCode s.glg.mode))
        (BitVec.ofNat 32 ((if s.vsr.motionFresh.st = .valid then 1 else 0) + (if s.vsr.motion.steeringValid then 2 else 0))) s t) ∧
      (if mode = .noCalibration then
        t.glg.run = none ∧ t.glg.backDone = true ∧ t.glg.ks = s.glg.ks ∧ t.glg.snap = s.glg.snap ∧
        t.glg.tag0 = (if front then .empty else s.glg.tag0) ∧ t.glg.tag1 = (if front then s.glg.tag1 else .empty)
      else
        t.glg.run = some (formRun mode s.sto.running t.glg.ks) ∧ t.glg.backDone = false ∧
        t.glg.tag0 = s.glg.tag0 ∧ t.glg.tag1 = s.glg.tag1 ∧
        t.fen.guideWr = Channel.started [⟨if front then 6291456 else 6553600,
          s.sto.running.camH * ((s.sto.running.camW / 2 * 2 + 3) / 4)⟩] .write ∧
        (if mode = .full then
          t.glg.ks = shownCurvature c.shift s.glg.snap s.glg.ks (targetCurvature c.curvature s.vsr.motion.steering) ∧
          t.glg.snap = false
        else t.glg.ks = s.glg.ks ∧ t.glg.snap = s.glg.snap)))

/-- R39, R44, R48: after every step each timer of the view runs exactly in its state, and MANUAL is clear in OFF and in EXIT_HOLD. R42,
R48, R49, R51: after every step a true REVERSE holds the view open: in STARTING, LIVE or NO_SIGNAL with MANUAL clear, and where
REVERSE is false a view in those three states is a manual one. -/
def Obligations.StepKeepsViewTimers : Prop :=
  (∀ s t : State, viewOk s.vwc = true → step s = .next t → viewOk t.vwc = true) ∧
  (∀ s t : State, reverseOk s = true → step s = .next t → reverseOk t = true)

/-! ## Chapter 4: display pipes and scenes -/

/-- R71: the three checks of SET_PIPE_TIMING in their order, and the timing that is taken: it is written, answered DONE, and the
pipe enters STARTING with its start count at 0 from every state (R72). R69 and R70: the limits are those of Table 4-1 and of the frame
period, which is the total pixels times 10,000 over the rate of Table 4-2. R70, R76: a view that opens over a CENTRE pipe in OFF starts it
with the CENTRE timing of the running settings where that one passes the same test, and with the built-in one where it does not. -/
def Obligations.SetPipeTimingStartsThePipe : Prop :=
  (∀ (s : State) (r : RecordRef) (c : TimingParams), canTake r s = true → held r s = false →
    ∃ t, exec (.setPipeTiming r c) s = .next t ∧
      (match pipeOfCode c.pipe with
        | none => OnlyTouches [.fen, .wai] s t ∧ answered r ⟨⟨.refusedInvalid, .range⟩, 0⟩ t
        | some p =>
          let tm : Timing := ⟨c.activeW.toNat, c.activeH.toNat, c.totalW.toNat, c.totalH.toNat, c.rate.toNat⟩
          if timingOk p tm = false then OnlyTouches [.fen, .wai] s t ∧ answered r ⟨⟨.refusedInvalid, .range⟩, 0⟩ t
          else if p = .centre ∧ s.vwc.view ≠ .off then
            OnlyTouches [.fen, .wai] s t ∧ answered r ⟨⟨.refusedState, .viewActive⟩, 0⟩ t
          else
            (pipeOf t p).timing = some tm ∧ (pipeOf t p).st = .starting ∧ (pipeOf t p).startCount = 0 ∧
            (pipeOf t p).nextVblankNs = s.clockNs + framePeriodNs tm ∧
            (pipeOf t p).active = (pipeOf s p).active ∧ (pipeOf t p).pendingScene = (pipeOf s p).pendingScene ∧
            (pipeOf t p).underflow = (pipeOf s p).underflow ∧ (pipeOf t p).superseded = (pipeOf s p).superseded ∧
            (pipeOf t p).restarts = (pipeOf s p).restarts ∧ (∀ q, q ≠ p → pipeOf t q = pipeOf s q) ∧
            answered r ⟨⟨.done, .none⟩, 0⟩ t)) ∧
  (∀ (p : PipeId) (t : Timing), timingOk p t = true ↔
    ∃ rate, [252, 408, 672, 936, 1080, 1188, 1344, 1488][t.rate]? = some rate ∧
      t.activeW % 2 = 0 ∧ 320 ≤ t.activeW ∧ t.activeW ≤ (if p = .centre then 1920 else 1280) ∧
      240 ≤ t.activeH ∧ t.activeH ≤ (if p = .centre then 720 else 800) ∧
      t.activeW + 16 ≤ t.totalW ∧ t.totalW ≤ 4096 ∧ t.activeH + 4 ≤ t.totalH ∧ t.totalH ≤ 2048 ∧
      framePeriodNs t = t.totalW * t.totalH * 10000 / rate ∧ 8000000 ≤ framePeriodNs t ∧ framePeriodNs t ≤ 40000000) ∧
  (∀ (s : State) (due : Nat), s.vsr.hold = some due → s.vsr.rawRev = true → s.vsr.reverse = false → s.vwc.view = .off →
    (pipeOf s .centre).st = .off →
    ∃ t, exec .holdTimer s = .next t ∧ (pipeOf t .centre).st = .starting ∧ (pipeOf t .centre).startCount = 0 ∧
      (pipeOf t .centre).timing = some (if timingOk .centre s.sto.running.timing = true then s.sto.running.timing
        else ⟨1920, 720, 2080, 750, 3⟩))

/-- R72, R74, R75: PIPE_OFF takes a pipe to OFF with its timing and its scenes kept and its pending restarts ended; RESTART_PIPE puts
its request on the list, answers PENDING, and takes the pipe to STARTING. -/
def Obligations.PipesAreTurnedOffAndRestarted : Prop :=
  (∀ (s : State) (r : RecordRef) (c : Byte) (p : PipeId), canTake r s = true → held r s = false → pipeOfCode c = some p →
    ¬ (p = .centre ∧ s.vwc.view ≠ .off) →
    ∃ t, exec (.pipeOff r c) s = .next t ∧ (pipeOf t p).st = .off ∧ (pipeOf t p).timing = (pipeOf s p).timing ∧
      (pipeOf t p).active = (pipeOf s p).active ∧ (pipeOf t p).pendingScene = (pipeOf s p).pendingScene ∧
      (pipeOf t p).underflow = (pipeOf s p).underflow ∧ (pipeOf t p).superseded = (pipeOf s p).superseded ∧
      (∀ q, q ≠ p → pipeOf t q = pipeOf s q) ∧ answered r ⟨⟨.done, .none⟩, 0⟩ t ∧
      ((pipeOf s p).st = .off → OnlyTouches [.fen, .wai] s t) ∧
      ((pipeOf s p).st ≠ .off → (pipeOf t p).restarts = [] ∧ (p = .centre → bufCount t.cin .shown = 0))) ∧
  (∀ (s : State) (r : RecordRef) (c : Byte) (p : PipeId), canTake r s = true → held r s = false → pipeOfCode c = some p →
    (pipeOf s p).restarts.length < 8 → (pipeOf s p).timing ≠ none →
    ∃ t, exec (.restartPipe r c) s = .next t ∧ (pipeOf t p).st = .starting ∧ (pipeOf t p).startCount = 0 ∧
      (pipeOf t p).timing = (pipeOf s p).timing ∧ (pipeOf t p).restarts = (pipeOf s p).restarts ++ [⟨some r⟩] ∧
      (pipeOf t p).nextVblankNs = s.clockNs + periodOf (pipeOf s p) ∧ (pipeOf t p).active = (pipeOf s p).active ∧
      answered r ⟨⟨.pending, .none⟩, 0⟩ t)

/-- R79 to R81: a SET_SCENE whose planes pass the checks becomes the pending scene, clipped; a pending scene it replaces is counted.
A plane count above 6 is refused, and the first faulty plane decides the answer, with nothing changed. -/
def Obligations.SetSceneBecomesPending : Prop :=
  ∀ (s : State) (r : RecordRef) (c : SceneParams) (p : PipeId), canTake r s = true → pipeOfCode c.pipe = some p →
    c.planes.length = c.count.toNat →
    ∃ t, exec (.setScene r c) s = .next t ∧
      (if 6 < c.count.toNat then OnlyTouches [.fen, .wai] s t ∧ answered r ⟨⟨.refusedInvalid, .tooMany⟩, 0⟩ t
      else
        (∀ pre e post m, c.planes = pre ++ e :: post → (∀ x ∈ pre, planeFault (requestWindow s) x = none) →
          planeFault (requestWindow s) e = some m →
          OnlyTouches [.fen, .wai] s t ∧ answered r ⟨⟨.refusedInvalid, m⟩, 0⟩ t) ∧
        ((∀ x ∈ c.planes, planeFault (requestWindow s) x = none) →
          (pipeOf t p).pendingScene = some ⟨c.backdrop,
            (c.planes.filterMap (clipPlane (activeArea p (pipeOf s p)))).map some⟩ ∧
          (pipeOf t p).superseded = (pipeOf s p).superseded + (if (pipeOf s p).pendingScene = none then 0 else 1) ∧
          (pipeOf t p).active = (pipeOf s p).active ∧ (∀ q, q ≠ p → pipeOf t q = pipeOf s q) ∧
          ∃ n, (n = 0 ↔ ∀ e ∈ c.planes, ∃ q, clipPlane (activeArea p (pipeOf s p)) e = some q ∧ q.w = e.width.toNat ∧
              q.h = e.height.toNat ∧ q.safe = e.flags.getLsbD 0) ∧
            answered r (if n = 0 then ⟨⟨.done, .none⟩, 0⟩ else ⟨⟨.doneAdjusted, .none⟩, n⟩) t))

/-- R80: a plane of a kind of Table 4-6 that is stored covers exactly the pixels of its rectangle that lie inside the pipe area, with
the columns and rows cut from its left and top as its source offset, and a FILM plane has no camera-safe mark; a plane is removed
exactly when it has no pixel there. -/
def Obligations.PlanesAreClippedToThePipe : Prop :=
  ∀ (area : Nat × Nat) (e : PlaneEntry) (k : PlaneKind), planeKindOfCode e.kind = some k →
    let inside (px py : Int) : Prop := e.x.toInt ≤ px ∧ px < e.x.toInt + e.width.toNat ∧ e.y.toInt ≤ py ∧
      py < e.y.toInt + e.height.toNat ∧ 0 ≤ px ∧ px < area.1 ∧ 0 ≤ py ∧ py < area.2
    (clipPlane area e = none ↔ ∀ px py, ¬ inside px py) ∧
    (∀ q, clipPlane area e = some q →
      q.kind = k ∧ 0 < q.w ∧ 0 < q.h ∧
      (∀ px py : Int, (q.x ≤ px ∧ px < q.x + q.w ∧ q.y ≤ py ∧ py < q.y + q.h) ↔ inside px py) ∧
      (q.ox : Int) = q.x - e.x.toInt ∧ (q.oy : Int) = q.y - e.y.toInt ∧
      (k = .filmA ∨ k = .filmB → q.safe = false))

/-- R73, R75, R81 and R45: a vblank of a pipe in STARTING counts, the second one takes it to RUNNING with no restart pending; a
pending scene becomes the active one; the next vblank falls one period later; and at a centre vblank a view that waits enters LIVE
when the picture is ready. A pipe in OFF has no vblank. -/
def Obligations.VblankAdvancesThePipe : Prop :=
  (∀ (s : State) (p : PipeId), (pipeOf s p).st ≠ .off →
    ∃ t, exec (.pipeVblank p) s = .next t ∧ t.clockNs = max s.clockNs (pipeOf s p).nextVblankNs ∧
      (pipeOf t p).nextVblankNs = (pipeOf s p).nextVblankNs + periodOf (pipeOf s p) ∧
      (if (pipeOf s p).st = .starting ∧ (pipeOf s p).startCount = 0 then
        (pipeOf t p).st = .starting ∧ (pipeOf t p).startCount = 1 ∧ (pipeOf t p).restarts = (pipeOf s p).restarts
      else (pipeOf t p).st = .running ∧ ((pipeOf s p).st = .starting → (pipeOf t p).restarts = [])) ∧
      (pipeOf t p).active = ((pipeOf s p).pendingScene.getD (pipeOf s p).active) ∧ (pipeOf t p).pendingScene = none ∧
      (pipeOf t p).outLine = 0 ∧ (pipeOf t p).timing = (pipeOf s p).timing ∧
      (p = .centre → (s.vwc.view = .starting ∨ s.vwc.view = .noSignal) → (pipeOf t p).st = .running →
        s.cin.stream = .locked → s.cin.frozen = false →
        t.vwc.view = .live ∧ t.vwc.manual = s.vwc.manual ∧ t.vwc.startTimer = none ∧ (pipeOf t p).content = .composition)) ∧
  (∀ (s : State) (p : PipeId), (pipeOf s p).st = .off → exec (.pipeVblank p) s = .next s)

/-- R83, R84, R85, R91: an output line has one pixel for each column of the active width; where the frame shows a backdrop alone
each pixel is the backdrop; and on a RUNNING pipe each plane that is late on the line is counted. R87: on the CENTRE pipe with PARKED
false, the line is the one of the scene without its FILM planes (a FILM plane has no camera-safe mark, R80); that a line is composed
whole at its start is the model's choice (log entry 33). -/
def Obligations.OutputLinesAreComposed : Prop :=
  ∀ (s : State) (p : PipeId) (tm : Timing), (pipeOf s p).timing = some tm → (pipeOf s p).st ≠ .off →
    (pipeOf s p).outLine < tm.activeH →
    ∃ t, exec (.outputLine p) s = .next t ∧ (pipeOf t p).outLine = (pipeOf s p).outLine + 1 ∧
      (pipeOf t p).line.length = tm.activeW ∧
      ((pipeOf s p).content = .hostBackdrop →
        (pipeOf t p).line = List.replicate tm.activeW (rgbOf (pipeOf s p).active.backdrop)) ∧
      ((pipeOf s p).content = .viewBackdrop →
        (pipeOf t p).line = List.replicate tm.activeW (rgbOf s.cmp.comp.backdrop)) ∧
      ((pipeOf s p).content = .hostScene → ∀ q : Plane, (pipeOf s p).active.slots = [some q] → q.kind = .fill →
        q.alpha = 255 → (readerOf (pipeOf s p) 0).fetched = true → q.y ≤ (pipeOf s p).outLine →
        (pipeOf s p).outLine < q.y + q.h → ∀ px < tm.activeW,
          (pipeOf t p).line[px]? = some (if q.x ≤ px ∧ (px : Int) < q.x + q.w then rgbOf q.colour
            else rgbOf (pipeOf s p).active.backdrop)) ∧
      (pipeOf t p).underflow = (pipeOf s p).underflow + (if (pipeOf s p).st = .running then
        BitVec.ofNat 32 ((List.range 6).countP (slotLate s p (pipeOf s p).outLine)) else 0) ∧
      (p = .centre → s.vsr.parked = false →
        (∀ q : Plane, some q ∈ (pipeOf s p).active.slots → q.kind = .filmA ∨ q.kind = .filmB → q.safe = false) →
        (pipeOf t p).line =
          composeLine (setPipe p { pipeOf s p with active := withoutFilms (pipeOf s p).active } s) p (pipeOf s p).outLine tm.activeW)

/-- R85 and R86: with an effective alpha of 0 a layer leaves a channel, with 255 it replaces it, in between the result lies between
the two; a global alpha of 255 keeps the layer's own alpha; and a YCbCr pixel gives channels of 0 to 255, equal ones for neutral
chroma, with black at Y = 16 and white at Y = 235. -/
def Obligations.BlendingStaysBetween : Prop :=
  (∀ a src dst : Nat, a ≤ 255 → src ≤ 255 → dst ≤ 255 →
    blendChannel 0 src dst = dst ∧ blendChannel 255 src dst = src ∧
    min src dst ≤ blendChannel a src dst ∧ blendChannel a src dst ≤ max src dst ∧
    effectiveAlpha a 255 = a ∧ effectiveAlpha 255 a = a ∧ effectiveAlpha a src ≤ min a src) ∧
  (∀ y cb cr : Nat, (convert y cb cr).r ≤ 255 ∧ (convert y cb cr).g ≤ 255 ∧ (convert y cb cr).b ≤ 255) ∧
  (∀ y : Nat, (convert y 128 128).r = (convert y 128 128).g ∧ (convert y 128 128).g = (convert y 128 128).b) ∧
  convert 16 128 128 = ⟨0, 0, 0⟩ ∧ convert 235 128 128 = ⟨255, 255, 255⟩

/-! ## Chapter 5: film streams -/

/-- R94, R95: OPEN_STREAM of a CLOSED stream with a legal format, size and pacing pipe opens a fresh record, HELD in LOW; an open
stream refuses it before any other check than that of the stream code. -/
def Obligations.OpenStreamOpensAFreshRecord : Prop :=
  ∀ (s : State) (r : RecordRef) (c : OpenParams) (st : StreamId), canTake r s = true → streamOfCode c.stream = some st →
    ∃ t, exec (.openStream r c) s = .next t ∧
      ((filmOf s st).st ≠ .closed → OnlyTouches [.fen, .wai] s t ∧ answered r ⟨⟨.refusedState, .isOpen⟩, 0⟩ t) ∧
      (∀ pacing, (filmOf s st).st = .closed → c.format = 0 ∨ c.format = 1 → 16 ≤ c.width.toNat → c.width.toNat ≤ 1920 →
        16 ≤ c.height.toNat → c.height.toNat ≤ 1080 → (c.format = 0 → c.width.toNat % 2 = 0 ∧ c.height.toNat % 2 = 0) →
        pipeOfCode c.pacing = some pacing →
        (filmOf t st).st = (if s.smn.low then .held else .opened) ∧ (filmOf t st).format = c.format.toNat ∧
        (filmOf t st).width = c.width.toNat ∧ (filmOf t st).height = c.height.toNat ∧ (filmOf t st).pacing = pacing ∧
        (filmOf t st).video = ⟨[], none, [], ⟨none, none, none⟩, 0, 0, 0, 0, false⟩ ∧
        (filmOf t st).audio = ⟨[], [], none, [], 0, 0, 0, 0, 0, false, false⟩ ∧ (filmOf t st).closing = false ∧
        (∀ q, q ≠ st → filmOf t q = filmOf s q) ∧ answered r ⟨⟨.done, .none⟩, 0⟩ t)

/-- R96 and R103: a QUEUE_FRAME or a QUEUE_AUDIO that passes its checks joins the tail of its queue and its token becomes the last
queued one; a token that is not greater than the last queued one is refused, and so is one that finds the queue full. -/
def Obligations.FramesAndBuffersJoinTheirQueues : Prop :=
  (∀ (s : State) (r : RecordRef) (c : FrameParams) (st : StreamId), canTake r s = true → streamOfCode c.stream = some st →
    (filmOf s st).st ≠ .closed → (filmOf s st).closing = false →
    ∃ t, exec (.queueFrame r c) s = .next t ∧
      (c.token ≤ (filmOf s st).video.lastQueued →
        OnlyTouches [.fen, .wai] s t ∧ answered r ⟨⟨.refusedInvalid, .tokenOrder⟩, 0⟩ t) ∧
      ((filmOf s st).video.lastQueued < c.token → c.stride.toNat % 64 = 0 → rowSize (filmOf s st) ≤ c.stride.toNat →
        frameAddressOk (filmOf s st) c (requestWindow s) = true →
        if (filmOf s st).video.queue.length < 8 then
          (filmOf t st).video = { (filmOf s st).video with
            queue := (filmOf s st).video.queue ++ [⟨c.token, c.luma, c.chroma, c.stride.toNat, c.time⟩]
            lastQueued := c.token } ∧
          (filmOf t st).audio = (filmOf s st).audio ∧ answered r ⟨⟨.done, .none⟩, 0⟩ t
        else OnlyTouches [.fen, .wai] s t ∧ answered r ⟨⟨.refusedState, .queueFull⟩, 0⟩ t)) ∧
  (∀ (s : State) (r : RecordRef) (c : AudioParams) (st : StreamId), canTake r s = true → streamOfCode c.stream = some st →
    (filmOf s st).st ≠ .closed → (filmOf s st).closing = false →
    ∃ t, exec (.queueAudio r c) s = .next t ∧
      (c.token ≤ (filmOf s st).audio.lastQueued →
        OnlyTouches [.fen, .wai] s t ∧ answered r ⟨⟨.refusedInvalid, .tokenOrder⟩, 0⟩ t) ∧
      ((filmOf s st).audio.lastQueued < c.token → 256 ≤ c.len.toNat → c.len.toNat ≤ 8192 → c.addr.toNat % 4 = 0 →
        insideWindow (requestWindow s) c.addr.toNat (4 * c.len.toNat) = true →
        if (filmOf s st).audio.queue.length < 16 then
          (filmOf t st).audio.queue = (filmOf s st).audio.queue ++ [⟨c.token, c.addr, c.len.toNat, 0⟩] ∧
          (filmOf t st).audio.lastQueued = c.token ∧ (filmOf t st).video = (filmOf s st).video ∧
          answered r ⟨⟨.done, .none⟩, 0⟩ t
        else OnlyTouches [.fen, .wai] s t ∧ answered r ⟨⟨.refusedState, .queueFull⟩, 0⟩ t))

/-- R98, R99, R101: at a vblank of its RUNNING pacing pipe the newest due frame of an open stream becomes current and the frames ahead
of it are dropped; with no frame due the current frame is repeated. -/
def Obligations.PresentationTakesTheNewestDueFrame : Prop :=
  ∀ (s : State) (st : StreamId), (filmOf s st).st ≠ .closed → (pipeOf s (filmOf s st).pacing).st = .running →
    ∃ t, exec (.pipeVblank (filmOf s st).pacing) s = .next t ∧
      (let v := (filmOf s st).video
       let due (f : Frame) : Prop := f.time.toNat ≤ (cabin t).toNat + periodOf (pipeOf s (filmOf s st).pacing) / 2000
       (∀ ahead f rest, v.queue = ahead ++ f :: rest → due f → (∀ g ∈ rest, ¬ due g) →
         (filmOf t st).video.current = some f ∧ (filmOf t st).video.queue = rest ∧
         (filmOf t st).video.dropped = v.dropped + BitVec.ofNat 32 ahead.length ∧
         (filmOf t st).video.repeats = v.repeats ∧ (filmOf t st).video.starved = false) ∧
       ((∀ g ∈ v.queue, ¬ due g) →
         (filmOf t st).video.current = v.current ∧ (filmOf t st).video.queue = v.queue ∧
         (filmOf t st).video.dropped = v.dropped ∧
         (filmOf t st).video.repeats = v.repeats + (if v.current = none then 0 else 1) ∧
         (filmOf t st).video.starved = (v.starved || (v.current.isSome && v.queue.isEmpty))))

/-- R105, whole: at an output sample instant each open stream hands its oldest staged sample frame and counts it, or silence; a
CLOSED stream hands silence. -/
def Obligations.FilmSoundIsHandedInOrder : Prop :=
  ∀ s : State, ∃ t, exec .outputSampleInstant s = .next t ∧ ∀ st : StreamId,
    (if (filmOf s st).st = .closed then filmSample s st = ⟨0, 0⟩ ∧ filmOf t st = filmOf s st
    else match (filmOf s st).audio.staging with
      | [] => filmSample s st = ⟨0, 0⟩ ∧ (filmOf t st).audio.staging = [] ∧
          (filmOf t st).audio.played = (filmOf s st).audio.played
      | x :: rest => filmSample s st = ⟨x.l.toInt, x.r.toInt⟩ ∧ (filmOf t st).audio.staging = rest ∧
          (filmOf t st).audio.played = (filmOf s st).audio.played + 1)

/-- R108 to R111: FLUSH_STREAM empties both queues and the staging store and keeps the current frame. It is answered PENDING while an
older frame that waits to retire is still held by a pipe's latch, and DONE where the stream holds no frame but the current one and no audio
unit is in flight. CLOSE_STREAM also gives up the current frame. It is answered PENDING while a pipe's latch holds that frame, and closes
a stream that holds no frame and has no audio unit in flight at once, answered DONE. -/
def Obligations.FlushAndCloseEmptyTheStream : Prop :=
  (∀ (s : State) (r : RecordRef) (c : Byte) (st : StreamId), canTake r s = true → held r s = false →
    streamOfCode c = some st → (filmOf s st).st ≠ .closed → (filmOf s st).closing = false → (filmOf s st).close = none →
    (filmOf s st).flush = none →
    ∃ t, exec (.flushStream r c) s = .next t ∧ (filmOf t st).video.queue = [] ∧ (filmOf t st).audio.queue = [] ∧
      (filmOf t st).audio.staging = [] ∧ (filmOf t st).audio.underrun = false ∧
      (filmOf t st).video.current = (filmOf s st).video.current ∧ (filmOf t st).st = (filmOf s st).st ∧
      (∀ c f p, (filmOf s st).video.current = some c → f ∈ (filmOf s st).video.retiring → f.token < c.token →
        (filmOf s st).video.latches.get p = some f →
        (filmOf t st).flush = some ⟨some r⟩ ∧ f ∈ (filmOf t st).video.retiring ∧ answered r ⟨⟨.pending, .none⟩, 0⟩ t) ∧
      ((filmOf s st).video.queue = [] → (filmOf s st).video.retiring = [] → (∀ u ∈ s.fen.units, u.chan ≠ .audio st) →
        (filmOf t st).flush = none ∧ answered r ⟨⟨.done, .none⟩, 0⟩ t)) ∧
  (∀ (s : State) (r : RecordRef) (c : Byte) (st : StreamId), canTake r s = true → held r s = false →
    streamOfCode c = some st → (filmOf s st).st ≠ .closed → (filmOf s st).closing = false →
    ∃ t, exec (.closeStream r c) s = .next t ∧ (filmOf t st).video.queue = [] ∧ (filmOf t st).video.current = none ∧
      (filmOf t st).audio.queue = [] ∧ (filmOf t st).audio.staging = [] ∧
      (∀ f p, (filmOf s st).video.current = some f → (filmOf s st).video.latches.get p = some f →
        (filmOf t st).st = (filmOf s st).st ∧ (filmOf t st).closing = true ∧ (filmOf t st).close = some ⟨some r⟩ ∧
        f ∈ (filmOf t st).video.retiring ∧ answered r ⟨⟨.pending, .none⟩, 0⟩ t) ∧
      ((filmOf s st).video.queue = [] → (filmOf s st).video.current = none → (filmOf s st).video.retiring = [] →
        (∀ u ∈ s.fen.units, u.chan ≠ .audio st) →
        (filmOf t st).st = .closed ∧ (filmOf t st).closing = false ∧ (filmOf t st).close = none ∧
          answered r ⟨⟨.done, .none⟩, 0⟩ t))

/-! ## Chapter 6: audio mixing and chimes -/

/-- R115, R116, R118, R140: an output sample instant: each output's channels are the two stages of R116 over what the four sources
hand, the chime counting as 0 on a headphone output while the switch is open; the effective gains are kept, the instants counted,
and the UI voice moves on by one sample, to idle at its entry's length. -/
def Obligations.OutputSamplesAreMixed : Prop :=
  ∀ s : State, ∃ t, exec .outputSampleInstant s = .next t ∧
    t.clockNs = max s.clockNs ((s.mix.instants + 1) * 62500 / 3) ∧
    t.mix = { s.mix with out := t.mix.out, instants := s.mix.instants + 1 } ∧
    (∀ o : OutputId,
      let g := s.mix.effective.get o
      let cut (v : Int) : Int := max (-32768) (min 32767 ((v + 16384) / 32768))
      let chime := if o = .cabin ∨ headphoneOn s.che = true then (chimeInstant s.vsr s.che).1 else 0
      let channel (a b : Int) : Int := cut (cut (a * gain g.filmA + b * gain g.filmB + uiSample s.che * gain g.ui + chime * gain g.chime)
        * gain g.master)
      (t.mix.out.get o).l = channel (filmSample s .a).l (filmSample s .b).l ∧
      (t.mix.out.get o).r = channel (filmSample s .a).r (filmSample s .b).r) ∧
    (match s.che.ui with
      | none => t.che.ui = none
      | some u => if u.pos + 1 < (soundOf s.che u.entry).len
          then ∃ v, t.che.ui = some v ∧ v.entry = u.entry ∧ v.pos = u.pos + 1 ∧ v.fetched = u.fetched
          else t.che.ui = none)

/-- R125, R126: at an output sample instant the voice hands the sample of its step: the table value at the phase, scaled by the
level and the envelope that rises and falls over 96 instants; and of a release tail: the step's tone under a falling envelope. -/
def Obligations.ChimeVoicePlaysItsTone : Prop :=
  (∀ (s : State) (p : Playing) (d : ChimeDef) (t : ToneStep), s.che.tail = none → s.che.playing = some p → p.chime.num ≠ 1 →
    p.cycle = none → defOf s.che p.chime.num = some d → d.steps[p.step]? = some t → p.k < 48 * t.dur →
    (chimeInstant s.vsr s.che).1 = (if t.freq = 0 then 0 else
      (((sine (p.phase.toNat / 2 ^ 22) * gain t.level + 16384) / 32768) * (min 96 (min (p.k + 1) (48 * t.dur - p.k)) : Nat)).tdiv 96) ∧
    ∃ u, exec .outputSampleInstant s = .next u ∧ u.che.tail = none ∧ u.che.queue = s.che.queue ∧
      u.che.playing = some { p with k := p.k + 1, phase := p.phase + increment t.freq, sounded := true,
                                    env := min 96 (min (p.k + 1) (48 * t.dur - p.k)) }) ∧
  (∀ (s : State) (x : Tail), s.che.tail = some x → x.j < 96 →
    (chimeInstant s.vsr s.che).1 = (if x.freq = 0 then 0 else
      (((sine (x.phase.toNat / 2 ^ 22) * gain x.level + 16384) / 32768) * (min x.env (95 - x.j) : Nat)).tdiv 96) ∧
    ∃ u, exec .outputSampleInstant s = .next u ∧ u.che.playing = s.che.playing ∧
      u.che.tail = some { x with j := x.j + 1, phase := x.phase + increment x.freq }) ∧
  (∀ s : State, s.che.tail = none → s.che.playing = none → (chimeInstant s.vsr s.che).1 = 0)

/-- R125, R126, R127, R131: the end of a tone step begins the next one; the end of the last one ends a cycle, which counts one
repeat and begins again, or ends the chime, with its notice where it came from a request, and the next entry of the queue plays.
The end of a release tail leaves the voice without one. The two rows act at every position `k` of the step and `j` of the tail: that the
command gives the end, and not the position, is the model's choice (log entry 13). -/
def Obligations.StepAndTailEndsMoveTheVoice : Prop :=
  (∀ (s : State) (p : Playing) (d : ChimeDef), s.che.tail = none → s.che.playing = some p → p.chime.num ≠ 1 →
    defOf s.che p.chime.num = some d →
    ∃ t, exec .toneStepEnd s = .next t ∧ t.che.tail = none ∧
      (if p.step + 1 < d.steps.length then
        t.che.playing = some { p with step := p.step + 1, k := 0, phase := 0 } ∧ t.che.queue = s.che.queue
      else match p.chime.remaining with
        | none => t.che.playing = some { p with step := 0, k := 0, phase := 0 } ∧ t.che.queue = s.che.queue ∧ t.mix = s.mix
        | some n =>
          if 1 < n then
            t.che.playing = some { p with chime := { p.chime with remaining := some (n - 1) }, step := 0, k := 0, phase := 0 } ∧
              t.che.queue = s.che.queue ∧ t.mix = s.mix ∧ slotKept .chimeFinished s t
          else
            (match s.che.queue with
              | [] => t.che.playing = none ∧ t.che.queue = []
              | r :: rest => t.che.playing = some ⟨r, 0, 0, 0, 0, false, none, none⟩ ∧ t.che.queue = rest) ∧
            (if p.chime.origin = .request then noticeRaised .chimeFinished (BitVec.ofNat 32 p.chime.num) p.chime.arrival s t
              else slotKept .chimeFinished s t))) ∧
  (∀ s : State, ∃ t, exec .releaseTailEnd s = .next t ∧ t.che = { s.che with tail := none })

/-- R127 to R130 and R132: PLAY_CHIME: its checks; the renewal of a chime that plays or waits; a new record with the next arrival
number, which plays at once on a free voice, preempts a chime of a lower class, which goes back to the queue, and else takes its
place in the queue, or evicts the lowest-ranked entry of a full one, or is refused. That the arrival counter goes on at a request that is
refused QUEUE_FULL is the model's choice (log entry 51), and so is the tail of a stop between two steps (log entry 50). -/
def Obligations.PlayChimeArrives : Prop :=
  ∀ (s : State) (r : RecordRef) (c : Byte), canTake r s = true → ∃ t, exec (.playChime r c) s = .next t ∧
    (15 < c.toNat → OnlyTouches [.fen, .wai] s t ∧ answered r ⟨⟨.refusedInvalid, .range⟩, 0⟩ t) ∧
    (c = 1 → OnlyTouches [.fen, .wai] s t ∧ answered r ⟨⟨.refusedState, .internal⟩, 0⟩ t) ∧
    (c.toNat ≤ 15 → c ≠ 1 → defOf s.che c.toNat = none →
      OnlyTouches [.fen, .wai] s t ∧ answered r ⟨⟨.refusedState, .empty⟩, 0⟩ t) ∧
    (∀ d, c.toNat ≤ 15 → c ≠ 1 → defOf s.che c.toNat = some d →
      let rep := if d.repeats = 0 then none else some d.repeats
      let record : ChimeRec := ⟨c.toNat, d.cls, d.priority, rep, s.che.counter, .request⟩
      (∀ p, s.che.playing = some p → p.chime.num = c.toNat →
        t.che.playing = some { p with chime := { p.chime with remaining := rep, origin := .request } } ∧
        t.che.queue = s.che.queue ∧ t.che.counter = s.che.counter ∧ t.mix = s.mix ∧ answered r ⟨⟨.done, .none⟩, 0⟩ t) ∧
      (isPlaying s.che c.toNat = false → isQueued s.che c.toNat = true →
        t.che.playing = s.che.playing ∧ t.che.counter = s.che.counter ∧
        t.che.queue = s.che.queue.map (fun q => if q.num = c.toNat then { q with remaining := rep, origin := .request } else q) ∧
        answered r ⟨⟨.doneAdjusted, .none⟩, 0⟩ t) ∧
      (s.che.playing = none → s.che.queue = [] →
        t.che.playing = some ⟨record, 0, 0, 0, 0, false, none, none⟩ ∧ t.che.queue = [] ∧ t.che.tail = s.che.tail ∧
        t.che.counter = (if s.che.counter = 0xFFFFFFFF then 1 else s.che.counter + 1) ∧
        t.mix.duck = (if 0 < d.duck then d.duck else s.mix.duck) ∧ (0 < d.duck → t.mix.duckTimer = none) ∧
        answered r ⟨⟨.done, .none⟩, 0⟩ t) ∧
      (∀ p, s.che.playing = some p → p.chime.num ≠ c.toNat → isQueued s.che c.toNat = false →
        (classRank p.chime.cls < classRank d.cls → s.che.queue.length < 8 →
          t.che.playing = some ⟨record, 0, 0, 0, 0, false, none, none⟩ ∧ t.che.queue = insertRec p.chime s.che.queue ∧
          t.che.tail = tailOf s.che ∧ answered r ⟨⟨.done, .none⟩, 0⟩ t) ∧
        (classRank d.cls ≤ classRank p.chime.cls →
          t.che.playing = s.che.playing ∧ t.che.tail = s.che.tail ∧
          (s.che.queue.length < 8 → t.che.queue = insertRec record s.che.queue ∧ answered r ⟨⟨.done, .none⟩, 0⟩ t) ∧
          (∀ qs low, s.che.queue = qs ++ [low] → 8 ≤ s.che.queue.length →
            if outranks record low then
              t.che.queue = insertRec record qs ∧ answered r ⟨⟨.done, .none⟩, 0⟩ t ∧
              noticeRaised .chimeDropped (BitVec.ofNat 32 (low.num + (if low.origin = .request then 0 else 256) + 65536))
                low.arrival s t
            else t.che.queue = s.che.queue ∧ answered r ⟨⟨.refusedState, .queueFull⟩, 0⟩ t ∧ slotKept .chimeDropped s t))))

/-- R127: a record put into a queue in rank order keeps it in rank order, with the same records and the new one; the ranking is by class,
then by priority, then by the arrival numbers. R127 to R130: after every step the chime queue holds at most 8 records, by class and
within a class by priority, no definition is twice in it or in it and playing, no queued record is of a higher class than the playing
chime, and a queue that holds a record has a playing chime before it. -/
def Obligations.QueueStaysInRankOrder : Prop :=
  (∀ (r : ChimeRec) (q : List ChimeRec), (insertRec r q).Perm (r :: q)) ∧
  (∀ (r : ChimeRec) (pre post : List ChimeRec), (∀ x ∈ pre, outranks r x = false) →
    (∀ x, post.head? = some x → outranks r x = true) → insertRec r (pre ++ post) = pre ++ r :: post) ∧
  (∀ a b : ChimeRec, outranks a b = true ↔
    classRank b.cls < classRank a.cls ∨ (a.cls = b.cls ∧ b.priority < a.priority) ∨
      (a.cls = b.cls ∧ a.priority = b.priority ∧ 2 ^ 31 ≤ (a.arrival - b.arrival).toNat)) ∧
  (∀ s t : State, queueOk s.che = true → step s = .next t → queueOk t.che = true)

/-- R124 and R133: CANCEL_CHIME takes an entry out of the queue, or stops the playing chime with a release tail so that the next
entry plays; DEFINE_CHIME with its checks and clamps defines or empties an entry. The tail of a stop between two steps, and its headphone
flag, are the model's choices (log entries 49 and 50). -/
def Obligations.ChimesAreCancelledAndDefined : Prop :=
  (∀ (s : State) (r : RecordRef) (c : Byte), canTake r s = true → ∃ t, exec (.cancelChime r c) s = .next t ∧
    (15 < c.toNat → OnlyTouches [.fen, .wai] s t ∧ answered r ⟨⟨.refusedInvalid, .range⟩, 0⟩ t) ∧
    (c = 1 → OnlyTouches [.fen, .wai] s t ∧ answered r ⟨⟨.refusedState, .internal⟩, 0⟩ t) ∧
    (c.toNat ≤ 15 → c ≠ 1 → answered r ⟨⟨.done, .none⟩, 0⟩ t ∧ slotKept .chimeFinished s t ∧
      (isQueued s.che c.toNat = true → t.che.playing = s.che.playing ∧ t.che.tail = s.che.tail ∧
        t.che.queue = s.che.queue.filter (fun q => q.num ≠ c.toNat)) ∧
      (isQueued s.che c.toNat = false → isPlaying s.che c.toNat = true → t.che.tail = tailOf s.che ∧
        match s.che.queue with
        | [] => t.che.playing = none ∧ t.che.queue = []
        | q :: rest => t.che.playing = some ⟨q, 0, 0, 0, 0, false, none, none⟩ ∧ t.che.queue = rest) ∧
      (inUse s.che c.toNat = false → OnlyTouches [.fen, .wai] s t))) ∧
  (∀ (s : State) (r : RecordRef) (p : ChimeParams), canTake r s = true → p.steps.length = p.count.toNat →
    ∃ t, exec (.defineChime r p) s = .next t ∧
      (if 15 < p.entry.toNat then OnlyTouches [.fen, .wai] s t ∧ answered r ⟨⟨.refusedInvalid, .range⟩, 0⟩ t
      else if p.entry.toNat ≤ 2 then OnlyTouches [.fen, .wai] s t ∧ answered r ⟨⟨.refusedState, .internal⟩, 0⟩ t
      else if inUse s.che p.entry.toNat then OnlyTouches [.fen, .wai] s t ∧ answered r ⟨⟨.refusedState, .inUse⟩, 0⟩ t
      else if 8 < p.count.toNat ∨ 2 < p.cls.toNat ∨ 15 < p.priority.toNat then
        OnlyTouches [.fen, .wai] s t ∧ answered r ⟨⟨.refusedInvalid, .range⟩, 0⟩ t
      else if p.count = 0 then
        t.che = { s.che with defs := s.che.defs.set p.entry.toNat none } ∧ answered r ⟨⟨.done, .none⟩, 0⟩ t
      else
        let stored (e : StepEntry) : ToneStep := ⟨if e.freq = 0 then 0 else max 200 (min e.freq.toNat 5000),
          max 10 (min e.dur.toNat 2000), min e.level.toNat 192⟩
        let changed (e : StepEntry) : Nat := (if (stored e).freq = e.freq.toNat then 0 else 1)
          + (if (stored e).dur = e.dur.toNat then 0 else 1) + (if (stored e).level = e.level.toNat then 0 else 1)
        let n := (if 48 < p.duck.toNat then 1 else 0) + (p.steps.map changed).sum
        t.che = { s.che with defs := s.che.defs.set p.entry.toNat (some
            { cls := if p.cls = 0 then .safety else if p.cls = 1 then .alert else .comfort
              priority := p.priority.toNat
              duck := min p.duck.toNat 48
              repeats := p.repeats.toNat
              headphone := p.flags.getLsbD 0
              steps := p.steps.map stored }) } ∧
        answered r (if n = 0 then ⟨⟨.done, .none⟩, 0⟩ else ⟨⟨.doneAdjusted, .none⟩, n⟩) t))

/-- R117 to R120, R122: SET_MIX replaces the matrix with its codes clamped to 192; a ramp block moves each effective gain one code
toward its target; the duck hold timer's end leaves the duck depth 0; and the supply state's change to LOW sets the gains of the
films and of UI to 192 and that of CHIME on CABIN to 24 or above. R121, R122: at a change of the playing chime, by the end of a chime, by
CANCEL_CHIME, and by PLAY_CHIME on a free voice or over a chime of a lower class, the new chime's duck depth is taken, or the hold timer of
300 ms starts, and a SAFETY chime lowers the gain of CHIME on CABIN to its target at once; the cycles and renewals of one chime touch
nothing of MIX (`StepAndTailEndsMoveTheVoice`, `PlayChimeArrives`). -/
def Obligations.GainsFollowTheMatrix : Prop :=
  (∀ (s : State) (r : RecordRef) (p : MixParams), canTake r s = true → ∃ t, exec (.setMix r p) s = .next t ∧
    (let code (c : MixCodes) : OutGains :=
      ⟨min c.filmA.toNat 192, min c.filmB.toNat 192, min c.ui.toNat 192, min c.chime.toNat 192, min c.master.toNat 192⟩
    t.mix = { s.mix with matrix := ⟨code p.cabin, code p.headA, code p.headB⟩ } ∧
    (let n := ([p.cabin, p.headA, p.headB].flatMap (fun c => [c.filmA, c.filmB, c.ui, c.chime, c.master])).countP
        (fun b => 192 < b.toNat)
    answered r (if n = 0 then ⟨⟨.done, .none⟩, 0⟩ else ⟨⟨.doneAdjusted, .none⟩, n⟩) t))) ∧
  (∀ s : State, ∃ t, exec .rampBlock s = .next t ∧ t.clockNs = max s.clockNs ((48 * s.mix.blocks + 1) * 62500 / 3) ∧
    t.mix = { s.mix with effective := t.mix.effective, blocks := s.mix.blocks + 1 } ∧
    ∀ o : OutputId,
      let m := s.mix.matrix.get o
      let e := s.mix.effective.get o
      let film (g : Nat) : Nat := if s.smn.low then 192 else min 192 (if o = .cabin then g + s.mix.duck else g)
      let floor := if o = .cabin ∧ safetyPlaying s = true then min m.chime 24 else m.chime
      let chime := min 192 (if o = .cabin ∧ s.smn.low = true then max floor 24 else floor)
      let toward (g target : Nat) : Nat := if g < target then g + 1 else if target < g then g - 1 else g
      t.mix.effective.get o = ⟨toward e.filmA (film m.filmA), toward e.filmB (film m.filmB),
        toward e.ui (if s.smn.low then 192 else min 192 m.ui), toward e.chime chime, toward e.master m.master⟩) ∧
  (∀ (s : State) (due : Nat), s.mix.duckTimer = some due → ∃ t, exec .duckHoldTimer s = .next t ∧
    t.clockNs = max s.clockNs (due * 1000) ∧ t.mix = { s.mix with duck := 0, duckTimer := none }) ∧
  (∀ s : State, s.smn.low = false → 3 ≤ s.smn.lowRun → ∃ t, exec (.supplySample false false) s = .next t ∧
    t.mix.matrix = s.mix.matrix ∧ t.mix.duck = s.mix.duck ∧
    ∀ o : OutputId, t.mix.effective.get o = { s.mix.effective.get o with
      filmA := 192, filmB := 192, ui := 192
      chime := if o = .cabin then max (s.mix.effective.get o).chime 24 else (s.mix.effective.get o).chime }) ∧
  (∀ (s : State) (p : Playing) (d : ChimeDef) (n : Nat), s.che.tail = none → s.che.playing = some p → p.chime.num ≠ 1 →
    defOf s.che p.chime.num = some d → d.steps.length ≤ p.step + 1 → p.chime.remaining = some n → n ≤ 1 →
    ∃ t, exec .toneStepEnd s = .next t ∧ voiceChanged s t) ∧
  (∀ (s : State) (r : RecordRef) (c : Byte), canTake r s = true → c.toNat ≤ 15 → c ≠ 1 → isQueued s.che c.toNat = false →
    isPlaying s.che c.toNat = true → ∃ t, exec (.cancelChime r c) s = .next t ∧ voiceChanged s t) ∧
  (∀ (s : State) (r : RecordRef) (c : Byte) (d : ChimeDef), canTake r s = true → c.toNat ≤ 15 → c ≠ 1 →
    defOf s.che c.toNat = some d →
    (s.che.playing = none ∧ s.che.queue = []) ∨ (∃ p, s.che.playing = some p ∧ p.chime.num ≠ c.toNat ∧
      isQueued s.che c.toNat = false ∧ classRank p.chime.cls < classRank d.cls) →
    ∃ t, exec (.playChime r c) s = .next t ∧ voiceChanged s t ∧ ∃ p, t.che.playing = some p ∧ p.chime.num = c.toNat)

/-- R117, R119: after every step each code of the matrix and each effective gain lies in 0..192. -/
def Obligations.StepKeepsGainCodes : Prop :=
  ∀ s t : State, gainsOk s.mix = true → step s = .next t → gainsOk t.mix = true

/-- R136: a decision point decides the next cycle of the parking cadence from the nearest distance; the end of a cycle begins the
decided one, with its phase at 0 where its tone has an attack; and the first cycle is decided as the cadence begins to sound. The two rows
act at every position `k` of the cycle: that the command gives the point, and not the position, is the model's choice (log entry 13). R135:
at a good PARK_ASSIST frame, where PARK_ASSIST becomes STALE, and at a change of REVERSE the cadence condition is evaluated: where it becomes
true, definition 1 arrives; where it becomes false, it stops; and a good frame that finds it neither playing nor queued brings it again. The
tail of the stop is as `tailOf` says (log entries 49 and 50). R134: REVERSE becoming true brings definition 0 where the policy enables it.
R54: an entry into NO_SIGNAL, by the start timer, by the loss of the camera or by a request in EXIT_HOLD, brings definition 2. -/
def Obligations.CadenceCyclesAreDecided : Prop :=
  let decided (v : Vsr) (was : Bool) (d : Nat) (c : Cycle) : Prop :=
    nearest v.park = some d → c.dist = d ∧
      (if d ≤ 30 then c.kind = .continuous ∧ c.len = 4800 ∧ c.attack = !was
      else c.kind = .beep ∧ c.len = 48 * (100 + 5 * (d - 30)) ∧ c.attack = true)
  (∀ (s : State) (p : Playing) (c : Cycle) (d : Nat), s.che.playing = some p → p.chime.num = 1 → p.cycle = some c →
    ∃ t n, exec .cadenceDecisionPoint s = .next t ∧ t.che = { s.che with playing := some { p with decided := some n } } ∧
      decided s.vsr (c.kind == .continuous) d n) ∧
  (∀ (s : State) (p : Playing) (c n : Cycle), s.che.playing = some p → p.chime.num = 1 → p.cycle = some c →
    p.decided = some n → ∃ t, exec .cadenceCycleEnd s = .next t ∧
      t.che = { s.che with playing := some { p with cycle := some n, decided := none, k := 0,
                                                    phase := if n.attack then 0 else p.phase } }) ∧
  (∀ (s : State) (p : Playing) (d : Nat), s.che.tail = none → s.che.playing = some p → p.chime.num = 1 → p.cycle = none →
    ∃ t q c, exec .outputSampleInstant s = .next t ∧ t.che.playing = some q ∧ q.cycle = some c ∧ q.k = 1 ∧
      q.chime = p.chime ∧ decided s.vsr false d c) ∧
  -- R135: a good PARK_ASSIST frame, and the loss of its freshness
  (∀ (s : State) (run ones : Nat) (seq : BitVec 4) (a b c d : Byte), s.vsr.rx = .hunt run → 8 ≤ ones →
    ∃ t, exec (.parkAssistFrame (vslLine ones (vslHeader .parkAssist seq) [a, b, c, d])) s = .next t ∧
      t.vsr.park = ⟨a, b, c, d, seq, cabin s⟩ ∧ t.vsr.reverse = s.vsr.reverse ∧
      (cadenceHolds t.vsr.reverse t.vsr → t.che.cadence = true ∧
        (s.che.cadence = false ∨ inUse s.che 1 = false → internalArrival 1 s t) ∧
        (s.che.cadence = true → inUse s.che 1 = true → t.che = s.che ∧ t.mix = s.mix)) ∧
      (¬ cadenceHolds t.vsr.reverse t.vsr →
        (s.che.cadence = true → cadenceStopped s t) ∧ (s.che.cadence = false → t.che = s.che ∧ t.mix = s.mix))) ∧
  (∀ (s : State) (due : Nat), s.vsr.parkFresh.deadline = some due → ∃ t, exec (.freshnessDeadline .parkAssist) s = .next t ∧
    (s.che.cadence = true → cadenceStopped s t) ∧ (s.che.cadence = false → t.che = s.che ∧ t.mix = s.mix)) ∧
  -- R134, R135: a change of REVERSE
  (∀ (s : State) (due : Nat), s.vsr.hold = some due → s.vsr.rawRev = true → s.vsr.reverse = false → s.vwc.view = .off →
    s.che.cadence = false →
    ∃ t, exec .holdTimer s = .next t ∧ (t.che.cadence = true ↔ cadenceHolds true s.vsr) ∧
      (¬ cadenceHolds true s.vsr →
        (s.vwc.policy.chimeEnable = true → internalArrival 0 s t) ∧
        (s.vwc.policy.chimeEnable = false → t.che = s.che ∧ t.mix = s.mix)) ∧
      (cadenceHolds true s.vsr → s.vwc.policy.chimeEnable = false → internalArrival 1 s t)) ∧
  (∀ (s : State) (due : Nat), s.vsr.hold = some due → s.vsr.rawRev = false → s.vsr.reverse = true → gearSource s.vsr = false →
    s.che.cadence = true → s.sto.waiting = none → ∃ t, exec .holdTimer s = .next t ∧ cadenceStopped s t) ∧
  -- R54: an entry into NO_SIGNAL
  (∀ (s : State) (due : Nat), s.vwc.startTimer = some due → s.vwc.view = .starting →
    ∃ t, exec .startTimer s = .next t ∧ internalArrival 2 s t) ∧
  (∀ (s : State) (due : Nat), s.cin.deadline = some due → s.cin.stream = .locked → s.vwc.view = .live →
    ∃ t, exec .frameStartDeadline s = .next t ∧ internalArrival 2 s t) ∧
  (∀ (s : State) (r : RecordRef), canTake r s = true → s.vwc.view = .exitHold → s.vsr.motionFresh.st = .valid →
    s.vsr.motion.speedValid = true → s.vsr.motion.speed ≤ s.vwc.policy.manualLimit →
    (pipeOf s .centre).st ≠ .running ∨ s.cin.stream ≠ .locked ∨ s.cin.frozen = true →
    ∃ t, exec (.viewRequest r 1) s = .next t ∧ t.vwc.view = .noSignal ∧ internalArrival 2 s t) ∧
  (∀ p : ParkPart, nearest p = none ↔ p.leftOuter = 255 ∧ p.leftInner = 255 ∧ p.rightInner = 255 ∧ p.rightOuter = 255)

/-- R138 and R140: PLAY_SOUND gives the UI voice a loaded entry at position 0; LOAD_SOUND of a sound takes the lowest-numbered of
the free blocks and of the entry's own, and hands BULK the copy; of length 0 it leaves the entry loaded and empty at once. -/
def Obligations.SoundsAreLoadedAndPlayed : Prop :=
  (∀ (s : State) (r : RecordRef) (c : Byte), canTake r s = true → ∃ t, exec (.playSound r c) s = .next t ∧
    (if 31 < c.toNat then OnlyTouches [.fen, .wai] s t ∧ answered r ⟨⟨.refusedInvalid, .range⟩, 0⟩ t
    else if (soundOf s.che c.toNat).st ≠ .loaded then
      OnlyTouches [.fen, .wai] s t ∧ answered r ⟨⟨.refusedState, .empty⟩, 0⟩ t
    else t.che = { s.che with ui := if (soundOf s.che c.toNat).len = 0 then none else some ⟨c.toNat, 0, 0, []⟩ } ∧
      answered r ⟨⟨.done, .none⟩, 0⟩ t)) ∧
  (∀ (s : State) (r : RecordRef) (p : LoadParams), canTake r s = true → held r s = false → p.entry.toNat ≤ 31 →
    p.len.toNat ≤ 262144 → (soundOf s.che p.entry.toNat).st ≠ .loading → (∀ u, s.che.ui = some u → u.entry ≠ p.entry.toNat) →
    (let old := (soundOf s.che p.entry.toNat).blocks
    let free := (List.range 256).filter (fun b => b ∈ s.che.free ∨ b ∈ old)
    let need := (p.len.toNat + 2047) / 2048
    ∃ t, exec (.loadSound r p) s = .next t ∧
      (p.len = 0 → t.che.bank = s.che.bank.set p.entry.toNat ⟨.loaded, 0, [], none⟩ ∧ t.che.free = free ∧
        t.che.loads = s.che.loads ∧ answered r ⟨⟨.done, .none⟩, 0⟩ t) ∧
      (p.len ≠ 0 → p.addr.toNat % 2 ≠ 0 ∨ insideWindow (requestWindow s) p.addr.toNat (2 * p.len.toNat) = false →
        OnlyTouches [.fen, .wai] s t ∧ answered r ⟨⟨.refusedInvalid, .address⟩, 0⟩ t) ∧
      (p.len ≠ 0 → p.addr.toNat % 2 = 0 → insideWindow (requestWindow s) p.addr.toNat (2 * p.len.toNat) = true →
        if 2 ≤ s.che.loads then OnlyTouches [.fen, .wai] s t ∧ answered r ⟨⟨.refusedState, .busy⟩, 0⟩ t
        else if free.length < need then OnlyTouches [.fen, .wai] s t ∧ answered r ⟨⟨.refusedState, .noRoom⟩, 0⟩ t
        else
          t.che.bank = s.che.bank.set p.entry.toNat ⟨.loading, p.len.toNat, free.take need, some ⟨some r⟩⟩ ∧
          t.che.free = free.drop need ∧ t.che.loads = s.che.loads + 1 ∧ answered r ⟨⟨.pending, .none⟩, 0⟩ t ∧
          (s.smn.low = false → t.fen.bulk = s.fen.bulk ++
            [⟨.sound p.entry.toNat, Channel.started [⟨p.addr.toNat, 2 * p.len.toNat⟩], 0⟩]))))

/-! ## Chapter 7: the fetch engine -/

/-- R146 to R149: the port takes an eligible channel, a plane reader before an audio reader, an audio reader before WORK, and WORK
before BULK, of which it takes the oldest transfer that is ACTIVE; among plane readers the first pipe in the rotation order that
has an eligible reader, and of its slots the first eligible one after the slot last granted, wrapping from 5 to 0. With no eligible
channel it waits. -/
def Obligations.SystemPortChoosesByClass : Prop :=
  (∀ (s : State) (c : ChanId), systemChoice s = some c →
    eligible s c = true ∧
    (∀ p slot, slot < 6 → eligible s (.plane p slot) = true → ∃ q n, c = .plane q n ∧ n < 6 ∧
      ∀ o, s.fen.rotation.order.idxOf o < s.fen.rotation.order.idxOf q → ∀ k < 6, eligible s (.plane o k) = false) ∧
    (∀ q n, c = .plane q n → ∃ i < 6, n = (s.fen.lastSlot.get q + 1 + i) % 6 ∧
      ∀ j < i, eligible s (.plane q ((s.fen.lastSlot.get q + 1 + j) % 6)) = false) ∧
    (∀ st, eligible s (.audio st) = true → (∃ q n, c = .plane q n) ∨ ∃ o, c = .audio o ∧
      (eligible s (.audio s.fen.audioTurn) = true → o = s.fen.audioTurn)) ∧
    (eligible s .work = true → ∀ id, c ≠ .bulk id) ∧
    (∀ id, c = .bulk id → ∃ pre b post, s.fen.bulk = pre ++ b :: post ∧ b.id = id ∧ b.chan.st = .active ∧
      ∀ x ∈ pre, x.chan.st ≠ .active)) ∧
  (∀ s : State, (∀ p, ∀ slot < 6, eligible s (.plane p slot) = false) → (∀ st, eligible s (.audio st) = false) →
    eligible s .work = false → (∀ id, eligible s (.bulk id) = false) →
    ∃ t, exec .systemPortGrant s = .next t ∧ OnlyTouches [.fen, .wai] s t ∧ t.fen.units = s.fen.units)

/-- R145, R147, R148, R150, R157: a grant of a read takes a free place of the 16 for the channel's next unit, of at most the unit
limit, inside a 4 KiB page and inside the host window but for WORK, with 50 ms to complete, and turns the rotation of its class. A
write of WORK is issued with its bytes and is complete at once, and so is a write of the copy out of READ_SETTINGS (R195), whose last one
ends the read. A unit outside the window is not issued: one of the copy out ends the read FAILED/FETCH, with no notice of its own, and one
of the copy in the write (R190). That such a unit leaves the turns as they are is the model's choice (log entry 28). -/
def Obligations.SystemPortGrantsOneUnit : Prop :=
  (∀ (s : State) (c : ChanId) (u : Range), systemChoice s = some c → nextUnit c (channelOf s.fen c).toReq = some u →
    (∃ r rest, (channelOf s.fen c).toReq = r :: rest ∧ u.addr = r.addr ∧ u.len ≤ r.len ∧
      u.len ≤ (match c with | .plane _ _ => 512 | _ => 256) ∧ u.addr % 4096 + u.len ≤ 4096) ∧
    (writesSystem s.fen c = false → (c = .work ∨ insideWindow s.fen.window u.addr u.len = true) →
      ∃ t place, exec .systemPortGrant s = .next t ∧ place < 16 ∧ place ∉ placesUsed s.fen ∧
        t.fen.units = s.fen.units ++ [⟨place, c, u.addr, u.len, now s + 50000, .inFlight, false⟩] ∧
        (channelOf t.fen c).toReq = advance u.len (channelOf s.fen c).toReq ∧
        (channelOf t.fen c).toMove = (channelOf s.fen c).toMove ∧
        (∀ p slot, c = .plane p slot → t.fen.rotation.order.getLast? = some p ∧ t.fen.lastSlot.get p = slot ∧
          t.fen.audioTurn = s.fen.audioTurn) ∧
        (∀ st, c = .audio st → t.fen.audioTurn ≠ st ∧ t.fen.rotation = s.fen.rotation ∧ t.fen.lastSlot = s.fen.lastSlot)) ∧
    (∀ p slot, c = .plane p slot → insideWindow s.fen.window u.addr u.len = false →
      ∃ t, exec .systemPortGrant s = .next t ∧ t.fen.units.length ≤ s.fen.units.length ∧ t.sysMem = s.sysMem ∧
        t.fen.rotation = s.fen.rotation)) ∧
  (∀ (s : State) (i : WorkItem) (rest : List WorkItem) (u : Range), systemChoice s = some .work → s.fen.work = i :: rest →
    i.job = .write → nextUnit .work i.chan.toReq = some u →
    ∃ t more, exec .systemPortGrant s = .next t ∧
      t.sysMem = Memory.writeBytes systemSize s.sysMem u.addr (i.data.take u.len) ∧ t.fen.units = s.fen.units ∧
      t.fen.work = (if advance u.len i.chan.toReq = [] then rest
        else { i with chan := { i.chan with toReq := advance u.len i.chan.toReq, toMove := advance u.len i.chan.toReq },
                      data := i.data.drop u.len } :: rest) ++ more) ∧
  (∀ (s : State) (u : Range), systemChoice s = some (.bulk .settingsOut) →
    nextUnit (.bulk .settingsOut) (bulkChannel s.fen.bulk .settingsOut).toReq = some u →
    insideWindow s.fen.window u.addr u.len = true →
    let left := advance u.len (bulkChannel s.fen.bulk .settingsOut).toReq
    ∃ t, exec .systemPortGrant s = .next t ∧
      ((∀ v ∈ s.fen.units, v.chan ≠ .bulk .settingsOut) → t.fen.units = s.fen.units) ∧
      t.sysMem = Memory.writeBytes systemSize s.sysMem u.addr ((s.sto.readImage.drop (u.addr - s.sto.readAddr)).take u.len) ∧
      (left ≠ [] → t.sto = s.sto ∧ (bulkChannel t.fen.bulk .settingsOut).toReq = left ∧
        (bulkChannel t.fen.bulk .settingsOut).toMove = left) ∧
      (left = [] → t.sto = { s.sto with readPhase := .idle, readReq := none } ∧
        t.fen.bulk = s.fen.bulk.filter (fun b => b.id ≠ .settingsOut))) ∧
  (∀ (s : State) (u : Range), systemChoice s = some (.bulk .settingsOut) →
    nextUnit (.bulk .settingsOut) (bulkChannel s.fen.bulk .settingsOut).toReq = some u →
    insideWindow s.fen.window u.addr u.len = false →
    ∃ t, exec .systemPortGrant s = .next t ∧ t.sysMem = s.sysMem ∧
      t.sto = { s.sto with readPhase := .idle, readReq := none } ∧ slotKept .settingsState s t ∧
      t.fen.bulk = s.fen.bulk.filter (fun b => b.id ≠ .settingsOut) ∧
      (∀ q, s.sto.readReq = some ⟨some q⟩ → s.wai.taken.any (·.isOf q) = true → finalGiven q ⟨.failed, .fetch⟩ t)) ∧
  (∀ (s : State) (u : Range), systemChoice s = some (.bulk .settingsIn) →
    nextUnit (.bulk .settingsIn) (bulkChannel s.fen.bulk .settingsIn).toReq = some u →
    insideWindow s.fen.window u.addr u.len = false →
    ∃ t, exec .systemPortGrant s = .next t ∧ t.sysMem = s.sysMem ∧
      t.sto = { s.sto with writePhase := .idle, writeReq := none, lastOutcome := some .fetch } ∧
      t.fen.bulk = s.fen.bulk.filter (fun b => b.id ≠ .settingsIn) ∧
      (∀ q, s.sto.writeReq = some ⟨some q⟩ → s.wai.taken.any (·.isOf q) = true → finalGiven q ⟨.failed, .fetch⟩ t))

/-- R150: a completion of a channel's only unit in flight hands its data to the channel's owner: to a plane reader's line, which is held
for the compositor when it is whole and not late, with the next line asked for (R145, R91); to the staging store of a film stream, with
the buffer retired at its last sample frame, unless a flush has discarded it (R104, R108); to BULK's data store (R149); and to the staged
image, which is checked at its last byte (R190). A completion that comes before that of an older unit of its channel is held, and frees its
place; the completion of the older one then hands over both, in their order. A late or unwanted completion only frees the unit's place. A
read unit that fails by its status or by 50 ms without a completion removes a plane, with its notice (R82), ends the head buffer of an
audio reader, with its notice, and starts the reader on the next one in OPEN, and else stops it (R107), ends the sound load of a BULK copy
(R139) and the settings copy of WRITE_SETTINGS with FAILED/FETCH (R190), and is the end of an attach or of an attachment for WORK (R164, R168);
one that timed out keeps its place for 50 ms more (R154). An error of a buffer that a flush has discarded is counted and ends no other one,
which is the model's reading (log entry 31). -/
def Obligations.UnitsCompleteOrFail : Prop :=
  (∀ (s : State) (place : Nat) (ok : Bool) (data : List Byte) (u : FetchUnit), unitAt s.fen place = some u →
    (∀ st, u.chan ≠ .audio st) → u.phase = .orphan ∨ (∃ n, u.phase = .timedOut n) →
    ∃ t, exec (.readCompletion place ok data) s = .next t ∧ OnlyTouches [.fen, .wai] s t ∧
      t.fen.units = s.fen.units.eraseP (isAt place)) ∧
  (∀ (s : State) (place : Nat) (data : List Byte) (u : FetchUnit) (r : Range), soleUnit s place u → data.length = u.len →
    (channelOf s.fen u.chan).toMove = [r] →
    -- inside the line of a plane
    (∀ p slot, u.chan = .plane p slot → slot < (pipeOf s p).readers.length → (readerOf (pipeOf s p) slot).busy = true → u.len < r.len →
      ∃ t, exec (.readCompletion place true data) s = .next t ∧ unitAt t.fen place = none ∧
        readerOf (pipeOf t p) slot = { readerOf (pipeOf s p) slot with got := (readerOf (pipeOf s p) slot).got ++ data } ∧
        channelOf t.fen u.chan = { channelOf s.fen u.chan with toMove := [⟨r.addr + u.len, r.len - u.len⟩] }) ∧
    -- the end of the line of a plane
    (∀ p slot q, u.chan = .plane p slot → slot < (pipeOf s p).readers.length → planeOf (pipeOf s p) slot = some q →
      (readerOf (pipeOf s p) slot).busy = true → u.len = r.len →
      let x := readerOf (pipeOf s p) slot
      let bytes := x.got ++ data
      let chroma := if x.lumaLen < bytes.length then bytes.drop x.lumaLen else x.chroma
      ∃ t, exec (.readCompletion place true data) s = .next t ∧ unitAt t.fen place = none ∧
        (readerOf (pipeOf t p) slot).next = x.next + 1 ∧ (readerOf (pipeOf t p) slot).got = [] ∧
        (readerOf (pipeOf t p) slot).lines = (if q.y + x.next < (pipeOf s p).outLine then x.lines
          else x.lines ++ [⟨x.next, bytes.take x.lumaLen, chroma⟩]) ∧
        channelOf t.fen u.chan = (if x.fetched = true ∧ (readerOf (pipeOf t p) slot).lines.length < 2 ∧
            x.next + 1 < (sourceSize s p q).2 then Channel.started (lineRanges s p q (x.next + 1)) else idleChannel)) ∧
    -- sample frames
    (∀ st b rest, u.chan = .audio st → (filmOf s st).audio.queue = b :: rest →
      ∃ t, exec (.readCompletion place true data) s = .next t ∧ unitAt t.fen place = none ∧
        (u.discard = true → (filmOf t st).audio.staging = (filmOf s st).audio.staging ∧ (filmOf t st).audio.queue = b :: rest) ∧
        (u.discard = false → (filmOf t st).audio.staging = (filmOf s st).audio.staging ++ samplesOf data ∧
          if b.len ≤ b.off + data.length / 4 then (filmOf t st).audio.queue = rest ∧
            ((filmOf s st).audio.discarded = [] → (filmOf t st).audio.lastRetired = b.token)
          else (filmOf t st).audio.queue = { b with off := b.off + data.length / 4 } :: rest)) ∧
    -- a unit of a sound load
    (∀ n, u.chan = .bulk (.sound n) → ∃ t, exec (.readCompletion place true data) s = .next t ∧ unitAt t.fen place = none ∧
      t.fen.store = s.fen.store ++ [(.sound n, data)] ∧ t.che = s.che ∧
      (bulkChannel t.fen.bulk (.sound n)).toMove = advance u.len [r]) ∧
    -- the settings image that WRITE_SETTINGS copies in
    (u.chan = .bulk .settingsIn → ∃ t, exec (.readCompletion place true data) s = .next t ∧ unitAt t.fen place = none ∧
      t.sto.staged = s.sto.staged ++ data ∧ t.sto.running = s.sto.running ∧
      (u.len < r.len → (bulkChannel t.fen.bulk .settingsIn).toMove = [⟨r.addr + u.len, r.len - u.len⟩] ∧
        t.sto.writePhase = s.sto.writePhase) ∧
      (u.len = r.len → t.fen.bulk = s.fen.bulk.filter (fun b => b.id ≠ .settingsIn) ∧
        (∀ reason, imageFault (s.sto.staged ++ data) = some reason → t.sto.writePhase = .idle ∧ t.sto.writeReq = none ∧
          t.sto.lastOutcome = some (.image reason)) ∧
        (imageFault (s.sto.staged ++ data) = none → t.sto.lastOutcome = s.sto.lastOutcome ∧ t.sto.writeReq = s.sto.writeReq ∧
          t.sto.writePhase = (if s.smn.low then .waitSupply else .erasing) ∧
          (s.smn.low = false → s.sto.flash = none → t.sto.flash = some (if s.sto.notReady then .readyWait true (s.clockNs + 1000000000)
            else .erase (s.clockNs + 1000000000))))))) ∧
  -- a completion before that of an older unit of its channel
  (∀ (s : State) (place : Nat) (data : List Byte) (u v : FetchUnit), placesOk s.fen = true → unitAt s.fen place = some u →
    u.phase = .inFlight → data.length = u.len → s.fen.units.find? (isLiveOf u.chan) = some v → v.phase = .inFlight → v.place ≠ place →
    ∃ t, exec (.readCompletion place true data) s = .next t ∧ OnlyTouches [.fen, .wai] s t ∧ place ∉ placesUsed t.fen ∧
      t.fen.units = s.fen.units.map (fun x => if isAt place x then { x with phase := .held data } else x) ∧
      (u.chan ≠ .work → channelOf t.fen u.chan = channelOf s.fen u.chan)) ∧
  (∀ (s : State) (place : Nat) (data later : List Byte) (v w : FetchUnit), placesOk s.fen = true → unitAt s.fen place = some v →
    v.phase = .inFlight → s.fen.units.filter (isLiveOf v.chan) = [v, w] → w.phase = .held later → data.length = v.len →
    (∀ n, v.chan = .bulk (.sound n) → ∃ t, exec (.readCompletion place true data) s = .next t ∧
      t.fen.store = s.fen.store ++ [(.sound n, data), (.sound n, later)] ∧ (∀ x ∈ t.fen.units, isLiveOf v.chan x = false) ∧
      (bulkChannel t.fen.bulk (.sound n)).toMove
        = advance later.length (advance data.length (bulkChannel s.fen.bulk (.sound n)).toMove)) ∧
    (∀ r, v.chan = .bulk .settingsIn → (bulkChannel s.fen.bulk .settingsIn).toMove = [r] → data.length + later.length < r.len →
      ∃ t, exec (.readCompletion place true data) s = .next t ∧
        t.sto = { s.sto with staged := s.sto.staged ++ data ++ later } ∧ (∀ x ∈ t.fen.units, isLiveOf v.chan x = false) ∧
        (bulkChannel t.fen.bulk .settingsIn).toMove
          = [⟨r.addr + data.length + later.length, r.len - data.length - later.length⟩])) ∧
  (∀ (a b c d : Byte) (rest : List Byte), samplesOf (a :: b :: c :: d :: rest) = ⟨b ++ a, d ++ c⟩ :: samplesOf rest) ∧
  (∀ (s : State) (place : Nat) (data : List Byte) (u : FetchUnit), unitAt s.fen place = some u → u.phase = .inFlight →
    ∀ c ∈ [Instr.readCompletion place false data, .unitTimeout place], ∃ t, exec c s = .next t ∧
      (c = .unitTimeout place → t.clockNs = max s.clockNs (u.deadline * 1000)) ∧
      (∀ p slot q, u.chan = .plane p slot → planeOf (pipeOf s p) slot = some q → q.kind ≠ .fill →
        planeOf (pipeOf t p) slot = none ∧ (∀ k, k ≠ slot → planeOf (pipeOf t p) k = planeOf (pipeOf s p) k) ∧
        channelOf t.fen u.chan = idleChannel ∧
        noticeRaised .fetchFault (BitVec.ofNat 32 (pipeCode p + 256 * slot + 65536 * planeKindCode q.kind)) (BitVec.ofNat 32 u.addr) s t) ∧
      (u.chan = .work → s.wai.st = .attached → t.wai.st = .faulted ∧ t.wai.cause = .workFetch ∧ t.wai.anchor = none ∧
        t.wai.taken = [] ∧ t.fen.work = [] ∧ t.fen.window = none) ∧
      (u.chan = .work → s.wai.st = .attaching → t.wai.st = .detached ∧ t.wai.cause = .anchorFetch ∧ t.fen.work = []) ∧
      (∀ n e, u.chan = .bulk (.sound n) → s.che.bank[n]? = some e → t.che.bank = s.che.bank.set n ⟨.empty, 0, [], none⟩ ∧
        t.che.loads = s.che.loads - 1 ∧ (∀ b, b ∈ t.che.free ↔ b < 256 ∧ (b ∈ s.che.free ∨ b ∈ e.blocks)) ∧
        (∀ b ∈ t.fen.bulk, b.id ≠ .sound n) ∧
        (∀ q, e.load = some ⟨some q⟩ → s.wai.taken.any (·.isOf q) = true → finalGiven q ⟨.failed, .fetch⟩ t)) ∧
      (u.chan = .bulk .settingsIn →
        t.sto = { s.sto with writePhase := .idle, writeReq := none, lastOutcome := some .fetch } ∧
        t.fen.bulk = s.fen.bulk.filter (fun b => b.id ≠ .settingsIn) ∧
        noticeRaised .settingsState (BitVec.ofNat 32 (327685 + 256 * sourceCode s.sto.source)) (u32At s.sto.staged 12) s t ∧
        (∀ q, s.sto.writeReq = some ⟨some q⟩ → s.wai.taken.any (·.isOf q) = true → finalGiven q ⟨.failed, .fetch⟩ t)) ∧
      (∀ st, u.chan = .audio st →
        let a := (filmOf s st).audio
        let word : Word := BitVec.ofNat 32 (512 + streamCode st + if (filmOf s st).st = .held then 65536 else 0)
        (filmOf t st).audio.errors = a.errors + 1 ∧ (filmOf t st).audio.staging = a.staging ∧
        (filmOf t st).audio.underrun = a.underrun ∧ (filmOf t st).video.queue = (filmOf s st).video.queue ∧
        (∀ b rest, u.discard = false → a.queue = b :: rest →
          (filmOf t st).audio.queue = rest ∧ (filmOf t st).audio.lastError = b.token ∧
          (a.discarded = [] → (filmOf t st).audio.lastRetired = b.token) ∧
          noticeRaised .filmAudioUnderrun word b.token s t ∧
          (rest = [] ∨ (filmOf s st).st ≠ .opened → t.fen.audio.get st = idleChannel) ∧
          (∀ n more, rest = n :: more → (filmOf s st).st = .opened → (∀ x ∈ s.fen.units, x.chan = .audio st → x.discard = false) →
            t.fen.audio.get st = Channel.started [⟨n.addr.toNat + 4 * n.off, 4 * (n.len - n.off)⟩] ∧
            (filmOf t st).audio.reading = some n.token)) ∧
        (∀ token more, u.discard = true → a.discarded = token :: more →
          (filmOf t st).audio.queue = a.queue ∧ (filmOf t st).audio.lastError = token ∧
          noticeRaised .filmAudioUnderrun word token s t))) ∧
  (∀ (s : State) (place : Nat) (u : FetchUnit), unitAt s.fen place = some u → u.phase = .orphan → (∀ st, u.chan ≠ .audio st) →
    ∃ t, exec (.unitTimeout place) s = .next t ∧ OnlyTouches [.clock, .fen, .wai] s t ∧
      t.clockNs = max s.clockNs (u.deadline * 1000) ∧
      ∃ v, unitAt t.fen place = some v ∧ v.phase = .timedOut (u.deadline + 50000) ∧ v.chan = u.chan) ∧
  (∀ (s : State) (place n : Nat) (u : FetchUnit), unitAt s.fen place = some u → u.phase = .timedOut n →
    ∃ t, exec (.timeoutPlaceRelease place) s = .next t ∧ t.clockNs = max s.clockNs (n * 1000) ∧
      t.fen.units = s.fen.units.eraseP (isAt place))

/-- R145, R151: the free local port takes the first eligible unit in its order, of at most 512 bytes, with what it writes, and a busy one
nothing more. A unit always completes: what it writes is in local memory, and nothing else there changes; one that its user no longer
wants does no more than that. One that its user wants takes its bytes off CAM_WR, and in test mode the generator hands its next line
(R34, log entry 15); completes a run of the guide lines at GUIDE_WR's last (R59); brings a camera or overlay reader its bytes, or the
bank reader its samples, from local memory; and ends a sound load, as LOADED, at its last byte (R139). Which data of two ACTIVE copies
BULK writes first is the model's choice (log entry 52), and so is where a unit of the bank reader begins and ends (`bankRange`, log
entry 55). -/
def Obligations.LocalPortMovesOneUnit : Prop :=
  (∀ s : State, s.fen.localUnit = none → ∃ t, exec .localPortGrant s = .next t ∧ OnlyTouches [.fen, .wai] s t ∧
    t.fen.localUnit = localChoice s ∧
    (∀ r rest, s.fen.camWr.st = .active → s.fen.camWr.toReq = r :: rest →
      t.fen.localUnit = some ⟨.camWr, r.addr, min 512 r.len, [(r.addr, s.fen.camData.take (min 512 r.len))], true⟩ ∧
      t.fen.camWr.toReq = advance (min 512 r.len) (r :: rest)) ∧
    (localRange s.fen.camWr = none → ∀ r q, layerRange s.fen.camRead = some r → layerRange s.fen.ovlRead = some q →
      if s.fen.ovlTurn then t.fen.localUnit = some ⟨.ovlRead, q.addr, q.len, [], true⟩ ∧ t.fen.ovlTurn = false
      else t.fen.localUnit = some ⟨.camRead, r.addr, r.len, [], true⟩ ∧ t.fen.ovlTurn = true) ∧
    (localRange s.fen.camWr = none → layerRange s.fen.camRead = none → layerRange s.fen.ovlRead = none →
      (∀ r rest x, s.fen.guideWr.st = .active → s.fen.guideWr.toReq = r :: rest → s.glg.run = some x →
        t.fen.localUnit = some ⟨.guideWr, r.addr, min 512 r.len,
          [(r.addr, guideBytes x (r.addr - overlayAddr (!s.glg.front1)) (min 512 r.len))], true⟩ ∧
        t.fen.guideWr.toReq = advance (min 512 r.len) (r :: rest)) ∧
      (localRange s.fen.guideWr = none →
        (∀ r, bankRange s.che = some r → t.fen.localUnit = some ⟨.bank, r.addr, r.len, [], true⟩) ∧
        (∀ n data, bankRange s.che = none → storeHead s.fen = some (.sound n, data) →
          t.fen.localUnit = some ⟨.bulk (.sound n), bulkWritten s.fen (.sound n), data.length,
            bankWrites (soundOf s.che n) (bulkWritten s.fen (.sound n)) data, true⟩)))) ∧
  (∀ (s : State) (u : LocalUnit), s.fen.localUnit = some u → ∃ t, exec .localPortGrant s = .next t ∧
    OnlyTouches [.fen, .wai] s t ∧ t.fen.localUnit = some u) ∧
  (∀ (s : State) (u : LocalUnit), s.fen.localUnit = some u → ∃ t, exec .localUnitCompletion s = .next t ∧ t.fen.localUnit = none ∧
    t.localMem = u.writes.foldl (fun m w => Memory.writeBytes localSize m w.1 w.2) s.localMem ∧
    (u.live = false → OnlyTouches [.localMem, .fen, .wai] s t ∧ t.fen.camWr = s.fen.camWr ∧ t.fen.camData = s.fen.camData ∧
      t.fen.guideWr = s.fen.guideWr ∧ t.fen.camRead = s.fen.camRead ∧ t.fen.ovlRead = s.fen.ovlRead ∧ t.fen.bulk = s.fen.bulk ∧
      t.fen.store = s.fen.store) ∧
    -- CAM_WR
    (∀ r, u.live = true → u.user = .camWr → s.fen.camWr.toMove = [r] →
      (u.len < r.len → t.fen.camWr = { s.fen.camWr with toMove := [⟨r.addr + u.len, r.len - u.len⟩] } ∧
        t.fen.camData = s.fen.camData.drop u.len ∧ t.cin = s.cin) ∧
      (u.len = r.len → s.cin.source = .port → t.fen.camWr = idleChannel ∧ t.fen.camData = s.fen.camData.drop u.len) ∧
      (∀ f, u.len = r.len → s.cin.source = .test → s.cin.frame = some f → f.ended = false → f.lines < f.h →
        t.fen.camWr = Channel.started [⟨2048000 * f.buf + f.lines * (2 * f.w), 2 * f.w⟩] .write ∧
        t.fen.camData = storedLine f.mirror (testLine f.w) ∧
        ∃ g, t.cin = { s.cin with frame := some { f with lines := f.lines + 1, store := none, sig := g } })) ∧
    -- GUIDE_WR
    (∀ r x, u.live = true → u.user = .guideWr → s.fen.guideWr.toMove = [r] → s.glg.run = some x →
      (u.len < r.len → t.fen.guideWr = { s.fen.guideWr with toMove := [⟨r.addr + u.len, r.len - u.len⟩] } ∧ t.glg = s.glg) ∧
      (u.len = r.len →
        let tag : OverlayTag := match x.mode with | .full => .full | .staticOnly => .static | _ => .empty
        t.fen.guideWr = idleChannel ∧ t.glg = { s.glg with
          run := none, backDone := true
          tag0 := if s.glg.front1 then tag else s.glg.tag0
          tag1 := if s.glg.front1 then s.glg.tag1 else tag })) ∧
    -- the camera reader and the overlay reader
    (let arrives (l l' : LayerReader) : Prop :=
      let got := l.got ++ readLocal s u.addr u.len
      if got.length < l.rowLen then l' = { l with got := got }
      else l' = { l with next := l.next + 1, got := [], lines :=
        if (l.next : Int) + s.cmp.comp.cy < (pipeOf s .centre).outLine then l.lines else l.lines ++ [(l.next, got)] }
    (u.live = true → u.user = .camRead → u.writes = [] → arrives s.fen.camRead t.fen.camRead ∧ OnlyTouches [.fen, .wai] s t) ∧
    (u.live = true → u.user = .ovlRead → u.writes = [] → arrives s.fen.ovlRead t.fen.ovlRead ∧ OnlyTouches [.fen, .wai] s t)) ∧
    -- the bank reader
    (∀ v, u.live = true → u.user = .bank → u.writes = [] → s.che.ui = some v → u.addr = v.fetched →
      v.pos ≤ v.fetched - v.held.length →
      t.che = { s.che with ui := some { v with
        fetched := v.fetched + u.len / 2
        held := v.held ++ (List.range (u.len / 2)).map (fun k =>
          u16At (readLocal s (bankByte (soundOf s.che v.entry) (2 * u.addr)) u.len) (2 * k)) } }) ∧
    -- a sound load
    (∀ n, u.live = true → u.user = .bulk (.sound n) →
      if 2 * (soundOf s.che n).len ≤ u.addr + u.len then
        t.che = { s.che with
          bank := s.che.bank.set n { soundOf s.che n with st := .loaded, load := none }
          loads := s.che.loads - 1 } ∧
        t.fen.store = (s.fen.store.eraseP (fun d => d.1 == .sound n)).filter (fun d => d.1 ≠ .sound n) ∧
        ∀ b ∈ t.fen.bulk, b.id ≠ .sound n
      else t.che = s.che ∧ t.fen.store = s.fen.store.eraseP (fun d => d.1 == .sound n) ∧
        t.fen.bulk = s.fen.bulk.map (fun b => if b.id = .sound n then { b with written := b.written + u.len } else b)))

/-! ## Chapter 8: the work area, its registers and its notices -/

/-- R161, R163, R166, R167, R169: ATTACH in DETACHED and FAULTED reads the 256-byte anchor at an aligned base, fails with ALIGN at
another one, and is ignored in the other states; DETACH leaves every state for DETACHED, ATTACHED with its effects, among them that every
plane reader and audio reader is stopped (R158); and a link reset does so too, ends every unit in flight, and clears the registers and the
cause. R164, R165: the completion of the anchor read makes the five checks in their order; a bad anchor ends the attach with its cause and
writes nothing, and a good one is taken, clamped, and followed by the four transfers of the initial board write; the last unit of the last
one makes WAI ATTACHED, with the host window in force and the scan period timer running. The time in the first board header, and that a
ring or a board past the last address is taken, are the model's choices (log entries 19 and 53). -/
def Obligations.AttachDetachAndLinkReset : Prop :=
  (∀ s : State, s.wai.st = .detached ∨ s.wai.st = .faulted → ∃ t, exec .attach s = .next t ∧
    t.wai.ignored = false ∧ t.wai.adjusted = false ∧
    (if s.wai.wbase.toNat % 4096 = 0 then t.wai.st = .attaching ∧ t.wai.cause = .none ∧
      t.fen.work = s.fen.work ++ [⟨.anchorRead, Channel.started [⟨s.wai.wbase.toNat, 256⟩], []⟩]
    else t.wai.st = .detached ∧ t.wai.cause = .align ∧ t.fen = s.fen)) ∧
  (∀ s : State, s.wai.st = .attaching ∨ s.wai.st = .attached → ∃ t, exec .attach s = .next t ∧
    t.wai.ignored = true ∧ t.wai.st = s.wai.st ∧ t.wai.cause = s.wai.cause ∧ t.wai.anchor = s.wai.anchor ∧
    t.fen.window = s.fen.window) ∧
  (∀ s : State, ∃ t, exec .detach s = .next t ∧ t.wai.st = .detached ∧ t.wai.cause = s.wai.cause ∧
    (s.wai.st = .detached → t = s) ∧
    (s.wai.st = .attaching → t.wai.anchor = none ∧ t.fen.work = [] ∧ t.wai.wanted = false ∧
      t.wai.slots = s.wai.slots.map (fun x => { x with dirty := false })) ∧
    (s.wai.st = .attached → t.wai.anchor = none ∧ t.fen.work = [] ∧ t.fen.window = none ∧ t.wai.taken = [] ∧
      t.wai.answers = [] ∧ t.wai.scanQueue = [] ∧ t.wai.scanTimer = none ∧ t.wai.msiTimer = none ∧ t.wai.wanted = false ∧
      t.wai.expected = s.wai.expected ∧ (∀ st, (filmOf t st).st = .closed) ∧
      (∀ p, ∀ e ∈ (pipeOf t p).active.slots, ∀ q, e = some q → q.kind = .fill) ∧
      (∀ p, ∀ slot < 6, channelOf t.fen (.plane p slot) = idleChannel) ∧ (∀ st, channelOf t.fen (.audio st) = idleChannel)) ∧
    (s.wai.st = .faulted → OnlyTouches [.wai, .link] s t)) ∧
  (∀ s : State, ∃ t, exec .linkReset s = .next t ∧ t.wai.st = .detached ∧ t.wai.cause = .none ∧ t.wai.ignored = false ∧
    t.wai.adjusted = false ∧ t.wai.wbase = 0 ∧ t.wai.timeLatch = 0 ∧ t.fen.units = [] ∧ t.wai.counter = s.wai.counter ∧
    t.wai.expected = s.wai.expected ∧ (s.wai.st ≠ .detached → s.wai.st ≠ .faulted → t.fen.work = [])) ∧
  (∀ b : List Byte,
    let pages := (u32At b 4).toNat
    let ring := (u32At b 32).toNat
    let board := (u32At b 36).toNat
    let apart := 256 ≤ ring ∧ 256 ≤ board ∧ (ring + 1024 * pages ≤ board ∨ board + 4096 ≤ ring)
    anchorFault b = (if u32At b 0 ≠ 0x41574346 then some .magic
      else if pages < 4 ∨ 32 < pages then some .pageCount
      else if ring % 1024 ≠ 0 ∨ board % 64 ≠ 0 then some .align
      else if ¬ apart then some .overlap
      else if 2 ^ 64 < (u64At b 16).toNat + (u64At b 24).toNat then some .window
      else none)) ∧
  (∀ (s : State) (place : Nat) (data : List Byte) (u : FetchUnit) (i : WorkItem) (r : Range), soleUnit s place u → u.chan = .work →
    s.wai.st = .attaching → s.fen.work = [i] → i.job = .anchorRead → i.chan.toMove = [r] → u.len = r.len → data.length = u.len →
    let b := i.data ++ data
    ∃ t, exec (.readCompletion place true data) s = .next t ∧ t.sysMem = s.sysMem ∧
      (∀ cause, anchorFault b = some cause → t.wai.st = .detached ∧ t.wai.cause = cause ∧ t.wai.anchor = none ∧ t.fen.work = [] ∧
        t.wai.counter = s.wai.counter ∧ t.wai.expected = s.wai.expected) ∧
      (anchorFault b = none →
        let board := s.wai.base + (u32At b 36).toNat
        let odd := if s.wai.counter.getLsbD 0 then s.wai.counter + 2 else s.wai.counter + 1
        t.wai.st = .attaching ∧ t.wai.cause = s.wai.cause ∧
        t.wai.anchor = some
          { pages := (u32At b 4).toNat
            period := if u32At b 8 = 0 then 4 else min (u32At b 8).toNat 20
            msi := min (u32At b 12).toNat 10
            winBase := (u64At b 16).toNat
            winSize := (u64At b 24).toNat
            ring := s.wai.base + (u32At b 32).toNat
            board := board } ∧
        (t.wai.adjusted = true ↔ u32At b 8 = 0 ∨ 20 < (u32At b 8).toNat ∨ 10 < (u32At b 12).toNat) ∧
        t.wai.expected = 1 ∧ t.wai.taken = [] ∧ t.wai.answers = [] ∧ t.wai.wanted = false ∧ (∀ x ∈ t.wai.slots, x.dirty = false) ∧
        t.wai.counter = odd + 1 ∧
        t.fen.work = [⟨.write, Channel.started [⟨board, 64⟩] .write, boardHeader odd (cabin s)⟩,
          ⟨.write, Channel.started [⟨board + 64, (slotTableBytes s.wai.slots).length⟩] .write, slotTableBytes s.wai.slots⟩,
          ⟨.write, Channel.started [⟨board + 704, (mirrorBytes t).length⟩] .write, mirrorBytes t⟩,
          ⟨.lastBoardWrite, Channel.started [⟨board, 64⟩] .write, boardHeader (odd + 1) (cabin s)⟩])) ∧
  (∀ (s : State) (i : WorkItem) (rest : List WorkItem) (u : Range) (a : Anchor), systemChoice s = some .work → s.fen.work = i :: rest →
    i.job = .lastBoardWrite → nextUnit .work i.chan.toReq = some u → advance u.len i.chan.toReq = [] → s.wai.anchor = some a →
    ∃ t, exec .systemPortGrant s = .next t ∧ t.wai.st = .attached ∧ t.wai.anchor = some a ∧
      t.fen.window = some ⟨a.winBase, a.winSize⟩ ∧ t.wai.scanTimer = some (now s + 1000 * a.period) ∧
      t.sysMem = Memory.writeBytes systemSize s.sysMem u.addr (i.data.take u.len))

/-- R171, R172, R184: a SCAN_NOW while not ATTACHED is ignored; while a scan waits for a read it is remembered; and with nothing
else to hand it begins a scan: the counter made odd, the mirrors, the header with the counter even, and the read of the next page's header.
The scan period timer runs on from its expiry and requests a scan. R172 to R174, R178: the completion of a page header's read takes a page
HANDED with the expected sequence, with its TAKEN header and the read of its records, or, with less than 8 bytes of fill, its ANSWERED
header; refuses one HANDED with another sequence, with its ANSWERED header and its notice; and ends the scan at any other state, and at
a refused page. R174 to R176: the completion of the records' read takes the records in their order, each with the effect of its row,
up to the first envelope at fault; a kind outside Table 8-6 and a record too short for its kind are refused; and the page is then
answered after its answers, or waits for the final statuses it still awaits. The sizes of the counter write and of the closing header are
the model's choice (log entry 29), and so is that WAI hands what waits at the end of each command (log entry 36). -/
def Obligations.ScansAreRequestedAndBegun : Prop :=
  (∀ s : State, s.wai.st ≠ .attached → exec .scanNow s = .next s) ∧
  (∀ s : State, s.wai.st = .attached → s.wai.scanning = true → s.wai.scanWaits = true → ∃ t, exec .scanNow s = .next t ∧
    t.wai.scanRequest = true ∧ t.wai.scanning = true) ∧
  (∀ (s : State) (a : Anchor), s.wai.st = .attached → s.wai.scanning = false → s.wai.scanQueue = [] → s.wai.scanWaits = false →
    s.wai.answers = [] → s.wai.wanted = false → (∀ x ∈ s.wai.slots, x.dirty = false) → s.fen.work = [] → s.wai.anchor = some a →
    s.wai.taken = [] →
    ∃ t, exec .scanNow s = .next t ∧ t.wai.scanning = true ∧ t.wai.counter = s.wai.counter + 2 ∧
      t.fen.work = [⟨.write, Channel.started [⟨a.board, 4⟩] .write, leBytes 4 (s.wai.counter + 1).toNat⟩,
        ⟨.write, Channel.started [⟨a.board + 704, (mirrorBytes s).length⟩] .write, mirrorBytes s⟩,
        ⟨.write, Channel.started [⟨a.board, 64⟩] .write, boardHeader (s.wai.counter + 2) (cabin s)⟩,
        ⟨.headerRead ((s.wai.expected - 1).toNat % a.pages),
          Channel.started [⟨a.ring + 1024 * ((s.wai.expected - 1).toNat % a.pages), 16⟩], []⟩]) ∧
  (∀ (s : State) (a : Anchor) (due : Nat), s.wai.scanTimer = some due → s.wai.st = .attached → s.wai.anchor = some a →
    ∃ t, exec .scanPeriodTimer s = .next t ∧ t.clockNs = max s.clockNs (due * 1000) ∧
      t.wai.scanTimer = some (due + 1000 * a.period) ∧
      (s.wai.scanning = true → s.wai.scanWaits = true → t.wai.scanRequest = true) ∧
      (s.wai.scanning = false → s.wai.scanQueue = [] → 16 ≤ s.fen.work.length → t.wai.scanning = true ∧
        t.wai.scanQueue = [.openCounter, .mirrors (mirrorBytes t), .closeCounter (cabin t), .look])) ∧
  -- the read of a page header completes
  (∀ (s : State) (place : Nat) (data : List Byte) (u : FetchUnit) (i : WorkItem) (r : Range) (page : Nat) (a : Anchor),
    soleUnit s place u → u.chan = .work → s.wai.st = .attached → s.wai.anchor = some a → s.fen.work = [i] → i.job = .headerRead page →
    i.chan.toMove = [r] → u.len = r.len → data.length = u.len → (i.data ++ data).length = 16 → s.wai.scanning = true →
    s.wai.scanQueue = [] → s.wai.scanRequest = false → s.wai.taken = [] → s.wai.answers = [] → s.wai.wanted = false →
    (∀ x ∈ s.wai.slots, x.dirty = false) →
    let h := i.data ++ data
    let fill := min (u16At h 8).toNat 1008
    let header (state : Nat) : WorkItem := ⟨.write, Channel.started [⟨a.ring + 1024 * page, 16⟩] .write,
      leBytes 2 state ++ (h.drop 2).take 10 ++ [0, 0, 0, 0]⟩
    ∃ t, exec (.readCompletion place true data) s = .next t ∧
      (u16At h 0 ≠ 1 → t.fen.work = [] ∧ t.wai.scanning = false ∧ t.wai.expected = s.wai.expected ∧ t.wai.taken = []) ∧
      (u16At h 0 = 1 → u32At h 4 ≠ s.wai.expected → header 3 ∈ t.fen.work ∧ t.wai.scanning = false ∧
        t.wai.expected = s.wai.expected ∧ t.wai.taken = [] ∧ noticeRaised .pageSequenceFault s.wai.expected (u32At h 4) s t) ∧
      (u16At h 0 = 1 → u32At h 4 = s.wai.expected → t.wai.scanning = true ∧ t.wai.expected = s.wai.expected + 1 ∧
        (8 ≤ fill → t.wai.taken = [⟨page, s.wai.expected, 0, 0, 0, false, h⟩] ∧
          t.fen.work = [header 2, ⟨.recordsRead page, Channel.started [⟨a.ring + 1024 * page + 16, fill⟩], []⟩] ∧
          t.wai.scanQueue = [.look]) ∧
        (fill < 8 → t.wai.taken = [] ∧
          let next := s.wai.expected.toNat % a.pages
          t.fen.work = [header 2, header 3, ⟨.headerRead next, Channel.started [⟨a.ring + 1024 * next, 16⟩], []⟩]))) ∧
  -- the read of a page's records completes
  (∀ (s : State) (place : Nat) (data : List Byte) (u : FetchUnit) (i : WorkItem) (rest : List WorkItem) (r : Range) (page : Nat)
    (p : TakenPage), soleUnit s place u → u.chan = .work → s.fen.work = i :: rest → i.job = .recordsRead page →
    i.chan.toMove = [r] → u.len = r.len → data.length = u.len → s.wai.taken.find? (fun q => q.page == page) = some p →
    exec (.readCompletion place true data) s = .next (settle (endPage ⟨page, p.seq, 0⟩
      (takeRecords (u16At p.header 2).toNat page p.seq (i.data ++ data) 0
        { s with
          fen := { s.fen with work := rest, units := s.fen.units.eraseP (isAt place) }
          wai := { s.wai with scanWaits := false } })))) ∧
  -- the records, one by one
  (∀ (n page : Nat) (seq : Word) (pre tail : List Byte) (s : State),
    let len := (u16At tail 2).toNat
    let r : RecordRef := ⟨page, seq, 16 + pre.length⟩
    takeRecords 0 page seq (pre ++ tail) pre.length s = s ∧
    (tail.length < 8 → takeRecords (n + 1) page seq (pre ++ tail) pre.length s = s) ∧
    (8 ≤ tail.length → len % 4 ≠ 0 ∨ len < 8 ∨ 1008 < len ∨ tail.length < len →
      takeRecords (n + 1) page seq (pre ++ tail) pre.length s
        = takeRecord r (fun _ t => (t, ⟨⟨.refusedInvalid, .envelope⟩, 0⟩)) s) ∧
    (len % 4 = 0 → 8 ≤ len → len ≤ 1008 → len ≤ tail.length →
      takeRecords (n + 1) page seq (pre ++ tail) pre.length s
        = takeRecords n page seq (pre ++ tail) (pre.length + len) (takeKind r (tail.take len) s))) ∧
  (∀ (s : State) (r : RecordRef) (rec : List Byte),
    let kind := (u16At rec 0).toNat
    (∀ n q, s.wai.st = .attached → fixedLength kind = some n → requestOf kind rec = some q → n + 8 ≤ rec.length →
      exec (commandOf r q) s = .next (settle (takeKind r rec s))) ∧
    (∀ n q, fixedLength kind = some n → requestOf kind rec = some q → rec.length < n + 8 → 8 ≤ rec.length →
      takeKind r rec s = takeRecord r (fun _ t => (t, ⟨⟨.refusedInvalid, .length⟩, 0⟩)) s) ∧
    (kind ∉ [0x10, 0x11, 0x12, 0x13, 0x20, 0x21, 0x22, 0x23, 0x24, 0x30, 0x31, 0x38, 0x40, 0x50, 0x51, 0x52, 0x53, 0x54, 0x60, 0x70, 0x71] →
      takeKind r rec s = takeRecord r (fun _ t => (t, ⟨⟨.refusedInvalid, .kind⟩, 0⟩)) s)) ∧
  -- the end of a page
  (∀ (s : State) (r : RecordRef) (p : TakenPage), s.wai.taken = [p] → p.isOf r = true →
    (p.awaiting ≠ 0 → endPage r s = { s with wai := { s.wai with taken := [{ p with ended := true }] } }) ∧
    (p.awaiting = 0 → (endPage r s).wai.taken = [] ∧
      ∀ pre i post, s.wai.scanQueue = pre ++ i :: post → i.concerns p.page = true → (∀ x ∈ post, x.concerns p.page = false) →
        (endPage r s).wai.scanQueue = pre ++ i :: .header p.page
          (leBytes 2 3 ++ (p.header.drop 2).take 10 ++ leBytes 2 p.taken ++ leBytes 2 p.refused) :: post))

/-- R160, R161, R197: the bytes of a write to WBASE_LO and WBASE_HI take their places in the work area base; the bits of CTRL act as
their commands; other offsets ignore a write; and a read of any offset and width that takes in a byte of TIME_LO latches the high half of
cabin time and returns the bytes of the registers it covers. That they are kept in `readData`, and that a read of at most 32 bits over
two registers takes them in address order, as a longer one does, is the model's (log entry 11). -/
def Obligations.RegistersAreWrittenAndRead : Prop :=
  (∀ (s : State) (off : Nat) (bs : List Byte), 0x0C ≤ off → off + bs.length ≤ 0x14 →
    ∃ t, exec (.registerWrite off bs) s = .next t ∧ OnlyTouches [.regs, .fen, .wai] s t ∧
      (∀ k, k < 8 → t.wai.wbase.extractLsb' (8 * k) 8 =
        (if off ≤ 0x0C + k then bs[0x0C + k - off]?.getD (s.wai.wbase.extractLsb' (8 * k) 8)
          else s.wai.wbase.extractLsb' (8 * k) 8)) ∧
      registerValue t 0x0C = t.wai.wbase.extractLsb' 0 32 ∧ registerValue t 0x10 = t.wai.wbase.extractLsb' 32 32) ∧
  (∀ s : State, exec (.registerWrite 4 [1]) s = exec .attach s ∧ exec (.registerWrite 4 [2]) s = exec .detach s ∧
    exec (.registerWrite 4 [4]) s = exec .scanNow s ∧
    exec (.registerWrite 4 [3]) s = exec .attach (detachNow s)) ∧
  (∀ (s : State) (off : Nat) (bs : List Byte), off + bs.length ≤ 4 ∨ (5 ≤ off ∧ off + bs.length ≤ 0x0C) ∨ 0x14 ≤ off →
    ∃ t, exec (.registerWrite off bs) s = .next t ∧ OnlyTouches [.fen, .wai] s t) ∧
  (∀ (s : State) (off count : Nat), off < 0x18 → 0x14 < off + count →
    let value (reg : Nat) : Word :=
      if reg = 0x00 then 0x03300101
      else if reg = 0x08 then BitVec.ofNat 32 (attachCode s.wai.st + 256 * attachCauseCode s.wai.cause
        + (if s.wai.ignored then 65536 else 0) + (if s.wai.adjusted then 131072 else 0))
      else if reg = 0x0C then s.wai.wbase.extractLsb' 0 32
      else if reg = 0x10 then s.wai.wbase.extractLsb' 32 32
      else if reg = 0x14 then (cabin s).extractLsb' 0 32
      else if reg = 0x18 then (cabin s).extractLsb' 32 32
      else 0
    ∃ t, exec (.timeLoRead off count) s = .next t ∧ OnlyTouches [.regs, .fen, .wai] s t ∧
      t.wai.timeLatch = (cabin s).extractLsb' 32 32 ∧ t.wai.wbase = s.wai.wbase ∧ t.wai.readData.length = count ∧
      ∀ k < count, t.wai.readData[k]? = some ((value ((off + k) / 4 * 4)).extractLsb' (8 * ((off + k) % 4)) 8)) ∧
  (∀ s : State, registerValue s 0 = 0x03300101 ∧ registerValue s 0x18 = s.wai.timeLatch)

/-- R180, R182, R183: SET_NOTICE sets ENABLE and MASK of the slot or of all slots and leaves what the slots record; the end of the MSI
interval stops its timer, and hands an MSI where one is wanted and nothing else waits, with the interval started again. The
transfer that stands for the MSI is the model's (log entry 18). R177 to R179: the final status of a long request joins the answer queue,
or takes the place of its PENDING answer where that one still waits, and writes nothing where its page was abandoned; at its handing
the awaiting count decreases and PENDING_DONE is raised, and the last one of a page is followed by the ANSWERED header. -/
def Obligations.NoticesAreSwitchedAndAnnounced : Prop :=
  (∀ (s : State) (r : RecordRef) (p : NoticeParams), canTake r s = true → ∃ t, exec (.setNotice r p) s = .next t ∧
    (if (19 < p.selector.toNat ∧ p.selector ≠ 255) ∨ 1 < p.enable.toNat ∨ 1 < p.mask.toNat then
      OnlyTouches [.fen, .wai] s t ∧ answered r ⟨⟨.refusedInvalid, .range⟩, 0⟩ t
    else answered r ⟨⟨.done, .none⟩, 0⟩ t ∧ (∀ k, k ≠ .pendingDone → slotKept k s t) ∧
      ∀ k x, s.wai.slots[slotNumber k]? = some x → ∃ y, t.wai.slots[slotNumber k]? = some y ∧
        if p.selector = 255 ∨ p.selector.toNat = slotNumber k then y.enable = (p.enable == 1) ∧ y.mask = (p.mask == 1)
        else y.enable = x.enable ∧ y.mask = x.mask)) ∧
  (∀ (s : State) (due : Nat) (a : Anchor), s.wai.msiTimer = some due → s.wai.st = .attached → s.wai.anchor = some a →
    s.wai.answers = [] → s.wai.scanning = false → s.wai.scanQueue = [] → s.wai.scanWaits = false →
    (∀ x ∈ s.wai.slots, x.dirty = false) → s.fen.work.length < 16 →
    ∃ t, exec .msiIntervalTimer s = .next t ∧ t.clockNs = max s.clockNs (due * 1000) ∧ t.wai.wanted = false ∧
      (if s.wai.wanted then t.fen.work = s.fen.work ++ [⟨.msi, Channel.started [⟨0, 4⟩] .write, []⟩] ∧
        t.wai.msiTimer = (if a.msi = 0 then none else some (now t + 1000 * a.msi))
      else t.fen = s.fen ∧ t.wai.msiTimer = none)) ∧
  (∀ (k : NoticeKind) (d0 d1 : Word) (s : State) (x : Slot), s.wai.slots[slotNumber k]? = some x → x.enable = true →
    (raise k d0 d1 s).wai.slots[slotNumber k]? = some
      { x with count := x.count + 1, time := cabin s, d0 := d0, d1 := d1, dirty := x.dirty || boardLive s.wai } ∧
    (raise k d0 d1 s).wai.wanted = (s.wai.wanted || (boardLive s.wai && !x.mask)) ∧
    ∀ j, j ≠ slotNumber k → (raise k d0 d1 s).wai.slots[j]? = s.wai.slots[j]?) ∧
  (∀ (s : State) (r : RecordRef) (st : Status),
    completeRequest ⟨none⟩ st s = s ∧
    (s.wai.taken.any (·.isOf r) = false → completeRequest ⟨some r⟩ st s = s) ∧
    (s.wai.taken.any (·.isOf r) = true → stillPending r s = false →
      completeRequest ⟨some r⟩ st s = { s with wai := { s.wai with answers := s.wai.answers ++ [.final r st] } }) ∧
    (∀ pre n counted post, s.wai.taken.any (·.isOf r) = true →
      s.wai.scanQueue = pre ++ .answer r ⟨.pending, .none⟩ n false counted :: post →
      (completeRequest ⟨some r⟩ st s).wai.answers = s.wai.answers ∧
      (completeRequest ⟨some r⟩ st s).wai.scanQueue[pre.length]? = some (.answer r st n true counted))) ∧
  (∀ (s : State) (r : RecordRef) (st : Status) (p : TakenPage) (a : Anchor), s.wai.st = .attached → s.wai.anchor = some a →
    s.wai.scanning = true → s.wai.scanWaits = true → s.wai.scanQueue = [] → s.wai.answers = [.final r st] → s.wai.taken = [p] →
    p.isOf r = true → p.ended = true → 0 < p.awaiting → s.fen.work.length ≤ 14 →
    let answer : WorkItem := ⟨.write, Channel.started [⟨a.ring + 1024 * r.page + r.off + 4, 4⟩] .write,
      leBytes 1 (majorCode st.major) ++ leBytes 1 (minorCode st.minor) ++ [0, 0]⟩
    let bytes := leBytes 2 3 ++ (p.header.drop 2).take 10 ++ leBytes 2 p.taken ++ leBytes 2 p.refused
    ∃ t more, exec .scanNow s = .next t ∧
      noticeRaised .pendingDone r.seq
        (BitVec.ofNat 32 (r.off + 65536 * majorCode st.major + 16777216 * minorCode st.minor)) s t ∧
      (if p.awaiting = 1 then t.wai.taken = [] ∧ t.fen.work = s.fen.work ++ [answer,
          ⟨.write, Channel.started [⟨a.ring + 1024 * p.page, bytes.length⟩] .write, bytes⟩] ++ more
      else t.wai.taken = [{ p with awaiting := p.awaiting - 1 }] ∧ t.fen.work = s.fen.work ++ [answer] ++ more))

/-! ## Chapter 9: the settings store -/

/-- R187 to R189 and R196: the start-up read ends: an image that passes the four checks becomes the running settings, of which the
view takes its policy, and one that fails leaves the defaults with the reason of its first failed check; with the notice of each. That
the defaults then replace a policy that a request has set in the meantime is the model's reading (log entry 35). R123: CHE takes
definitions 0 to 2 of the new running settings, at once or when the entry is free: where the chime of an entry with held values ends, is
cancelled, or, for the parking cadence, is stopped, the held values become the entry. -/
def Obligations.SettingsLoadTakesOrRejects : Prop :=
  (∀ (s : State) (img : List Byte) (due : Nat), s.sto.flash = some (.load due) →
    ∃ t, exec (.settingsLoad img) s = .next t ∧ t.clockNs = max s.clockNs due ∧ definitionsTaken s t ∧
      (let magic := u32At img 0 = 0x49534346
      let format := u16At img 4 = 1
      let length := u16At img 6 = 1024
      let crc := crc32 ((img.drop 16).take 1008) = u32At img 8
      (magic → format → length → crc →
        t.sto.running = imageSettings img ∧ t.sto.running.serial = u32At img 12 ∧ t.sto.running.crc = u32At img 8 ∧
        t.sto.source = .image ∧ t.sto.rejection = s.sto.rejection ∧ t.vwc = { s.vwc with policy := imagePolicy img } ∧
        t.glg = { s.glg with valid := calibrationValid (imageCalibration img) } ∧
        640 ≤ t.sto.running.camW ∧ t.sto.running.camW ≤ 1280 ∧ 480 ≤ t.sto.running.camH ∧ t.sto.running.camH ≤ 800 ∧
        noticeRaised .settingsState 257 (u32At img 12) s t) ∧
      (¬ (magic ∧ format ∧ length ∧ crc) →
        t.sto.running = defaultSettings ∧ t.sto.source = .defaults ∧ t.vwc = { s.vwc with policy := defaultPolicy } ∧
        t.sto.rejection = some (if ¬ magic then .magic else if ¬ format then .format else if ¬ length then .length else .crc) ∧
        noticeRaised .settingsState (BitVec.ofNat 32 (514 + 65536 *
          (if ¬ magic then 1 else if ¬ format then 2 else if ¬ length then 3 else 4))) 0 s t))) ∧
  (let freed (n : Nat) (d : ChimeDef) (t : State) : Prop := defOf t.che n = some d ∧ nth t.che.waiting n none = none
  (∀ (s : State) (r : RecordRef) (c : Byte) (d : ChimeDef), canTake r s = true → c.toNat ≤ 2 → c ≠ 1 → s.che.defs.length = 16 →
    nth s.che.waiting c.toNat none = some d → inUse s.che c.toNat = true →
    ¬ (isPlaying s.che c.toNat = true ∧ isQueued s.che c.toNat = true) →
    ∃ t, exec (.cancelChime r c) s = .next t ∧ freed c.toNat d t) ∧
  (∀ (s : State) (p : Playing) (x d : ChimeDef) (n : Nat), s.che.tail = none → s.che.playing = some p → p.chime.num ≤ 2 →
    p.chime.num ≠ 1 → defOf s.che p.chime.num = some x → x.steps.length ≤ p.step + 1 → p.chime.remaining = some n → n ≤ 1 →
    isQueued s.che p.chime.num = false → s.che.defs.length = 16 → nth s.che.waiting p.chime.num none = some d →
    ∃ t, exec .toneStepEnd s = .next t ∧ freed p.chime.num d t) ∧
  (∀ (s : State) (due : Nat) (d : ChimeDef), s.vsr.parkFresh.deadline = some due → s.che.cadence = true → inUse s.che 1 = true →
    ¬ (isPlaying s.che 1 = true ∧ isQueued s.che 1 = true) → s.che.defs.length = 16 → nth s.che.waiting 1 none = some d →
    ∃ t, exec (.freshnessDeadline .parkAssist) s = .next t ∧ freed 1 d t))

/-- R190 to R193: WRITE_SETTINGS with its checks starts the copy; the flash phases follow each other, erase, four pages, and the read
back; and the comparison completes the write with the image applied in OFF, its chime definitions taken (R123), and waiting otherwise, or
ends it. -/
def Obligations.WriteSettingsRunsItsPhases : Prop :=
  (∀ (s : State) (r : RecordRef) (p : WriteParams), canTake r s = true → held r s = false →
    ∃ t, exec (.writeSettings r p) s = .next t ∧
      (if p.len ≠ 1024 then OnlyTouches [.fen, .wai] s t ∧ answered r ⟨⟨.refusedInvalid, .range⟩, 0⟩ t
      else if p.addr.toNat % 4 ≠ 0 ∨ insideWindow (requestWindow s) p.addr.toNat 1024 = false then
        OnlyTouches [.fen, .wai] s t ∧ answered r ⟨⟨.refusedInvalid, .address⟩, 0⟩ t
      else if s.sto.source = .loading ∨ s.sto.writePhase ≠ .idle then
        OnlyTouches [.fen, .wai] s t ∧ answered r ⟨⟨.refusedState, .busy⟩, 0⟩ t
      else t.sto = { s.sto with writePhase := .copying, staged := [], writeReq := some ⟨some r⟩ } ∧
        answered r ⟨⟨.pending, .none⟩, 0⟩ t ∧
        (s.smn.low = false → t.fen.bulk = s.fen.bulk ++ [⟨.settingsIn, Channel.started [⟨p.addr.toNat, 1024⟩], 0⟩]))) ∧
  (∀ (s : State) (limit : Nat), s.sto.flash = some (.erase limit) → ∃ t, exec .eraseComplete s = .next t ∧
    t.sto = { s.sto with writePhase := .programming, flash := some (.program 0 (s.clockNs + 20000000)) }) ∧
  (∀ (s : State) (n limit : Nat), s.sto.flash = some (.program n limit) → ∃ t, exec .pageProgramComplete s = .next t ∧
    t.sto = (if n < 3 then { s.sto with writePhase := .programming, flash := some (.program (n + 1) (s.clockNs + 20000000)) }
      else { s.sto with writePhase := .verifying, flash := some (.verify (s.clockNs + 657920)) })) ∧
  (∀ (s : State) (due : Nat) (bytes : List Byte), s.sto.flash = some (.verify due) → s.sto.readPhase ≠ .flashRead →
    ∃ t, exec (.verifyReadComplete bytes) s = .next t ∧ t.clockNs = max s.clockNs due ∧ t.sto.writePhase = .idle ∧
      t.sto.writeReq = none ∧ t.sto.flash = none ∧
      (bytes ≠ s.sto.staged → t.sto.lastOutcome = some .compare ∧ t.sto.running = s.sto.running ∧
        t.sto.waiting = s.sto.waiting ∧ t.vwc = s.vwc ∧
        noticeRaised .settingsState (BitVec.ofNat 32 (524293 + 256 * sourceCode s.sto.source)) (u32At s.sto.staged 12) s t) ∧
      (bytes = s.sto.staged → t.sto.lastOutcome = none ∧
        (s.vwc.view ≠ .off → t.sto.waiting = some s.sto.staged ∧ t.sto.running = s.sto.running ∧ t.vwc = s.vwc ∧
          noticeRaised .settingsState (BitVec.ofNat 32 (3 + 256 * sourceCode s.sto.source)) (u32At s.sto.staged 12) s t) ∧
        (s.vwc.view = .off → t.sto.waiting = none ∧ t.sto.running = imageSettings s.sto.staged ∧ t.sto.source = .image ∧
          definitionsTaken s t ∧
          t.vwc = { s.vwc with policy := imagePolicy s.sto.staged } ∧
          noticeRaised .settingsState 260 (u32At s.sto.staged 12) s t)))

/-- R191: an erase, a page or a ready wait that runs out ends the write with its reason and no further flash command, and the next
operation waits for the device; that wait's end issues the operation that waited: the erase of the write, or the read of a READ_SETTINGS
also while a write waits for the port in ERASING (R195); and a wait of a READ_SETTINGS that runs out ends it. That the device is waited for
again after that is the model's reading (log entry 27). -/
def Obligations.FlashTimeoutsEndTheWrite : Prop :=
  (∀ (s : State) (c : Instr) (reason : WriteReason) (limit : Nat), s.sto.readPhase = .idle →
    (c = .eraseTimeout ∧ s.sto.flash = some (.erase limit) ∧ reason = .eraseTimeout) ∨
    (c = .readyWaitTimeout ∧ s.sto.flash = some (.readyWait true limit) ∧ reason = .eraseTimeout) ∨
    (∃ n, c = .programTimeout ∧ s.sto.flash = some (.program n limit) ∧ reason = .programTimeout) →
    ∃ t, exec c s = .next t ∧ t.clockNs = max s.clockNs limit ∧
      t.sto = { s.sto with writePhase := .idle, writeReq := none, lastOutcome := some reason, notReady := true, flash := none } ∧
      noticeRaised .settingsState
        (BitVec.ofNat 32 (5 + 256 * sourceCode s.sto.source + 65536 * (if reason = .eraseTimeout then 6 else 7)))
        (u32At s.sto.staged 12) s t) ∧
  (∀ (s : State) (forWrite : Bool) (limit : Nat), s.sto.flash = some (.readyWait forWrite limit) →
    ∃ t, exec .readyWaitDone s = .next t ∧ t.sto.notReady = false ∧ t.sto.writePhase = s.sto.writePhase ∧
      t.sto.readPhase = s.sto.readPhase ∧
      (forWrite = true → s.sto.writePhase = .erasing → s.smn.low = false →
        t.sto.flash = some (.erase (s.clockNs + 1000000000))) ∧
      (forWrite = false → t.sto.flash = some (.read (s.clockNs + 657920)))) ∧
  (∀ (s : State) (limit : Nat), s.sto.flash = some (.readyWait false limit) → s.sto.writePhase = .idle →
    ∃ t, exec .readyWaitTimeout s = .next t ∧ t.clockNs = max s.clockNs limit ∧
      t.sto = { s.sto with readPhase := .idle, readReq := none, flash := none })

/-- R195: READ_SETTINGS with its checks waits for the free flash port; the bytes read are copied out as they stand. -/
def Obligations.ReadSettingsCopiesTheFlash : Prop :=
  (∀ (s : State) (r : RecordRef) (a : Dword), canTake r s = true → held r s = false →
    ∃ t, exec (.readSettings r a) s = .next t ∧
      (if a.toNat % 4 ≠ 0 ∨ insideWindow (requestWindow s) a.toNat 1024 = false then
        OnlyTouches [.fen, .wai] s t ∧ answered r ⟨⟨.refusedInvalid, .address⟩, 0⟩ t
      else if s.sto.source = .loading ∨ s.sto.readReq ≠ none then
        OnlyTouches [.fen, .wai] s t ∧ answered r ⟨⟨.refusedState, .busy⟩, 0⟩ t
      else answered r ⟨⟨.pending, .none⟩, 0⟩ t ∧ t.sto.readPhase = .flashRead ∧ t.sto.readReq = some ⟨some r⟩ ∧
        t.sto.readAddr = a.toNat ∧ t.sto.writePhase = s.sto.writePhase ∧ t.sto.running = s.sto.running ∧
        (∀ op, s.sto.flash = some op → t.sto.flash = some op) ∧
        (s.sto.flash = none → s.sto.writePhase = .idle → s.sto.notReady = false →
          t.sto.flash = some (.read (s.clockNs + 657920))))) ∧
  (∀ (s : State) (due : Nat) (bytes : List Byte), s.sto.flash = some (.read due) → s.sto.writePhase = .idle →
    ∃ t, exec (.flashReadComplete bytes) s = .next t ∧ t.clockNs = max s.clockNs due ∧
      t.sto = { s.sto with readPhase := .copyOut, readImage := bytes, flash := none } ∧
      (s.smn.low = false → t.fen.bulk = s.fen.bulk ++ [⟨.settingsOut, Channel.started [⟨s.sto.readAddr, 1024⟩] .write, 0⟩]))
end

