-- ==== Sys2Proof/Laws/Audio.lean ====
section
/-! SUPPORT. The two tables of chapter 6 held against what defines them. -/

namespace Sys2Proof.Machine

/-- R116: m(g) is 32768 × 10^(−g/40) to the nearest integer: half a unit below and above it enclose that number (both sides raised to
the 40th power). -/
theorem gainTable_rounds : ∀ g < 192, (2 * nth gainTable g 0 - 1) ^ 40 * 10 ^ g ≤ 65536 ^ 40 ∧
    65536 ^ 40 < (2 * nth gainTable g 0 + 1) ^ 40 * 10 ^ g := by decide +kernel

theorem gainTable_silence : nth gainTable 192 0 = 0 ∧ gainTable.length = 193 := by decide +kernel

/-- R125: the quarter rises strictly from 0 to 32767. -/
theorem sineQuarter_rises : nth sineQuarter 0 0 = 0 ∧ nth sineQuarter 256 0 = 32767 ∧ sineQuarter.length = 257 ∧
    ∀ i < 256, nth sineQuarter i 0 < nth sineQuarter (i + 1) 0 := by decide +kernel

/-- R125: each entry and the one of the complementary angle lie on the circle of radius 32767, as far as half a unit in each allows. -/
theorem sineQuarter_circle : ∀ i ≤ 256,
    nth sineQuarter i 0 ^ 2 + nth sineQuarter (256 - i) 0 ^ 2 ≤ 32767 ^ 2 + 46340 ∧
    32767 ^ 2 ≤ nth sineQuarter i 0 ^ 2 + nth sineQuarter (256 - i) 0 ^ 2 + 46340 := by decide +kernel

end Sys2Proof.Machine
end

