-- ==== Sys2Proof/Laws/State.lean ====
section
/-! SUPPORT. One lemma for each field after each replacement of one part of the state, true by unfolding, and one for putting back
what is there already. -/

namespace Sys2Proof.Machine

/-! ### After `State.setPending` -/

@[simp] theorem State.setPending_pending (s : State) (x : List Instr) : (s.setPending x).pending = x := (rfl)
@[simp] theorem State.setPending_clockNs (s : State) (x : List Instr) : (s.setPending x).clockNs = s.clockNs := (rfl)
@[simp] theorem State.setPending_vsr (s : State) (x : List Instr) : (s.setPending x).vsr = s.vsr := (rfl)
@[simp] theorem State.setPending_smn (s : State) (x : List Instr) : (s.setPending x).smn = s.smn := (rfl)
@[simp] theorem State.setPending_cin (s : State) (x : List Instr) : (s.setPending x).cin = s.cin := (rfl)
@[simp] theorem State.setPending_vwc (s : State) (x : List Instr) : (s.setPending x).vwc = s.vwc := (rfl)
@[simp] theorem State.setPending_glg (s : State) (x : List Instr) : (s.setPending x).glg = s.glg := (rfl)
@[simp] theorem State.setPending_cmp (s : State) (x : List Instr) : (s.setPending x).cmp = s.cmp := (rfl)
@[simp] theorem State.setPending_flm (s : State) (x : List Instr) : (s.setPending x).flm = s.flm := (rfl)
@[simp] theorem State.setPending_mix (s : State) (x : List Instr) : (s.setPending x).mix = s.mix := (rfl)
@[simp] theorem State.setPending_che (s : State) (x : List Instr) : (s.setPending x).che = s.che := (rfl)
@[simp] theorem State.setPending_fen (s : State) (x : List Instr) : (s.setPending x).fen = s.fen := (rfl)
@[simp] theorem State.setPending_wai (s : State) (x : List Instr) : (s.setPending x).wai = s.wai := (rfl)
@[simp] theorem State.setPending_sto (s : State) (x : List Instr) : (s.setPending x).sto = s.sto := (rfl)
@[simp] theorem State.setPending_localMem (s : State) (x : List Instr) : (s.setPending x).localMem = s.localMem := (rfl)
@[simp] theorem State.setPending_sysMem (s : State) (x : List Instr) : (s.setPending x).sysMem = s.sysMem := (rfl)
@[simp] theorem State.setPending_self (s : State) : s.setPending s.pending = s := (rfl)
@[simp] theorem State.setPending_setPending (s : State) (x y : List Instr) : (s.setPending x).setPending y = s.setPending y := (rfl)

/-! ### After `State.setClock` -/

@[simp] theorem State.setClock_pending (s : State) (x : Nat) : (s.setClock x).pending = s.pending := (rfl)
@[simp] theorem State.setClock_clockNs (s : State) (x : Nat) : (s.setClock x).clockNs = x := (rfl)
@[simp] theorem State.setClock_vsr (s : State) (x : Nat) : (s.setClock x).vsr = s.vsr := (rfl)
@[simp] theorem State.setClock_smn (s : State) (x : Nat) : (s.setClock x).smn = s.smn := (rfl)
@[simp] theorem State.setClock_cin (s : State) (x : Nat) : (s.setClock x).cin = s.cin := (rfl)
@[simp] theorem State.setClock_vwc (s : State) (x : Nat) : (s.setClock x).vwc = s.vwc := (rfl)
@[simp] theorem State.setClock_glg (s : State) (x : Nat) : (s.setClock x).glg = s.glg := (rfl)
@[simp] theorem State.setClock_cmp (s : State) (x : Nat) : (s.setClock x).cmp = s.cmp := (rfl)
@[simp] theorem State.setClock_flm (s : State) (x : Nat) : (s.setClock x).flm = s.flm := (rfl)
@[simp] theorem State.setClock_mix (s : State) (x : Nat) : (s.setClock x).mix = s.mix := (rfl)
@[simp] theorem State.setClock_che (s : State) (x : Nat) : (s.setClock x).che = s.che := (rfl)
@[simp] theorem State.setClock_fen (s : State) (x : Nat) : (s.setClock x).fen = s.fen := (rfl)
@[simp] theorem State.setClock_wai (s : State) (x : Nat) : (s.setClock x).wai = s.wai := (rfl)
@[simp] theorem State.setClock_sto (s : State) (x : Nat) : (s.setClock x).sto = s.sto := (rfl)
@[simp] theorem State.setClock_localMem (s : State) (x : Nat) : (s.setClock x).localMem = s.localMem := (rfl)
@[simp] theorem State.setClock_sysMem (s : State) (x : Nat) : (s.setClock x).sysMem = s.sysMem := (rfl)
@[simp] theorem State.setClock_self (s : State) : s.setClock s.clockNs = s := (rfl)
@[simp] theorem State.setClock_setClock (s : State) (x y : Nat) : (s.setClock x).setClock y = s.setClock y := (rfl)

/-! ### After `State.setVsr` -/

@[simp] theorem State.setVsr_pending (s : State) (x : Vsr) : (s.setVsr x).pending = s.pending := (rfl)
@[simp] theorem State.setVsr_clockNs (s : State) (x : Vsr) : (s.setVsr x).clockNs = s.clockNs := (rfl)
@[simp] theorem State.setVsr_vsr (s : State) (x : Vsr) : (s.setVsr x).vsr = x := (rfl)
@[simp] theorem State.setVsr_smn (s : State) (x : Vsr) : (s.setVsr x).smn = s.smn := (rfl)
@[simp] theorem State.setVsr_cin (s : State) (x : Vsr) : (s.setVsr x).cin = s.cin := (rfl)
@[simp] theorem State.setVsr_vwc (s : State) (x : Vsr) : (s.setVsr x).vwc = s.vwc := (rfl)
@[simp] theorem State.setVsr_glg (s : State) (x : Vsr) : (s.setVsr x).glg = s.glg := (rfl)
@[simp] theorem State.setVsr_cmp (s : State) (x : Vsr) : (s.setVsr x).cmp = s.cmp := (rfl)
@[simp] theorem State.setVsr_flm (s : State) (x : Vsr) : (s.setVsr x).flm = s.flm := (rfl)
@[simp] theorem State.setVsr_mix (s : State) (x : Vsr) : (s.setVsr x).mix = s.mix := (rfl)
@[simp] theorem State.setVsr_che (s : State) (x : Vsr) : (s.setVsr x).che = s.che := (rfl)
@[simp] theorem State.setVsr_fen (s : State) (x : Vsr) : (s.setVsr x).fen = s.fen := (rfl)
@[simp] theorem State.setVsr_wai (s : State) (x : Vsr) : (s.setVsr x).wai = s.wai := (rfl)
@[simp] theorem State.setVsr_sto (s : State) (x : Vsr) : (s.setVsr x).sto = s.sto := (rfl)
@[simp] theorem State.setVsr_localMem (s : State) (x : Vsr) : (s.setVsr x).localMem = s.localMem := (rfl)
@[simp] theorem State.setVsr_sysMem (s : State) (x : Vsr) : (s.setVsr x).sysMem = s.sysMem := (rfl)
@[simp] theorem State.setVsr_self (s : State) : s.setVsr s.vsr = s := (rfl)
@[simp] theorem State.setVsr_setVsr (s : State) (x y : Vsr) : (s.setVsr x).setVsr y = s.setVsr y := (rfl)

/-! ### After `State.setSmn` -/

@[simp] theorem State.setSmn_pending (s : State) (x : Smn) : (s.setSmn x).pending = s.pending := (rfl)
@[simp] theorem State.setSmn_clockNs (s : State) (x : Smn) : (s.setSmn x).clockNs = s.clockNs := (rfl)
@[simp] theorem State.setSmn_vsr (s : State) (x : Smn) : (s.setSmn x).vsr = s.vsr := (rfl)
@[simp] theorem State.setSmn_smn (s : State) (x : Smn) : (s.setSmn x).smn = x := (rfl)
@[simp] theorem State.setSmn_cin (s : State) (x : Smn) : (s.setSmn x).cin = s.cin := (rfl)
@[simp] theorem State.setSmn_vwc (s : State) (x : Smn) : (s.setSmn x).vwc = s.vwc := (rfl)
@[simp] theorem State.setSmn_glg (s : State) (x : Smn) : (s.setSmn x).glg = s.glg := (rfl)
@[simp] theorem State.setSmn_cmp (s : State) (x : Smn) : (s.setSmn x).cmp = s.cmp := (rfl)
@[simp] theorem State.setSmn_flm (s : State) (x : Smn) : (s.setSmn x).flm = s.flm := (rfl)
@[simp] theorem State.setSmn_mix (s : State) (x : Smn) : (s.setSmn x).mix = s.mix := (rfl)
@[simp] theorem State.setSmn_che (s : State) (x : Smn) : (s.setSmn x).che = s.che := (rfl)
@[simp] theorem State.setSmn_fen (s : State) (x : Smn) : (s.setSmn x).fen = s.fen := (rfl)
@[simp] theorem State.setSmn_wai (s : State) (x : Smn) : (s.setSmn x).wai = s.wai := (rfl)
@[simp] theorem State.setSmn_sto (s : State) (x : Smn) : (s.setSmn x).sto = s.sto := (rfl)
@[simp] theorem State.setSmn_localMem (s : State) (x : Smn) : (s.setSmn x).localMem = s.localMem := (rfl)
@[simp] theorem State.setSmn_sysMem (s : State) (x : Smn) : (s.setSmn x).sysMem = s.sysMem := (rfl)
@[simp] theorem State.setSmn_self (s : State) : s.setSmn s.smn = s := (rfl)
@[simp] theorem State.setSmn_setSmn (s : State) (x y : Smn) : (s.setSmn x).setSmn y = s.setSmn y := (rfl)

/-! ### After `State.setCin` -/

@[simp] theorem State.setCin_pending (s : State) (x : Cin) : (s.setCin x).pending = s.pending := (rfl)
@[simp] theorem State.setCin_clockNs (s : State) (x : Cin) : (s.setCin x).clockNs = s.clockNs := (rfl)
@[simp] theorem State.setCin_vsr (s : State) (x : Cin) : (s.setCin x).vsr = s.vsr := (rfl)
@[simp] theorem State.setCin_smn (s : State) (x : Cin) : (s.setCin x).smn = s.smn := (rfl)
@[simp] theorem State.setCin_cin (s : State) (x : Cin) : (s.setCin x).cin = x := (rfl)
@[simp] theorem State.setCin_vwc (s : State) (x : Cin) : (s.setCin x).vwc = s.vwc := (rfl)
@[simp] theorem State.setCin_glg (s : State) (x : Cin) : (s.setCin x).glg = s.glg := (rfl)
@[simp] theorem State.setCin_cmp (s : State) (x : Cin) : (s.setCin x).cmp = s.cmp := (rfl)
@[simp] theorem State.setCin_flm (s : State) (x : Cin) : (s.setCin x).flm = s.flm := (rfl)
@[simp] theorem State.setCin_mix (s : State) (x : Cin) : (s.setCin x).mix = s.mix := (rfl)
@[simp] theorem State.setCin_che (s : State) (x : Cin) : (s.setCin x).che = s.che := (rfl)
@[simp] theorem State.setCin_fen (s : State) (x : Cin) : (s.setCin x).fen = s.fen := (rfl)
@[simp] theorem State.setCin_wai (s : State) (x : Cin) : (s.setCin x).wai = s.wai := (rfl)
@[simp] theorem State.setCin_sto (s : State) (x : Cin) : (s.setCin x).sto = s.sto := (rfl)
@[simp] theorem State.setCin_localMem (s : State) (x : Cin) : (s.setCin x).localMem = s.localMem := (rfl)
@[simp] theorem State.setCin_sysMem (s : State) (x : Cin) : (s.setCin x).sysMem = s.sysMem := (rfl)
@[simp] theorem State.setCin_self (s : State) : s.setCin s.cin = s := (rfl)
@[simp] theorem State.setCin_setCin (s : State) (x y : Cin) : (s.setCin x).setCin y = s.setCin y := (rfl)

/-! ### After `State.setVwc` -/

@[simp] theorem State.setVwc_pending (s : State) (x : Vwc) : (s.setVwc x).pending = s.pending := (rfl)
@[simp] theorem State.setVwc_clockNs (s : State) (x : Vwc) : (s.setVwc x).clockNs = s.clockNs := (rfl)
@[simp] theorem State.setVwc_vsr (s : State) (x : Vwc) : (s.setVwc x).vsr = s.vsr := (rfl)
@[simp] theorem State.setVwc_smn (s : State) (x : Vwc) : (s.setVwc x).smn = s.smn := (rfl)
@[simp] theorem State.setVwc_cin (s : State) (x : Vwc) : (s.setVwc x).cin = s.cin := (rfl)
@[simp] theorem State.setVwc_vwc (s : State) (x : Vwc) : (s.setVwc x).vwc = x := (rfl)
@[simp] theorem State.setVwc_glg (s : State) (x : Vwc) : (s.setVwc x).glg = s.glg := (rfl)
@[simp] theorem State.setVwc_cmp (s : State) (x : Vwc) : (s.setVwc x).cmp = s.cmp := (rfl)
@[simp] theorem State.setVwc_flm (s : State) (x : Vwc) : (s.setVwc x).flm = s.flm := (rfl)
@[simp] theorem State.setVwc_mix (s : State) (x : Vwc) : (s.setVwc x).mix = s.mix := (rfl)
@[simp] theorem State.setVwc_che (s : State) (x : Vwc) : (s.setVwc x).che = s.che := (rfl)
@[simp] theorem State.setVwc_fen (s : State) (x : Vwc) : (s.setVwc x).fen = s.fen := (rfl)
@[simp] theorem State.setVwc_wai (s : State) (x : Vwc) : (s.setVwc x).wai = s.wai := (rfl)
@[simp] theorem State.setVwc_sto (s : State) (x : Vwc) : (s.setVwc x).sto = s.sto := (rfl)
@[simp] theorem State.setVwc_localMem (s : State) (x : Vwc) : (s.setVwc x).localMem = s.localMem := (rfl)
@[simp] theorem State.setVwc_sysMem (s : State) (x : Vwc) : (s.setVwc x).sysMem = s.sysMem := (rfl)
@[simp] theorem State.setVwc_self (s : State) : s.setVwc s.vwc = s := (rfl)
@[simp] theorem State.setVwc_setVwc (s : State) (x y : Vwc) : (s.setVwc x).setVwc y = s.setVwc y := (rfl)

/-! ### After `State.setGlg` -/

@[simp] theorem State.setGlg_pending (s : State) (x : Glg) : (s.setGlg x).pending = s.pending := (rfl)
@[simp] theorem State.setGlg_clockNs (s : State) (x : Glg) : (s.setGlg x).clockNs = s.clockNs := (rfl)
@[simp] theorem State.setGlg_vsr (s : State) (x : Glg) : (s.setGlg x).vsr = s.vsr := (rfl)
@[simp] theorem State.setGlg_smn (s : State) (x : Glg) : (s.setGlg x).smn = s.smn := (rfl)
@[simp] theorem State.setGlg_cin (s : State) (x : Glg) : (s.setGlg x).cin = s.cin := (rfl)
@[simp] theorem State.setGlg_vwc (s : State) (x : Glg) : (s.setGlg x).vwc = s.vwc := (rfl)
@[simp] theorem State.setGlg_glg (s : State) (x : Glg) : (s.setGlg x).glg = x := (rfl)
@[simp] theorem State.setGlg_cmp (s : State) (x : Glg) : (s.setGlg x).cmp = s.cmp := (rfl)
@[simp] theorem State.setGlg_flm (s : State) (x : Glg) : (s.setGlg x).flm = s.flm := (rfl)
@[simp] theorem State.setGlg_mix (s : State) (x : Glg) : (s.setGlg x).mix = s.mix := (rfl)
@[simp] theorem State.setGlg_che (s : State) (x : Glg) : (s.setGlg x).che = s.che := (rfl)
@[simp] theorem State.setGlg_fen (s : State) (x : Glg) : (s.setGlg x).fen = s.fen := (rfl)
@[simp] theorem State.setGlg_wai (s : State) (x : Glg) : (s.setGlg x).wai = s.wai := (rfl)
@[simp] theorem State.setGlg_sto (s : State) (x : Glg) : (s.setGlg x).sto = s.sto := (rfl)
@[simp] theorem State.setGlg_localMem (s : State) (x : Glg) : (s.setGlg x).localMem = s.localMem := (rfl)
@[simp] theorem State.setGlg_sysMem (s : State) (x : Glg) : (s.setGlg x).sysMem = s.sysMem := (rfl)
@[simp] theorem State.setGlg_self (s : State) : s.setGlg s.glg = s := (rfl)
@[simp] theorem State.setGlg_setGlg (s : State) (x y : Glg) : (s.setGlg x).setGlg y = s.setGlg y := (rfl)

/-! ### After `State.setCmp` -/

@[simp] theorem State.setCmp_pending (s : State) (x : Cmp) : (s.setCmp x).pending = s.pending := (rfl)
@[simp] theorem State.setCmp_clockNs (s : State) (x : Cmp) : (s.setCmp x).clockNs = s.clockNs := (rfl)
@[simp] theorem State.setCmp_vsr (s : State) (x : Cmp) : (s.setCmp x).vsr = s.vsr := (rfl)
@[simp] theorem State.setCmp_smn (s : State) (x : Cmp) : (s.setCmp x).smn = s.smn := (rfl)
@[simp] theorem State.setCmp_cin (s : State) (x : Cmp) : (s.setCmp x).cin = s.cin := (rfl)
@[simp] theorem State.setCmp_vwc (s : State) (x : Cmp) : (s.setCmp x).vwc = s.vwc := (rfl)
@[simp] theorem State.setCmp_glg (s : State) (x : Cmp) : (s.setCmp x).glg = s.glg := (rfl)
@[simp] theorem State.setCmp_cmp (s : State) (x : Cmp) : (s.setCmp x).cmp = x := (rfl)
@[simp] theorem State.setCmp_flm (s : State) (x : Cmp) : (s.setCmp x).flm = s.flm := (rfl)
@[simp] theorem State.setCmp_mix (s : State) (x : Cmp) : (s.setCmp x).mix = s.mix := (rfl)
@[simp] theorem State.setCmp_che (s : State) (x : Cmp) : (s.setCmp x).che = s.che := (rfl)
@[simp] theorem State.setCmp_fen (s : State) (x : Cmp) : (s.setCmp x).fen = s.fen := (rfl)
@[simp] theorem State.setCmp_wai (s : State) (x : Cmp) : (s.setCmp x).wai = s.wai := (rfl)
@[simp] theorem State.setCmp_sto (s : State) (x : Cmp) : (s.setCmp x).sto = s.sto := (rfl)
@[simp] theorem State.setCmp_localMem (s : State) (x : Cmp) : (s.setCmp x).localMem = s.localMem := (rfl)
@[simp] theorem State.setCmp_sysMem (s : State) (x : Cmp) : (s.setCmp x).sysMem = s.sysMem := (rfl)
@[simp] theorem State.setCmp_self (s : State) : s.setCmp s.cmp = s := (rfl)
@[simp] theorem State.setCmp_setCmp (s : State) (x y : Cmp) : (s.setCmp x).setCmp y = s.setCmp y := (rfl)

/-! ### After `State.setFlm` -/

@[simp] theorem State.setFlm_pending (s : State) (x : Flm) : (s.setFlm x).pending = s.pending := (rfl)
@[simp] theorem State.setFlm_clockNs (s : State) (x : Flm) : (s.setFlm x).clockNs = s.clockNs := (rfl)
@[simp] theorem State.setFlm_vsr (s : State) (x : Flm) : (s.setFlm x).vsr = s.vsr := (rfl)
@[simp] theorem State.setFlm_smn (s : State) (x : Flm) : (s.setFlm x).smn = s.smn := (rfl)
@[simp] theorem State.setFlm_cin (s : State) (x : Flm) : (s.setFlm x).cin = s.cin := (rfl)
@[simp] theorem State.setFlm_vwc (s : State) (x : Flm) : (s.setFlm x).vwc = s.vwc := (rfl)
@[simp] theorem State.setFlm_glg (s : State) (x : Flm) : (s.setFlm x).glg = s.glg := (rfl)
@[simp] theorem State.setFlm_cmp (s : State) (x : Flm) : (s.setFlm x).cmp = s.cmp := (rfl)
@[simp] theorem State.setFlm_flm (s : State) (x : Flm) : (s.setFlm x).flm = x := (rfl)
@[simp] theorem State.setFlm_mix (s : State) (x : Flm) : (s.setFlm x).mix = s.mix := (rfl)
@[simp] theorem State.setFlm_che (s : State) (x : Flm) : (s.setFlm x).che = s.che := (rfl)
@[simp] theorem State.setFlm_fen (s : State) (x : Flm) : (s.setFlm x).fen = s.fen := (rfl)
@[simp] theorem State.setFlm_wai (s : State) (x : Flm) : (s.setFlm x).wai = s.wai := (rfl)
@[simp] theorem State.setFlm_sto (s : State) (x : Flm) : (s.setFlm x).sto = s.sto := (rfl)
@[simp] theorem State.setFlm_localMem (s : State) (x : Flm) : (s.setFlm x).localMem = s.localMem := (rfl)
@[simp] theorem State.setFlm_sysMem (s : State) (x : Flm) : (s.setFlm x).sysMem = s.sysMem := (rfl)
@[simp] theorem State.setFlm_self (s : State) : s.setFlm s.flm = s := (rfl)
@[simp] theorem State.setFlm_setFlm (s : State) (x y : Flm) : (s.setFlm x).setFlm y = s.setFlm y := (rfl)

/-! ### After `State.setMix` -/

@[simp] theorem State.setMix_pending (s : State) (x : Mix) : (s.setMix x).pending = s.pending := (rfl)
@[simp] theorem State.setMix_clockNs (s : State) (x : Mix) : (s.setMix x).clockNs = s.clockNs := (rfl)
@[simp] theorem State.setMix_vsr (s : State) (x : Mix) : (s.setMix x).vsr = s.vsr := (rfl)
@[simp] theorem State.setMix_smn (s : State) (x : Mix) : (s.setMix x).smn = s.smn := (rfl)
@[simp] theorem State.setMix_cin (s : State) (x : Mix) : (s.setMix x).cin = s.cin := (rfl)
@[simp] theorem State.setMix_vwc (s : State) (x : Mix) : (s.setMix x).vwc = s.vwc := (rfl)
@[simp] theorem State.setMix_glg (s : State) (x : Mix) : (s.setMix x).glg = s.glg := (rfl)
@[simp] theorem State.setMix_cmp (s : State) (x : Mix) : (s.setMix x).cmp = s.cmp := (rfl)
@[simp] theorem State.setMix_flm (s : State) (x : Mix) : (s.setMix x).flm = s.flm := (rfl)
@[simp] theorem State.setMix_mix (s : State) (x : Mix) : (s.setMix x).mix = x := (rfl)
@[simp] theorem State.setMix_che (s : State) (x : Mix) : (s.setMix x).che = s.che := (rfl)
@[simp] theorem State.setMix_fen (s : State) (x : Mix) : (s.setMix x).fen = s.fen := (rfl)
@[simp] theorem State.setMix_wai (s : State) (x : Mix) : (s.setMix x).wai = s.wai := (rfl)
@[simp] theorem State.setMix_sto (s : State) (x : Mix) : (s.setMix x).sto = s.sto := (rfl)
@[simp] theorem State.setMix_localMem (s : State) (x : Mix) : (s.setMix x).localMem = s.localMem := (rfl)
@[simp] theorem State.setMix_sysMem (s : State) (x : Mix) : (s.setMix x).sysMem = s.sysMem := (rfl)
@[simp] theorem State.setMix_self (s : State) : s.setMix s.mix = s := (rfl)
@[simp] theorem State.setMix_setMix (s : State) (x y : Mix) : (s.setMix x).setMix y = s.setMix y := (rfl)

/-! ### After `State.setChe` -/

@[simp] theorem State.setChe_pending (s : State) (x : Che) : (s.setChe x).pending = s.pending := (rfl)
@[simp] theorem State.setChe_clockNs (s : State) (x : Che) : (s.setChe x).clockNs = s.clockNs := (rfl)
@[simp] theorem State.setChe_vsr (s : State) (x : Che) : (s.setChe x).vsr = s.vsr := (rfl)
@[simp] theorem State.setChe_smn (s : State) (x : Che) : (s.setChe x).smn = s.smn := (rfl)
@[simp] theorem State.setChe_cin (s : State) (x : Che) : (s.setChe x).cin = s.cin := (rfl)
@[simp] theorem State.setChe_vwc (s : State) (x : Che) : (s.setChe x).vwc = s.vwc := (rfl)
@[simp] theorem State.setChe_glg (s : State) (x : Che) : (s.setChe x).glg = s.glg := (rfl)
@[simp] theorem State.setChe_cmp (s : State) (x : Che) : (s.setChe x).cmp = s.cmp := (rfl)
@[simp] theorem State.setChe_flm (s : State) (x : Che) : (s.setChe x).flm = s.flm := (rfl)
@[simp] theorem State.setChe_mix (s : State) (x : Che) : (s.setChe x).mix = s.mix := (rfl)
@[simp] theorem State.setChe_che (s : State) (x : Che) : (s.setChe x).che = x := (rfl)
@[simp] theorem State.setChe_fen (s : State) (x : Che) : (s.setChe x).fen = s.fen := (rfl)
@[simp] theorem State.setChe_wai (s : State) (x : Che) : (s.setChe x).wai = s.wai := (rfl)
@[simp] theorem State.setChe_sto (s : State) (x : Che) : (s.setChe x).sto = s.sto := (rfl)
@[simp] theorem State.setChe_localMem (s : State) (x : Che) : (s.setChe x).localMem = s.localMem := (rfl)
@[simp] theorem State.setChe_sysMem (s : State) (x : Che) : (s.setChe x).sysMem = s.sysMem := (rfl)
@[simp] theorem State.setChe_self (s : State) : s.setChe s.che = s := (rfl)
@[simp] theorem State.setChe_setChe (s : State) (x y : Che) : (s.setChe x).setChe y = s.setChe y := (rfl)

/-! ### After `State.setFen` -/

@[simp] theorem State.setFen_pending (s : State) (x : Fen) : (s.setFen x).pending = s.pending := (rfl)
@[simp] theorem State.setFen_clockNs (s : State) (x : Fen) : (s.setFen x).clockNs = s.clockNs := (rfl)
@[simp] theorem State.setFen_vsr (s : State) (x : Fen) : (s.setFen x).vsr = s.vsr := (rfl)
@[simp] theorem State.setFen_smn (s : State) (x : Fen) : (s.setFen x).smn = s.smn := (rfl)
@[simp] theorem State.setFen_cin (s : State) (x : Fen) : (s.setFen x).cin = s.cin := (rfl)
@[simp] theorem State.setFen_vwc (s : State) (x : Fen) : (s.setFen x).vwc = s.vwc := (rfl)
@[simp] theorem State.setFen_glg (s : State) (x : Fen) : (s.setFen x).glg = s.glg := (rfl)
@[simp] theorem State.setFen_cmp (s : State) (x : Fen) : (s.setFen x).cmp = s.cmp := (rfl)
@[simp] theorem State.setFen_flm (s : State) (x : Fen) : (s.setFen x).flm = s.flm := (rfl)
@[simp] theorem State.setFen_mix (s : State) (x : Fen) : (s.setFen x).mix = s.mix := (rfl)
@[simp] theorem State.setFen_che (s : State) (x : Fen) : (s.setFen x).che = s.che := (rfl)
@[simp] theorem State.setFen_fen (s : State) (x : Fen) : (s.setFen x).fen = x := (rfl)
@[simp] theorem State.setFen_wai (s : State) (x : Fen) : (s.setFen x).wai = s.wai := (rfl)
@[simp] theorem State.setFen_sto (s : State) (x : Fen) : (s.setFen x).sto = s.sto := (rfl)
@[simp] theorem State.setFen_localMem (s : State) (x : Fen) : (s.setFen x).localMem = s.localMem := (rfl)
@[simp] theorem State.setFen_sysMem (s : State) (x : Fen) : (s.setFen x).sysMem = s.sysMem := (rfl)
@[simp] theorem State.setFen_self (s : State) : s.setFen s.fen = s := (rfl)
@[simp] theorem State.setFen_setFen (s : State) (x y : Fen) : (s.setFen x).setFen y = s.setFen y := (rfl)

/-! ### After `State.setWai` -/

@[simp] theorem State.setWai_pending (s : State) (x : Wai) : (s.setWai x).pending = s.pending := (rfl)
@[simp] theorem State.setWai_clockNs (s : State) (x : Wai) : (s.setWai x).clockNs = s.clockNs := (rfl)
@[simp] theorem State.setWai_vsr (s : State) (x : Wai) : (s.setWai x).vsr = s.vsr := (rfl)
@[simp] theorem State.setWai_smn (s : State) (x : Wai) : (s.setWai x).smn = s.smn := (rfl)
@[simp] theorem State.setWai_cin (s : State) (x : Wai) : (s.setWai x).cin = s.cin := (rfl)
@[simp] theorem State.setWai_vwc (s : State) (x : Wai) : (s.setWai x).vwc = s.vwc := (rfl)
@[simp] theorem State.setWai_glg (s : State) (x : Wai) : (s.setWai x).glg = s.glg := (rfl)
@[simp] theorem State.setWai_cmp (s : State) (x : Wai) : (s.setWai x).cmp = s.cmp := (rfl)
@[simp] theorem State.setWai_flm (s : State) (x : Wai) : (s.setWai x).flm = s.flm := (rfl)
@[simp] theorem State.setWai_mix (s : State) (x : Wai) : (s.setWai x).mix = s.mix := (rfl)
@[simp] theorem State.setWai_che (s : State) (x : Wai) : (s.setWai x).che = s.che := (rfl)
@[simp] theorem State.setWai_fen (s : State) (x : Wai) : (s.setWai x).fen = s.fen := (rfl)
@[simp] theorem State.setWai_wai (s : State) (x : Wai) : (s.setWai x).wai = x := (rfl)
@[simp] theorem State.setWai_sto (s : State) (x : Wai) : (s.setWai x).sto = s.sto := (rfl)
@[simp] theorem State.setWai_localMem (s : State) (x : Wai) : (s.setWai x).localMem = s.localMem := (rfl)
@[simp] theorem State.setWai_sysMem (s : State) (x : Wai) : (s.setWai x).sysMem = s.sysMem := (rfl)
@[simp] theorem State.setWai_self (s : State) : s.setWai s.wai = s := (rfl)
@[simp] theorem State.setWai_setWai (s : State) (x y : Wai) : (s.setWai x).setWai y = s.setWai y := (rfl)

/-! ### After `State.setSto` -/

@[simp] theorem State.setSto_pending (s : State) (x : Sto) : (s.setSto x).pending = s.pending := (rfl)
@[simp] theorem State.setSto_clockNs (s : State) (x : Sto) : (s.setSto x).clockNs = s.clockNs := (rfl)
@[simp] theorem State.setSto_vsr (s : State) (x : Sto) : (s.setSto x).vsr = s.vsr := (rfl)
@[simp] theorem State.setSto_smn (s : State) (x : Sto) : (s.setSto x).smn = s.smn := (rfl)
@[simp] theorem State.setSto_cin (s : State) (x : Sto) : (s.setSto x).cin = s.cin := (rfl)
@[simp] theorem State.setSto_vwc (s : State) (x : Sto) : (s.setSto x).vwc = s.vwc := (rfl)
@[simp] theorem State.setSto_glg (s : State) (x : Sto) : (s.setSto x).glg = s.glg := (rfl)
@[simp] theorem State.setSto_cmp (s : State) (x : Sto) : (s.setSto x).cmp = s.cmp := (rfl)
@[simp] theorem State.setSto_flm (s : State) (x : Sto) : (s.setSto x).flm = s.flm := (rfl)
@[simp] theorem State.setSto_mix (s : State) (x : Sto) : (s.setSto x).mix = s.mix := (rfl)
@[simp] theorem State.setSto_che (s : State) (x : Sto) : (s.setSto x).che = s.che := (rfl)
@[simp] theorem State.setSto_fen (s : State) (x : Sto) : (s.setSto x).fen = s.fen := (rfl)
@[simp] theorem State.setSto_wai (s : State) (x : Sto) : (s.setSto x).wai = s.wai := (rfl)
@[simp] theorem State.setSto_sto (s : State) (x : Sto) : (s.setSto x).sto = x := (rfl)
@[simp] theorem State.setSto_localMem (s : State) (x : Sto) : (s.setSto x).localMem = s.localMem := (rfl)
@[simp] theorem State.setSto_sysMem (s : State) (x : Sto) : (s.setSto x).sysMem = s.sysMem := (rfl)
@[simp] theorem State.setSto_self (s : State) : s.setSto s.sto = s := (rfl)
@[simp] theorem State.setSto_setSto (s : State) (x y : Sto) : (s.setSto x).setSto y = s.setSto y := (rfl)

/-! ### After `State.setLocalMem` -/

@[simp] theorem State.setLocalMem_pending (s : State) (x : Memory) : (s.setLocalMem x).pending = s.pending := (rfl)
@[simp] theorem State.setLocalMem_clockNs (s : State) (x : Memory) : (s.setLocalMem x).clockNs = s.clockNs := (rfl)
@[simp] theorem State.setLocalMem_vsr (s : State) (x : Memory) : (s.setLocalMem x).vsr = s.vsr := (rfl)
@[simp] theorem State.setLocalMem_smn (s : State) (x : Memory) : (s.setLocalMem x).smn = s.smn := (rfl)
@[simp] theorem State.setLocalMem_cin (s : State) (x : Memory) : (s.setLocalMem x).cin = s.cin := (rfl)
@[simp] theorem State.setLocalMem_vwc (s : State) (x : Memory) : (s.setLocalMem x).vwc = s.vwc := (rfl)
@[simp] theorem State.setLocalMem_glg (s : State) (x : Memory) : (s.setLocalMem x).glg = s.glg := (rfl)
@[simp] theorem State.setLocalMem_cmp (s : State) (x : Memory) : (s.setLocalMem x).cmp = s.cmp := (rfl)
@[simp] theorem State.setLocalMem_flm (s : State) (x : Memory) : (s.setLocalMem x).flm = s.flm := (rfl)
@[simp] theorem State.setLocalMem_mix (s : State) (x : Memory) : (s.setLocalMem x).mix = s.mix := (rfl)
@[simp] theorem State.setLocalMem_che (s : State) (x : Memory) : (s.setLocalMem x).che = s.che := (rfl)
@[simp] theorem State.setLocalMem_fen (s : State) (x : Memory) : (s.setLocalMem x).fen = s.fen := (rfl)
@[simp] theorem State.setLocalMem_wai (s : State) (x : Memory) : (s.setLocalMem x).wai = s.wai := (rfl)
@[simp] theorem State.setLocalMem_sto (s : State) (x : Memory) : (s.setLocalMem x).sto = s.sto := (rfl)
@[simp] theorem State.setLocalMem_localMem (s : State) (x : Memory) : (s.setLocalMem x).localMem = x := (rfl)
@[simp] theorem State.setLocalMem_sysMem (s : State) (x : Memory) : (s.setLocalMem x).sysMem = s.sysMem := (rfl)
@[simp] theorem State.setLocalMem_self (s : State) : s.setLocalMem s.localMem = s := (rfl)
@[simp] theorem State.setLocalMem_setLocalMem (s : State) (x y : Memory) : (s.setLocalMem x).setLocalMem y = s.setLocalMem y := (rfl)

/-! ### After `State.setSysMem` -/

@[simp] theorem State.setSysMem_pending (s : State) (x : Memory) : (s.setSysMem x).pending = s.pending := (rfl)
@[simp] theorem State.setSysMem_clockNs (s : State) (x : Memory) : (s.setSysMem x).clockNs = s.clockNs := (rfl)
@[simp] theorem State.setSysMem_vsr (s : State) (x : Memory) : (s.setSysMem x).vsr = s.vsr := (rfl)
@[simp] theorem State.setSysMem_smn (s : State) (x : Memory) : (s.setSysMem x).smn = s.smn := (rfl)
@[simp] theorem State.setSysMem_cin (s : State) (x : Memory) : (s.setSysMem x).cin = s.cin := (rfl)
@[simp] theorem State.setSysMem_vwc (s : State) (x : Memory) : (s.setSysMem x).vwc = s.vwc := (rfl)
@[simp] theorem State.setSysMem_glg (s : State) (x : Memory) : (s.setSysMem x).glg = s.glg := (rfl)
@[simp] theorem State.setSysMem_cmp (s : State) (x : Memory) : (s.setSysMem x).cmp = s.cmp := (rfl)
@[simp] theorem State.setSysMem_flm (s : State) (x : Memory) : (s.setSysMem x).flm = s.flm := (rfl)
@[simp] theorem State.setSysMem_mix (s : State) (x : Memory) : (s.setSysMem x).mix = s.mix := (rfl)
@[simp] theorem State.setSysMem_che (s : State) (x : Memory) : (s.setSysMem x).che = s.che := (rfl)
@[simp] theorem State.setSysMem_fen (s : State) (x : Memory) : (s.setSysMem x).fen = s.fen := (rfl)
@[simp] theorem State.setSysMem_wai (s : State) (x : Memory) : (s.setSysMem x).wai = s.wai := (rfl)
@[simp] theorem State.setSysMem_sto (s : State) (x : Memory) : (s.setSysMem x).sto = s.sto := (rfl)
@[simp] theorem State.setSysMem_localMem (s : State) (x : Memory) : (s.setSysMem x).localMem = s.localMem := (rfl)
@[simp] theorem State.setSysMem_sysMem (s : State) (x : Memory) : (s.setSysMem x).sysMem = x := (rfl)
@[simp] theorem State.setSysMem_self (s : State) : s.setSysMem s.sysMem = s := (rfl)
@[simp] theorem State.setSysMem_setSysMem (s : State) (x y : Memory) : (s.setSysMem x).setSysMem y = s.setSysMem y := (rfl)

/-! ### A pipe and a stream after a replacement -/

@[simp] theorem pipeOf_setPending (s : State) (x : List Instr) (q : PipeId) : pipeOf (s.setPending x) q = pipeOf s q := (rfl)
@[simp] theorem pipeOf_setClock (s : State) (x : Nat) (q : PipeId) : pipeOf (s.setClock x) q = pipeOf s q := (rfl)
@[simp] theorem pipeOf_setVsr (s : State) (x : Vsr) (q : PipeId) : pipeOf (s.setVsr x) q = pipeOf s q := (rfl)
@[simp] theorem pipeOf_setSmn (s : State) (x : Smn) (q : PipeId) : pipeOf (s.setSmn x) q = pipeOf s q := (rfl)
@[simp] theorem pipeOf_setCin (s : State) (x : Cin) (q : PipeId) : pipeOf (s.setCin x) q = pipeOf s q := (rfl)
@[simp] theorem pipeOf_setVwc (s : State) (x : Vwc) (q : PipeId) : pipeOf (s.setVwc x) q = pipeOf s q := (rfl)
@[simp] theorem pipeOf_setGlg (s : State) (x : Glg) (q : PipeId) : pipeOf (s.setGlg x) q = pipeOf s q := (rfl)
@[simp] theorem pipeOf_setFlm (s : State) (x : Flm) (q : PipeId) : pipeOf (s.setFlm x) q = pipeOf s q := (rfl)
@[simp] theorem pipeOf_setMix (s : State) (x : Mix) (q : PipeId) : pipeOf (s.setMix x) q = pipeOf s q := (rfl)
@[simp] theorem pipeOf_setChe (s : State) (x : Che) (q : PipeId) : pipeOf (s.setChe x) q = pipeOf s q := (rfl)
@[simp] theorem pipeOf_setFen (s : State) (x : Fen) (q : PipeId) : pipeOf (s.setFen x) q = pipeOf s q := (rfl)
@[simp] theorem pipeOf_setWai (s : State) (x : Wai) (q : PipeId) : pipeOf (s.setWai x) q = pipeOf s q := (rfl)
@[simp] theorem pipeOf_setSto (s : State) (x : Sto) (q : PipeId) : pipeOf (s.setSto x) q = pipeOf s q := (rfl)
@[simp] theorem pipeOf_setLocalMem (s : State) (x : Memory) (q : PipeId) : pipeOf (s.setLocalMem x) q = pipeOf s q := (rfl)
@[simp] theorem pipeOf_setSysMem (s : State) (x : Memory) (q : PipeId) : pipeOf (s.setSysMem x) q = pipeOf s q := (rfl)
@[simp] theorem filmOf_setPending (s : State) (x : List Instr) (q : StreamId) : filmOf (s.setPending x) q = filmOf s q := (rfl)
@[simp] theorem filmOf_setClock (s : State) (x : Nat) (q : StreamId) : filmOf (s.setClock x) q = filmOf s q := (rfl)
@[simp] theorem filmOf_setVsr (s : State) (x : Vsr) (q : StreamId) : filmOf (s.setVsr x) q = filmOf s q := (rfl)
@[simp] theorem filmOf_setSmn (s : State) (x : Smn) (q : StreamId) : filmOf (s.setSmn x) q = filmOf s q := (rfl)
@[simp] theorem filmOf_setCin (s : State) (x : Cin) (q : StreamId) : filmOf (s.setCin x) q = filmOf s q := (rfl)
@[simp] theorem filmOf_setVwc (s : State) (x : Vwc) (q : StreamId) : filmOf (s.setVwc x) q = filmOf s q := (rfl)
@[simp] theorem filmOf_setGlg (s : State) (x : Glg) (q : StreamId) : filmOf (s.setGlg x) q = filmOf s q := (rfl)
@[simp] theorem filmOf_setCmp (s : State) (x : Cmp) (q : StreamId) : filmOf (s.setCmp x) q = filmOf s q := (rfl)
@[simp] theorem filmOf_setMix (s : State) (x : Mix) (q : StreamId) : filmOf (s.setMix x) q = filmOf s q := (rfl)
@[simp] theorem filmOf_setChe (s : State) (x : Che) (q : StreamId) : filmOf (s.setChe x) q = filmOf s q := (rfl)
@[simp] theorem filmOf_setFen (s : State) (x : Fen) (q : StreamId) : filmOf (s.setFen x) q = filmOf s q := (rfl)
@[simp] theorem filmOf_setWai (s : State) (x : Wai) (q : StreamId) : filmOf (s.setWai x) q = filmOf s q := (rfl)
@[simp] theorem filmOf_setSto (s : State) (x : Sto) (q : StreamId) : filmOf (s.setSto x) q = filmOf s q := (rfl)
@[simp] theorem filmOf_setLocalMem (s : State) (x : Memory) (q : StreamId) : filmOf (s.setLocalMem x) q = filmOf s q := (rfl)
@[simp] theorem filmOf_setSysMem (s : State) (x : Memory) (q : StreamId) : filmOf (s.setSysMem x) q = filmOf s q := (rfl)

@[simp] theorem pipeOf_setCmp (s : State) (x : Cmp) (q : PipeId) : pipeOf (s.setCmp x) q = x.pipes.get q := (rfl)
@[simp] theorem filmOf_setFlm (s : State) (x : Flm) (q : StreamId) : filmOf (s.setFlm x) q = x.streams.get q := (rfl)
@[simp] theorem pipes_get (s : State) (q : PipeId) : s.cmp.pipes.get q = pipeOf s q := (rfl)
@[simp] theorem streams_get (s : State) (q : StreamId) : s.flm.streams.get q = filmOf s q := (rfl)

end Sys2Proof.Machine
end

