-- ==== Sys2Proof/Laws/Frame.lean ====
section
/-! SUPPORT. What the shared operations leave unchanged: for each operation one lemma that names every part of the state it may
change; any other part is after it what it was before. -/

namespace Sys2Proof.Machine

/-! ## The relation -/

@[simp] theorem Part.same_self (p : Part) (s : State) : p.same s s := by
  cases p <;> simp [Part.same]

theorem Part.same_trans {p : Part} {s t u : State} (h : p.same s t) (k : p.same t u) : p.same s u := by
  cases p <;> simp_all [Part.same]

theorem Part.same_symm {p : Part} {s t : State} (h : p.same s t) : p.same t s := by
  cases p <;> simp_all [Part.same]

/-- A part that is the same in two states is the same of any third state. -/
theorem Part.same_iff {p : Part} {s t u : State} (h : p.same t u) : p.same s u ↔ p.same s t :=
  ⟨fun k => Part.same_trans k (Part.same_symm h), fun k => Part.same_trans k h⟩

theorem OnlyTouches.mono {ps qs : List Part} {s t : State} (h : OnlyTouches ps s t) (k : ps ⊆ qs) : OnlyTouches qs s t :=
  fun p hp => h p (fun hq => hp (k hq))

theorem OnlyTouches.trans {ps : List Part} {s t u : State} (h : OnlyTouches ps s t) (k : OnlyTouches ps t u) :
    OnlyTouches ps s u :=
  fun p hp => Part.same_trans (h p hp) (k p hp)

/-! ## Replacing one part -/

section Setters
variable {p : Part} {s t : State}

@[simp] theorem same_setClock {x : Nat} (h : p ≠ .clock) : p.same s (t.setClock x) ↔ p.same s t :=
  Part.same_iff (by cases p <;> simp_all [Part.same])
@[simp] theorem same_setPending {x : List Instr} (h : p ≠ .queue) : p.same s (t.setPending x) ↔ p.same s t :=
  Part.same_iff (by cases p <;> simp_all [Part.same])
@[simp] theorem same_setVsr {x : Vsr} (h : p ≠ .vsr) : p.same s (t.setVsr x) ↔ p.same s t :=
  Part.same_iff (by cases p <;> simp_all [Part.same])
@[simp] theorem same_setSmn {x : Smn} (h : p ≠ .smn) : p.same s (t.setSmn x) ↔ p.same s t :=
  Part.same_iff (by cases p <;> simp_all [Part.same])
@[simp] theorem same_setCin {x : Cin} (h : p ≠ .cin) : p.same s (t.setCin x) ↔ p.same s t :=
  Part.same_iff (by cases p <;> simp_all [Part.same])
@[simp] theorem same_setVwc {x : Vwc} (h : p ≠ .vwc) (k : p = .policy → x.policy = t.vwc.policy) :
    p.same s (t.setVwc x) ↔ p.same s t :=
  Part.same_iff (by cases p <;> simp_all [Part.same])
@[simp] theorem same_setGlg {x : Glg} (h : p ≠ .glg) : p.same s (t.setGlg x) ↔ p.same s t :=
  Part.same_iff (by cases p <;> simp_all [Part.same])
@[simp] theorem same_setCmp {x : Cmp} (h : p ≠ .cmp)
    (k : p = .timings → ∀ q, (x.pipes.get q).timing = (pipeOf t q).timing) : p.same s (t.setCmp x) ↔ p.same s t :=
  Part.same_iff (by cases p <;> simp_all [Part.same])
@[simp] theorem same_setFlm {x : Flm} (h : p ≠ .flm) : p.same s (t.setFlm x) ↔ p.same s t :=
  Part.same_iff (by cases p <;> simp_all [Part.same])
@[simp] theorem same_setMix {x : Mix} (h : p ≠ .mix) (k : p = .matrix → x.matrix = t.mix.matrix) :
    p.same s (t.setMix x) ↔ p.same s t :=
  Part.same_iff (by cases p <;> simp_all [Part.same])
@[simp] theorem same_setChe {x : Che} (h : p ≠ .che)
    (k : p = .bank → x.bank = t.che.bank ∧ x.free = t.che.free ∧ x.loads = t.che.loads) :
    p.same s (t.setChe x) ↔ p.same s t :=
  Part.same_iff (by cases p <;> simp_all [Part.same])
@[simp] theorem same_setFen {x : Fen} (h : p ≠ .fen)
    (k : p = .turns → x.rotation = t.fen.rotation ∧ x.lastSlot = t.fen.lastSlot ∧ x.audioTurn = t.fen.audioTurn)
    (w : p = .link → x.window = t.fen.window) : p.same s (t.setFen x) ↔ p.same s t :=
  Part.same_iff (by cases p <;> simp_all [Part.same])
@[simp] theorem same_setWai {x : Wai} (h : p ≠ .wai)
    (k : p = .link → x.st = t.wai.st ∧ x.cause = t.wai.cause ∧ x.ignored = t.wai.ignored ∧ x.adjusted = t.wai.adjusted ∧
      x.anchor = t.wai.anchor)
    (r : p = .regs → x.wbase = t.wai.wbase ∧ x.timeLatch = t.wai.timeLatch ∧ x.readData = t.wai.readData)
    (w : p = .switches → x.slots.map (fun y => (y.enable, y.mask)) = t.wai.slots.map (fun y => (y.enable, y.mask))) :
    p.same s (t.setWai x) ↔ p.same s t :=
  Part.same_iff (by cases p <;> simp_all [Part.same])
@[simp] theorem same_setSto {x : Sto} (h : p ≠ .sto)
    (k : p = .running → x.running = t.sto.running ∧ x.source = t.sto.source ∧ x.rejection = t.sto.rejection) :
    p.same s (t.setSto x) ↔ p.same s t :=
  Part.same_iff (by cases p <;> simp_all [Part.same])
@[simp] theorem same_setLocalMem {x : Memory} (h : p ≠ .localMem) : p.same s (t.setLocalMem x) ↔ p.same s t :=
  Part.same_iff (by cases p <;> simp_all [Part.same])
@[simp] theorem same_setSysMem {x : Memory} (h : p ≠ .sysMem) : p.same s (t.setSysMem x) ↔ p.same s t :=
  Part.same_iff (by cases p <;> simp_all [Part.same])

end Setters

/-! ## Notices, answers and the ports -/

section Shared
variable {p : Part} {s t : State}

theorem map_switches_set {xs : List Slot} {n : Nat} {x y : Slot} (h : xs[n]? = some x)
    (k : (y.enable, y.mask) = (x.enable, x.mask)) :
    (xs.set n y).map (fun z => (z.enable, z.mask)) = xs.map (fun z => (z.enable, z.mask)) := by
  apply List.ext_getElem?
  intro i
  simp only [List.getElem?_map, List.getElem?_set]
  split
  · split <;> simp_all
  · rfl

@[simp] theorem same_raise {k : NoticeKind} {a b : Word} (h : p ≠ .wai) : p.same s (raise k a b t) ↔ p.same s t := by
  unfold raise
  split
  · rfl
  · rename_i x hx
    split
    · refine same_setWai h (by simp) (by simp) (fun _ => ?_)
      exact map_switches_set hx rfl
    · rfl

@[simp] theorem same_completeRequest {q : LongReq} {st : Status} (h : p ≠ .wai) :
    p.same s (completeRequest q st t) ↔ p.same s t := by
  unfold completeRequest
  repeat' split
  all_goals simp [h]

@[simp] theorem same_completeAll {qs : List LongReq} {st : Status} (h : p ≠ .wai) :
    p.same s (completeAll qs st t) ↔ p.same s t := by
  unfold completeAll
  induction qs generalizing t with
  | nil => rfl
  | cons q qs ih => simp [ih, h]

@[simp] theorem setChannel_rotation (f : Fen) (c : ChanId) (x : Channel) : (setChannel f c x).rotation = f.rotation := by
  unfold setChannel; repeat' split
  all_goals rfl
@[simp] theorem setChannel_lastSlot (f : Fen) (c : ChanId) (x : Channel) : (setChannel f c x).lastSlot = f.lastSlot := by
  unfold setChannel; repeat' split
  all_goals rfl
@[simp] theorem setChannel_audioTurn (f : Fen) (c : ChanId) (x : Channel) : (setChannel f c x).audioTurn = f.audioTurn := by
  unfold setChannel; repeat' split
  all_goals rfl
@[simp] theorem setChannel_window (f : Fen) (c : ChanId) (x : Channel) : (setChannel f c x).window = f.window := by
  unfold setChannel; repeat' split
  all_goals rfl
@[simp] theorem setChannel_units (f : Fen) (c : ChanId) (x : Channel) : (setChannel f c x).units = f.units := by
  unfold setChannel; repeat' split
  all_goals rfl

@[simp] theorem same_startChannel {c : ChanId} {rs : List Range} (h : p ≠ .fen) :
    p.same s (startChannel c rs t) ↔ p.same s t := by simp [startChannel, h]
@[simp] theorem same_stopChannel {c : ChanId} (h : p ≠ .fen) : p.same s (stopChannel c t) ↔ p.same s t := by
  simp [stopChannel, h]
@[simp] theorem same_suspendChannel {c : ChanId} (h : p ≠ .fen) : p.same s (suspendChannel c t) ↔ p.same s t := by
  simp [suspendChannel, h]
@[simp] theorem same_resumeChannel {c : ChanId} (h : p ≠ .fen) : p.same s (resumeChannel c t) ↔ p.same s t := by
  simp [resumeChannel, h]
@[simp] theorem same_cutLocal {u : LocalUser} (h : p ≠ .fen) : p.same s (cutLocal u t) ↔ p.same s t := by
  unfold cutLocal; repeat' split
  all_goals simp [h]
@[simp] theorem same_handBulk {id : BulkId} {rs : List Range} (h : p ≠ .fen) : p.same s (handBulk id rs t) ↔ p.same s t := by
  simp [handBulk, h]
@[simp] theorem same_dropBulk {id : BulkId} (h : p ≠ .fen) : p.same s (dropBulk id t) ↔ p.same s t := by
  simp [dropBulk, h]
@[simp] theorem same_writeLocal {a : Nat} {bs : List Byte} (h : p ≠ .localMem) : p.same s (writeLocal a bs t) ↔ p.same s t := by
  simp [writeLocal, h]
@[simp] theorem same_writeSystem {a : Nat} {bs : List Byte} (h : p ≠ .sysMem) : p.same s (writeSystem a bs t) ↔ p.same s t := by
  simp [writeSystem, h]
@[simp] theorem same_reachNs {a : Nat} (h : p ≠ .clock) : p.same s (reachNs a t) ↔ p.same s t := by
  simp [reachNs, h]
@[simp] theorem same_reach {a : Nat} (h : p ≠ .clock) : p.same s (reach a t) ↔ p.same s t := by
  simp [reach, h]

@[simp] theorem same_onPipes {f : PipeId → State → State} (h : ∀ q u, p.same u (f q u)) :
    p.same s (onPipes f t) ↔ p.same s t := by
  unfold onPipes
  rw [Part.same_iff (h _ _), Part.same_iff (h _ _), Part.same_iff (h _ _)]

@[simp] theorem same_onStreams {f : StreamId → State → State} (h : ∀ q u, p.same u (f q u)) :
    p.same s (onStreams f t) ↔ p.same s t := by
  unfold onStreams
  rw [Part.same_iff (h _ _), Part.same_iff (h _ _)]

theorem same_foldl {α : Type} {f : State → α → State} (h : ∀ u a, p.same u (f u a)) (l : List α) :
    p.same s (l.foldl f t) ↔ p.same s t := by
  induction l generalizing t with
  | nil => rfl
  | cons a l ih => rw [List.foldl_cons, ih, Part.same_iff (h _ _)]

@[simp] theorem same_onSlots {f : Nat → State → State} (h : ∀ q u, p.same u (f q u)) :
    p.same s (onSlots f t) ↔ p.same s t := by
  unfold onSlots; exact same_foldl (fun u a => h a u) _

@[simp] theorem same_onSounds {f : Nat → State → State} (h : ∀ q u, p.same u (f q u)) :
    p.same s (onSounds f t) ↔ p.same s t := by
  unfold onSounds; exact same_foldl (fun u a => h a u) _

@[simp] theorem PerPipe.get_set {α : Type} (v : PerPipe α) (q r : PipeId) (x : α) :
    (v.set q x).get r = if r = q then x else v.get r := by
  cases q <;> cases r <;> simp [PerPipe.set, PerPipe.get]

@[simp] theorem PerStream.get_set {α : Type} (v : PerStream α) (q r : StreamId) (x : α) :
    (v.set q x).get r = if r = q then x else v.get r := by
  cases q <;> cases r <;> simp [PerStream.set, PerStream.get]

@[simp] theorem pipeOf_setPipe (q r : PipeId) (x : Pipe) (u : State) :
    pipeOf (setPipe q x u) r = if r = q then x else pipeOf u r := by simp [setPipe]

@[simp] theorem filmOf_setFilm (q r : StreamId) (x : Film) (u : State) :
    filmOf (setFilm q x u) r = if r = q then x else filmOf u r := by simp [setFilm]

@[simp] theorem same_setPipe {q : PipeId} {x : Pipe} (h : p ≠ .cmp) (k : p = .timings → x.timing = (pipeOf t q).timing) :
    p.same s (setPipe q x t) ↔ p.same s t := by
  unfold setPipe
  refine same_setCmp h (fun hp r => ?_)
  simp only [PerPipe.get_set, pipes_get]
  split
  · rename_i e; rw [e]; exact k hp
  · rfl
@[simp] theorem same_setFilm {q : StreamId} {x : Film} (h : p ≠ .flm) : p.same s (setFilm q x t) ↔ p.same s t := by
  simp [setFilm, h]
@[simp] theorem same_setVideo {q : StreamId} {x : FilmVideo} (h : p ≠ .flm) : p.same s (setVideo q x t) ↔ p.same s t := by
  simp [setVideo, h]
@[simp] theorem same_setAudio {q : StreamId} {x : FilmAudio} (h : p ≠ .flm) : p.same s (setAudio q x t) ↔ p.same s t := by
  simp [setAudio, h]

end Shared

end Sys2Proof.Machine
end

