-- ==== Sys2Proof/Laws/FrameMedia.lean ====
section
/-! SUPPORT. What the operations of the film streams, the mixer, the chime engine, the settings store and the guide generator leave
unchanged. -/

namespace Sys2Proof.Machine

variable {p : Part} {s t : State}

/-! ## Film streams: their records, the audio readers and the notices -/

@[simp] theorem same_completeFlush {st : StreamId} (h : p ≠ .flm) (w : p ≠ .wai) :
    p.same s (completeFlush st t) ↔ p.same s t := by
  unfold completeFlush; simp only; split <;> simp [h, w]

@[simp] theorem same_completeClose {st : StreamId} (h : p ≠ .flm) (w : p ≠ .wai) :
    p.same s (completeClose st t) ↔ p.same s t := by
  unfold completeClose; simp only; split <;> simp [h, w]

@[simp] theorem same_examineStream {st : StreamId} (h : p ≠ .flm) (w : p ≠ .wai) :
    p.same s (examineStream st t) ↔ p.same s t := by
  unfold examineStream; simp only; repeat' split
  all_goals simp [h, w]

@[simp] theorem same_retireStream {st : StreamId} (h : p ≠ .flm) (w : p ≠ .wai) :
    p.same s (retireStream st t) ↔ p.same s t := by simp [retireStream, h, w]

@[simp] theorem same_handSet {q : PipeId} {a b : Bool} (h : p ≠ .flm) (w : p ≠ .wai) :
    p.same s (handSet q a b t) ↔ p.same s t := by simp [handSet, h, w]

@[simp] theorem same_presentStream {st : StreamId} {n : Nat} (h : p ≠ .flm) (w : p ≠ .wai) :
    p.same s (presentStream st n t) ↔ p.same s t := by
  unfold presentStream; simp only; repeat' split
  all_goals simp [h, w]

@[simp] theorem same_present {q : PipeId} (h : p ≠ .flm) (w : p ≠ .wai) : p.same s (present q t) ↔ p.same s t := by
  unfold present
  refine same_onStreams (fun st u => ?_)
  split <;> simp [h, w]

@[simp] theorem same_startReader {st : StreamId} (h : p ≠ .flm) (f : p ≠ .fen) :
    p.same s (startReader st t) ↔ p.same s t := by
  unfold startReader; simp only
  split
  · rfl
  · split <;> split <;> simp [h, f]

@[simp] theorem same_reopenReader {st : StreamId} (h : p ≠ .flm) (f : p ≠ .fen) :
    p.same s (reopenReader st t) ↔ p.same s t := by
  unfold reopenReader; simp only
  split <;> split <;> simp [h, f]

@[simp] theorem same_retireDiscarded {st : StreamId} (h : p ≠ .flm) : p.same s (retireDiscarded st t) ↔ p.same s t := by
  unfold retireDiscarded; simp only
  split <;> simp [h]

@[simp] theorem same_afterAudioUnit {st : StreamId} (h : p ≠ .flm) (w : p ≠ .wai) (f : p ≠ .fen) :
    p.same s (afterAudioUnit st t) ↔ p.same s t := by simp [afterAudioUnit, h, w, f]

@[simp] theorem same_audioUnitDone {st : StreamId} {d : Bool} {bs : List Byte} (h : p ≠ .flm) (w : p ≠ .wai) (f : p ≠ .fen) :
    p.same s (audioUnitDone st d bs t) ↔ p.same s t := by
  unfold audioUnitDone; split <;> simp [h, w, f]

@[simp] theorem same_audioError {st : StreamId} {d : Bool} (h : p ≠ .flm) (w : p ≠ .wai) (f : p ≠ .fen) :
    p.same s (audioError st d t) ↔ p.same s t := by
  unfold audioError; simp only; split <;> split <;> simp [h, w, f]

@[simp] theorem same_handSample {st : StreamId} (h : p ≠ .flm) (w : p ≠ .wai) : p.same s (handSample st t) ↔ p.same s t := by
  unfold handSample; simp only; repeat' split
  all_goals simp [h, w]

@[simp] theorem same_holdStream {st : StreamId} (h : p ≠ .flm) (f : p ≠ .fen) : p.same s (holdStream st t) ↔ p.same s t := by
  unfold holdStream; simp only; split <;> simp [h, f]

@[simp] theorem same_releaseStream {st : StreamId} (h : p ≠ .flm) (f : p ≠ .fen) :
    p.same s (releaseStream st t) ↔ p.same s t := by
  unfold releaseStream; simp only; split <;> simp [h, f]

@[simp] theorem same_detachStream {st : StreamId} (h : p ≠ .flm) (f : p ≠ .fen) :
    p.same s (detachStream st t) ↔ p.same s t := by
  unfold detachStream; simp only; split <;> simp [h, f]

theorem same_withStream {c : Byte} {k : StreamId → State × Answer} (h : ∀ st, p.same s (k st).1 ↔ p.same s t) :
    p.same s (withStream c t k).1 ↔ p.same s t := by
  unfold withStream; split
  · rfl
  · exact h _

@[simp] theorem same_ownOpenStream {x : OpenParams} (h : p ≠ .flm) : p.same s (ownOpenStream x t).1 ↔ p.same s t := by
  unfold ownOpenStream
  refine same_withStream (fun st => ?_)
  simp only; repeat' split
  all_goals simp [h]

@[simp] theorem same_ownQueueFrame {x : FrameParams} (h : p ≠ .flm) : p.same s (ownQueueFrame x t).1 ↔ p.same s t := by
  unfold ownQueueFrame
  refine same_withStream (fun st => ?_)
  simp only; repeat' split
  all_goals simp [h]

@[simp] theorem same_ownQueueAudio {x : AudioParams} (h : p ≠ .flm) (f : p ≠ .fen) :
    p.same s (ownQueueAudio x t).1 ↔ p.same s t := by
  unfold ownQueueAudio
  refine same_withStream (fun st => ?_)
  simp only; repeat' split
  all_goals simp [h, f]

@[simp] theorem same_discardUnits {st : StreamId} (f : p ≠ .fen) : p.same s (discardUnits st t) ↔ p.same s t := by
  simp [discardUnits, f]

@[simp] theorem same_flushStreamNow {st : StreamId} (h : p ≠ .flm) (f : p ≠ .fen) :
    p.same s (flushStreamNow st t) ↔ p.same s t := by simp [flushStreamNow, flushAudio, h, f]

@[simp] theorem same_ownFlushStream {q : LongReq} {c : Byte} (h : p ≠ .flm) (w : p ≠ .wai) (f : p ≠ .fen) :
    p.same s (ownFlushStream q c t).1 ↔ p.same s t := by
  unfold ownFlushStream
  refine same_withStream (fun st => ?_)
  simp only; repeat' split
  all_goals simp [h, w, f]

@[simp] theorem same_ownCloseStream {q : LongReq} {c : Byte} (h : p ≠ .flm) (w : p ≠ .wai) (f : p ≠ .fen) :
    p.same s (ownCloseStream q c t).1 ↔ p.same s t := by
  unfold ownCloseStream
  refine same_withStream (fun st => ?_)
  simp only; repeat' split
  all_goals simp [h, w, f]

/-! ## Mixer -/

@[simp] theorem same_rampAll (h : p ≠ .mix) : p.same s (rampAll t) ↔ p.same s t := by simp [rampAll, h]
@[simp] theorem same_muteForLow (h : p ≠ .mix) : p.same s (muteForLow t) ↔ p.same s t := by simp [muteForLow, h]
@[simp] theorem same_safetyDrop (h : p ≠ .mix) : p.same s (safetyDrop t) ↔ p.same s t := by
  unfold safetyDrop; simp only; split <;> simp [h]
@[simp] theorem same_duckChange {d : Option Nat} (h : p ≠ .mix) : p.same s (duckChange d t) ↔ p.same s t := by
  unfold duckChange; split
  · simp [h]
  · split <;> simp [h]
@[simp] theorem same_ownSetMix {x : MixParams} (h : p ≠ .mix) (m : p ≠ .matrix) :
    p.same s (ownSetMix x t).1 ↔ p.same s t := by simp [ownSetMix, h, m]

/-! ## Chime engine -/

@[simp] theorem replaceHeld_bank (n : Nat) (c : Che) : (replaceHeld n c).bank = c.bank := by
  unfold replaceHeld; repeat' split
  all_goals rfl
@[simp] theorem replaceHeld_free (n : Nat) (c : Che) : (replaceHeld n c).free = c.free := by
  unfold replaceHeld; repeat' split
  all_goals rfl
@[simp] theorem replaceHeld_loads (n : Nat) (c : Che) : (replaceHeld n c).loads = c.loads := by
  unfold replaceHeld; repeat' split
  all_goals rfl
@[simp] theorem takeDef_bank (n : Nat) (d : ChimeDef) (c : Che) : (takeDef n d c).bank = c.bank := by
  unfold takeDef; split <;> rfl
@[simp] theorem takeDef_free (n : Nat) (d : ChimeDef) (c : Che) : (takeDef n d c).free = c.free := by
  unfold takeDef; split <;> rfl
@[simp] theorem takeDef_loads (n : Nat) (d : ChimeDef) (c : Che) : (takeDef n d c).loads = c.loads := by
  unfold takeDef; split <;> rfl
@[simp] theorem takeDefs_bank (ds : List ChimeDef) (c : Che) : (takeDefs ds c).bank = c.bank := by
  unfold takeDefs; split <;> simp
@[simp] theorem takeDefs_free (ds : List ChimeDef) (c : Che) : (takeDefs ds c).free = c.free := by
  unfold takeDefs; split <;> simp
@[simp] theorem takeDefs_loads (ds : List ChimeDef) (c : Che) : (takeDefs ds c).loads = c.loads := by
  unfold takeDefs; split <;> simp

@[simp] theorem same_settleDefs (h : p ≠ .che) : p.same s (settleDefs t) ↔ p.same s t := by simp [settleDefs, h]
@[simp] theorem same_raiseDropped {r : ChimeRec} {n : Nat} (w : p ≠ .wai) : p.same s (raiseDropped r n t) ↔ p.same s t := by
  simp [raiseDropped, w]
@[simp] theorem same_enqueue {r : ChimeRec} (h : p ≠ .che) (w : p ≠ .wai) : p.same s (enqueue r t).1 ↔ p.same s t := by
  unfold enqueue; repeat' split
  all_goals simp [h, w]
@[simp] theorem same_setPlaying {x : Option Playing} (h : p ≠ .che) (m : p ≠ .mix) :
    p.same s (setPlaying x t) ↔ p.same s t := by simp [setPlaying, h, m]
@[simp] theorem same_startNext (h : p ≠ .che) (m : p ≠ .mix) : p.same s (startNext t) ↔ p.same s t := by
  unfold startNext; repeat' split
  all_goals simp [h, m]
@[simp] theorem same_endPlaying (h : p ≠ .che) (m : p ≠ .mix) : p.same s (endPlaying t) ↔ p.same s t := by
  unfold endPlaying; split <;> simp [h, m]
@[simp] theorem same_stopPlaying (h : p ≠ .che) (m : p ≠ .mix) : p.same s (stopPlaying t) ↔ p.same s t := by
  simp [stopPlaying, h, m]

@[simp] theorem same_arriveQueued {r : ChimeRec} (h : p ≠ .che) (m : p ≠ .mix) (w : p ≠ .wai) :
    p.same s (arriveQueued r t).1 ↔ p.same s t := by
  have e := same_enqueue (p := p) (s := s) (t := t) (r := r) h w
  unfold arriveQueued
  split
  · rename_i u hu; rw [hu] at e; simpa [h, m] using e
  · rename_i u hu; rw [hu] at e; split <;> simpa [w] using e

@[simp] theorem same_preempt {r : ChimeRec} {x : Playing} (h : p ≠ .che) (m : p ≠ .mix) (w : p ≠ .wai) :
    p.same s (preempt r x t) ↔ p.same s t := by
  unfold preempt
  simp only
  split <;> rename_i u hu <;>
    have e := same_enqueue (p := p) (s := s) (t := setPlaying (some (Playing.begin r)) (t.setChe { t.che with tail := tailOf t.che }))
      (r := x.chime) h w <;> rw [hu] at e <;> simpa [h, m, w] using e

@[simp] theorem same_arriveDef {n : Nat} {d : ChimeDef} {o : Origin} (h : p ≠ .che) (m : p ≠ .mix) (w : p ≠ .wai) :
    p.same s (arriveDef n d o t).1 ↔ p.same s t := by
  unfold arriveDef
  simp only
  repeat' split
  all_goals simp [h, m, w]

@[simp] theorem same_arrive {n : Nat} {o : Origin} (h : p ≠ .che) (m : p ≠ .mix) (w : p ≠ .wai) :
    p.same s (arrive n o t).1 ↔ p.same s t := by
  unfold arrive; split <;> simp [h, m, w]

@[simp] theorem same_arriveInternal {n : Nat} (h : p ≠ .che) (m : p ≠ .mix) (w : p ≠ .wai) :
    p.same s (arriveInternal n t) ↔ p.same s t := by simp [arriveInternal, h, m, w]

@[simp] theorem same_finishPlaying {x : Playing} (h : p ≠ .che) (m : p ≠ .mix) (w : p ≠ .wai) :
    p.same s (finishPlaying x t) ↔ p.same s t := by
  unfold finishPlaying; simp only; split <;> simp [h, m, w]

@[simp] theorem same_cycleEnd {x : Playing} (h : p ≠ .che) (m : p ≠ .mix) (w : p ≠ .wai) :
    p.same s (cycleEnd x t) ↔ p.same s t := by
  unfold cycleEnd; simp only; repeat' split
  all_goals simp [h, m, w]

@[simp] theorem same_stepEnd (h : p ≠ .che) (m : p ≠ .mix) (w : p ≠ .wai) : p.same s (stepEnd t) ↔ p.same s t := by
  unfold stepEnd; repeat' split
  all_goals simp [h, m, w]

@[simp] theorem same_tailEnd (h : p ≠ .che) : p.same s (tailEnd t) ↔ p.same s t := by simp [tailEnd, h]

@[simp] theorem same_cadenceDecision (h : p ≠ .che) : p.same s (cadenceDecision t) ↔ p.same s t := by
  unfold cadenceDecision; repeat' split
  all_goals simp [h]

@[simp] theorem same_cadenceCycle (h : p ≠ .che) : p.same s (cadenceCycle t) ↔ p.same s t := by
  unfold cadenceCycle; simp only; repeat' split
  all_goals simp [h]

@[simp] theorem same_stopCadence (h : p ≠ .che) (m : p ≠ .mix) : p.same s (stopCadence t) ↔ p.same s t := by
  unfold stopCadence; split <;> simp [h, m]

@[simp] theorem same_evalCadence {b : Bool} (h : p ≠ .che) (m : p ≠ .mix) (w : p ≠ .wai) :
    p.same s (evalCadence b t) ↔ p.same s t := by
  unfold evalCadence; simp only; repeat' split
  all_goals simp [h, m, w]

@[simp] theorem same_dropLoad {n : Nat} (h : p ≠ .che) (b : p ≠ .bank) (f : p ≠ .fen) : p.same s (dropLoad n t) ↔ p.same s t := by
  simp [dropLoad, h, b, f]
@[simp] theorem same_finishLoad {n : Nat} (h : p ≠ .che) (b : p ≠ .bank) (f : p ≠ .fen) (w : p ≠ .wai) :
    p.same s (finishLoad n t) ↔ p.same s t := by
  unfold finishLoad; simp only; split <;> simp [h, b, f, w]
@[simp] theorem same_failLoad {n : Nat} (h : p ≠ .che) (b : p ≠ .bank) (f : p ≠ .fen) (w : p ≠ .wai) :
    p.same s (failLoad n t) ↔ p.same s t := by
  unfold failLoad; split <;> simp [h, b, f, w]
@[simp] theorem same_abandonLoad {n : Nat} (h : p ≠ .che) (b : p ≠ .bank) (f : p ≠ .fen) :
    p.same s (abandonLoad n t) ↔ p.same s t := by
  unfold abandonLoad; split <;> simp [h, b, f]
@[simp] theorem same_suspendLoads (f : p ≠ .fen) : p.same s (suspendLoads t) ↔ p.same s t := by simp [suspendLoads, f]
@[simp] theorem same_resumeLoads (f : p ≠ .fen) : p.same s (resumeLoads t) ↔ p.same s t := by simp [resumeLoads, f]

@[simp] theorem same_ownDefineChime {x : ChimeParams} (h : p ≠ .che) : p.same s (ownDefineChime x t).1 ↔ p.same s t := by
  unfold ownDefineChime; simp only; repeat' split
  all_goals simp [h]
@[simp] theorem same_ownPlayChime {c : Byte} (h : p ≠ .che) (m : p ≠ .mix) (w : p ≠ .wai) :
    p.same s (ownPlayChime c t).1 ↔ p.same s t := by
  unfold ownPlayChime; repeat' split
  all_goals simp [h, m, w]
@[simp] theorem same_ownCancelChime {c : Byte} (h : p ≠ .che) (m : p ≠ .mix) : p.same s (ownCancelChime c t).1 ↔ p.same s t := by
  unfold ownCancelChime; repeat' split
  all_goals simp [h, m]
@[simp] theorem same_ownLoadSound {q : LongReq} {x : LoadParams} (h : p ≠ .che) (b : p ≠ .bank) (f : p ≠ .fen) (w : p ≠ .wai) :
    p.same s (ownLoadSound q x t).1 ↔ p.same s t := by
  unfold ownLoadSound; simp only; repeat' split
  all_goals simp [h, b, f, w]
@[simp] theorem same_ownPlaySound {c : Byte} (h : p ≠ .che) (f : p ≠ .fen) : p.same s (ownPlaySound c t).1 ↔ p.same s t := by
  unfold ownPlaySound; simp only; repeat' split
  all_goals simp [h, f, cutBankUnit]

/-! ## Settings store -/

@[simp] theorem same_takeSettings {x : Settings} {src : SettingsSource} (h : p ≠ .sto) (r : p ≠ .running) (v : p ≠ .vwc)
    (o : p ≠ .policy) (g : p ≠ .glg) (c : p ≠ .che) : p.same s (takeSettings x src t) ↔ p.same s t := by
  simp [takeSettings, h, r, v, o, g, c]
@[simp] theorem same_raiseSettings {e r : Nat} {x : Word} (w : p ≠ .wai) : p.same s (raiseSettings e r x t) ↔ p.same s t := by
  simp [raiseSettings, w]
@[simp] theorem same_takeStartImage {img : List Byte} (h : p ≠ .sto) (r : p ≠ .running) (v : p ≠ .vwc) (o : p ≠ .policy)
    (g : p ≠ .glg) (c : p ≠ .che) (w : p ≠ .wai) : p.same s (takeStartImage img t) ↔ p.same s t := by
  unfold takeStartImage; split <;> simp [h, r, v, o, g, c, w]
@[simp] theorem same_applyWaiting (h : p ≠ .sto) (r : p ≠ .running) (v : p ≠ .vwc) (o : p ≠ .policy) (g : p ≠ .glg)
    (c : p ≠ .che) (w : p ≠ .wai) : p.same s (applyWaiting t) ↔ p.same s t := by
  unfold applyWaiting; split <;> simp [h, r, v, o, g, c, w]
@[simp] theorem same_setFlash {o : Option FlashOp} (h : p ≠ .sto) : p.same s (setFlash o t) ↔ p.same s t := by simp [setFlash, h]
@[simp] theorem same_serveFlash (h : p ≠ .sto) : p.same s (serveFlash t) ↔ p.same s t := by
  unfold serveFlash; repeat' split
  all_goals simp [h]
@[simp] theorem same_freeFlash (h : p ≠ .sto) : p.same s (freeFlash t) ↔ p.same s t := by simp [freeFlash, h]
@[simp] theorem same_failWrite {r : WriteReason} (h : p ≠ .sto) (w : p ≠ .wai) : p.same s (failWrite r t) ↔ p.same s t := by
  unfold failWrite; simp only; split <;> simp [h, w]
@[simp] theorem same_finishWrite (h : p ≠ .sto) (r : p ≠ .running) (v : p ≠ .vwc) (o : p ≠ .policy) (g : p ≠ .glg)
    (c : p ≠ .che) (w : p ≠ .wai) : p.same s (finishWrite t) ↔ p.same s t := by
  unfold finishWrite; simp only; split <;> split <;> simp [h, r, v, o, g, c, w]
@[simp] theorem same_copyInDone (h : p ≠ .sto) (w : p ≠ .wai) : p.same s (copyInDone t) ↔ p.same s t := by
  unfold copyInDone; repeat' split
  all_goals simp [h, w]
@[simp] theorem same_eraseAtNormal (h : p ≠ .sto) : p.same s (eraseAtNormal t) ↔ p.same s t := by
  unfold eraseAtNormal; split <;> simp [h]
@[simp] theorem same_timeoutWrite {r : WriteReason} (h : p ≠ .sto) (w : p ≠ .wai) :
    p.same s (timeoutWrite r t) ↔ p.same s t := by simp [timeoutWrite, h, w]
@[simp] theorem same_compareImage {bs : List Byte} (h : p ≠ .sto) (r : p ≠ .running) (v : p ≠ .vwc) (o : p ≠ .policy)
    (g : p ≠ .glg) (c : p ≠ .che) (w : p ≠ .wai) : p.same s (compareImage bs t) ↔ p.same s t := by
  unfold compareImage; split <;> simp [h, r, v, o, g, c, w]
@[simp] theorem same_endRead {x : Status} (h : p ≠ .sto) (w : p ≠ .wai) : p.same s (endRead x t) ↔ p.same s t := by
  unfold endRead; simp only; split <;> simp [h, w]
@[simp] theorem same_startCopyOut {bs : List Byte} (h : p ≠ .sto) (f : p ≠ .fen) : p.same s (startCopyOut bs t) ↔ p.same s t := by
  unfold startCopyOut; simp only; split <;> simp [h, f]
@[simp] theorem same_suspendCopies (f : p ≠ .fen) : p.same s (suspendCopies t) ↔ p.same s t := by simp [suspendCopies, f]
@[simp] theorem same_resumeCopies (f : p ≠ .fen) : p.same s (resumeCopies t) ↔ p.same s t := by simp [resumeCopies, f]
@[simp] theorem same_abandonWrite (h : p ≠ .sto) (f : p ≠ .fen) (w : p ≠ .wai) : p.same s (abandonWrite t) ↔ p.same s t := by
  unfold abandonWrite; repeat' split
  all_goals simp [h, f, w]
@[simp] theorem same_abandonRead (h : p ≠ .sto) (f : p ≠ .fen) : p.same s (abandonRead t) ↔ p.same s t := by
  unfold abandonRead; simp only; repeat' split
  all_goals simp [h, f]
@[simp] theorem same_ownWriteSettings {q : LongReq} {x : WriteParams} (h : p ≠ .sto) (f : p ≠ .fen) :
    p.same s (ownWriteSettings q x t).1 ↔ p.same s t := by
  unfold ownWriteSettings; simp only; repeat' split
  all_goals simp [h, f]
@[simp] theorem same_ownReadSettings {q : LongReq} {a : Dword} (h : p ≠ .sto) : p.same s (ownReadSettings q a t).1 ↔ p.same s t := by
  unfold ownReadSettings; repeat' split
  all_goals simp [h]

/-! ## Guide generator -/

@[simp] theorem same_setGuideMode {m : GuideMode} (g : p ≠ .glg) (w : p ≠ .wai) : p.same s (setGuideMode m t) ↔ p.same s t := by
  unfold setGuideMode; split <;> simp [g, w]
@[simp] theorem same_completeRun {m : GuideMode} (g : p ≠ .glg) : p.same s (completeRun m t) ↔ p.same s t := by simp [completeRun, g]
@[simp] theorem same_guideDone (g : p ≠ .glg) : p.same s (guideDone t) ↔ p.same s t := by
  unfold guideDone; split <;> simp [g]
@[simp] theorem same_abandonRun (g : p ≠ .glg) (f : p ≠ .fen) : p.same s (abandonRun t) ↔ p.same s t := by
  unfold abandonRun; split <;> simp [g, f]
@[simp] theorem same_swapOverlay (g : p ≠ .glg) (f : p ≠ .fen) : p.same s (swapOverlay t) ↔ p.same s t := by
  unfold swapOverlay; split <;> simp [g, f]
@[simp] theorem same_curvatureStep (g : p ≠ .glg) : p.same s (curvatureStep t) ↔ p.same s t := by simp [curvatureStep, g]
@[simp] theorem same_startRun {m : GuideMode} (g : p ≠ .glg) (f : p ≠ .fen) : p.same s (startRun m t) ↔ p.same s t := by
  simp [startRun, g, f]
@[simp] theorem same_guideVblank (g : p ≠ .glg) (f : p ≠ .fen) (w : p ≠ .wai) : p.same s (guideVblank t) ↔ p.same s t := by
  unfold guideVblank; simp only; repeat' split
  all_goals simp [g, f, w]
@[simp] theorem same_guideExit (g : p ≠ .glg) (f : p ≠ .fen) (w : p ≠ .wai) : p.same s (guideExit t) ↔ p.same s t := by
  simp [guideExit, g, f, w]

end Sys2Proof.Machine
end

