-- ==== Sys2Proof/Laws/FrameView.lean ====
section
/-! SUPPORT. What the operations of the compositor, the view, the camera input, the vehicle receiver, the supply monitor and a
vblank leave unchanged. -/

namespace Sys2Proof.Machine

variable {p : Part} {s t : State}

/-! ## Compositor -/

@[simp] theorem same_setReader {q : PipeId} {n : Nat} {r : SlotReader} (c : p ≠ .cmp) :
    p.same s (setReader q n r t) ↔ p.same s t := by simp [setReader, c]
@[simp] theorem same_hideSlot {q : PipeId} {n : Nat} (c : p ≠ .cmp) (f : p ≠ .fen) :
    p.same s (hideSlot q n t) ↔ p.same s t := by simp [hideSlot, c, f]
@[simp] theorem same_stopSlot {q : PipeId} {n : Nat} (c : p ≠ .cmp) (f : p ≠ .fen) :
    p.same s (stopSlot q n t) ↔ p.same s t := by simp [stopSlot, c, f]
@[simp] theorem same_hideSlots {q : PipeId} (c : p ≠ .cmp) (f : p ≠ .fen) : p.same s (hideSlots q t) ↔ p.same s t := by
  simp [hideSlots, c, f]
@[simp] theorem same_stopSlots {q : PipeId} (c : p ≠ .cmp) (f : p ≠ .fen) : p.same s (stopSlots q t) ↔ p.same s t := by
  simp [stopSlots, c, f]
@[simp] theorem same_dropLayers (f : p ≠ .fen) : p.same s (dropLayers t) ↔ p.same s t := by
  simp [dropLayers, cutLayerUnit, f]
@[simp] theorem same_raisePipe {q : PipeId} {a b : PipeState} {c : PipeCause} (w : p ≠ .wai) :
    p.same s (raisePipe q a b c t) ↔ p.same s t := by simp [raisePipe, w]
@[simp] theorem same_latchLayout {o : Option Nat} (c : p ≠ .cmp) : p.same s (latchLayout o t) ↔ p.same s t := by
  simp [latchLayout, c]
@[simp] theorem pipeOf_latchLayout (o : Option Nat) (u : State) (q : PipeId) : pipeOf (latchLayout o u) q = pipeOf u q := by
  simp [latchLayout]
@[simp] theorem same_clearPicture (c : p ≠ .cmp) : p.same s (clearPicture t) ↔ p.same s t := by simp [clearPicture, c]
@[simp] theorem pipeOf_clearPicture (u : State) (q : PipeId) : pipeOf (clearPicture u) q = pipeOf u q := by simp [clearPicture]
@[simp] theorem same_startLayout {o : PipeState} (c : p ≠ .cmp) : p.same s (startLayout o t) ↔ p.same s t := by
  unfold startLayout; split <;> simp [c]
@[simp] theorem pipeOf_startLayout (o : PipeState) (u : State) (q : PipeId) : pipeOf (startLayout o u) q = pipeOf u q := by
  unfold startLayout; split <;> simp
@[simp] theorem same_countDrawn (c : p ≠ .cmp) : p.same s (countDrawn t) ↔ p.same s t := by simp [countDrawn, c]
@[simp] theorem pipeOf_countDrawn (u : State) (q : PipeId) : pipeOf (countDrawn u) q = pipeOf u q := by simp [countDrawn]
@[simp] theorem startedPipe_timing (c : Content) (n : Nat) (x : Pipe) : (startedPipe c n x).timing = x.timing := (rfl)

@[simp] theorem same_enterStarting {q : PipeId} {k : PipeCause} (c : p ≠ .cmp) (f : p ≠ .fen) (w : p ≠ .wai) (m : p ≠ .flm) :
    p.same s (enterStarting q k t) ↔ p.same s t := by
  unfold enterStarting; simp only; split <;> simp [c, f, w, m]
@[simp] theorem same_freeShown (i : p ≠ .cin) : p.same s (freeShown t) ↔ p.same s t := by simp [freeShown, i]
@[simp] theorem same_enterOff {q : PipeId} (i : p ≠ .cin) (c : p ≠ .cmp) (f : p ≠ .fen) (w : p ≠ .wai) (m : p ≠ .flm) :
    p.same s (enterOff q t) ↔ p.same s t := by
  unfold enterOff; simp only; split <;> simp [i, c, f, w, m]
@[simp] theorem same_startByView (c : p ≠ .cmp) (g : p ≠ .timings) (f : p ≠ .fen) (w : p ≠ .wai) (m : p ≠ .flm) :
    p.same s (startByView t) ↔ p.same s t := by
  unfold startByView; simp only; split <;> simp [c, g, f, w, m]

theorem same_withPipe {c : Byte} {k : PipeId → State × Answer} (h : ∀ q, p.same s (k q).1 ↔ p.same s t) :
    p.same s (withPipe c t k).1 ↔ p.same s t := by
  unfold withPipe; split
  · rfl
  · exact h _

@[simp] theorem same_ownSetPipeTiming {x : TimingParams} (c : p ≠ .cmp) (g : p ≠ .timings) (f : p ≠ .fen) (w : p ≠ .wai)
    (m : p ≠ .flm) : p.same s (ownSetPipeTiming x t).1 ↔ p.same s t := by
  unfold ownSetPipeTiming
  refine same_withPipe (fun q => ?_)
  simp only; repeat' split
  all_goals simp [c, g, f, w, m]
@[simp] theorem same_ownPipeOff {x : Byte} (i : p ≠ .cin) (c : p ≠ .cmp) (f : p ≠ .fen) (w : p ≠ .wai) (m : p ≠ .flm) :
    p.same s (ownPipeOff x t).1 ↔ p.same s t := by
  unfold ownPipeOff
  refine same_withPipe (fun q => ?_)
  repeat' split
  all_goals simp [i, c, f, w, m]
@[simp] theorem same_ownRestartPipe {r : LongReq} {x : Byte} (c : p ≠ .cmp) (f : p ≠ .fen) (w : p ≠ .wai) (m : p ≠ .flm) :
    p.same s (ownRestartPipe r x t).1 ↔ p.same s t := by
  unfold ownRestartPipe
  refine same_withPipe (fun q => ?_)
  simp only; repeat' split
  all_goals simp [c, f, w, m]
@[simp] theorem same_ownSetScene {x : SceneParams} (c : p ≠ .cmp) : p.same s (ownSetScene x t).1 ↔ p.same s t := by
  unfold ownSetScene
  refine same_withPipe (fun q => ?_)
  simp only; repeat' split
  all_goals simp [c, storeScene]

@[simp] theorem same_handLine {q : PipeId} {n : Nat} (c : p ≠ .cmp) (f : p ≠ .fen) : p.same s (handLine q n t) ↔ p.same s t := by
  unfold handLine; simp only; repeat' split
  all_goals simp [c, f]
@[simp] theorem same_lineDone {q : PipeId} {n : Nat} (c : p ≠ .cmp) (f : p ≠ .fen) : p.same s (lineDone q n t) ↔ p.same s t := by
  unfold lineDone; simp only; repeat' split
  all_goals simp [c, f]
@[simp] theorem same_lineBytes {q : PipeId} {n : Nat} {bs : List Byte} (c : p ≠ .cmp) :
    p.same s (lineBytes q n bs t) ↔ p.same s t := by
  unfold lineBytes; simp only; split <;> simp [c]
@[simp] theorem same_countLate {q : PipeId} {n : Nat} (c : p ≠ .cmp) (w : p ≠ .wai) : p.same s (countLate q n t) ↔ p.same s t := by
  unfold countLate; simp only; split <;> simp [c, w]
@[simp] theorem same_passLine {q : PipeId} {y n : Nat} (c : p ≠ .cmp) (f : p ≠ .fen) : p.same s (passLine q y n t) ↔ p.same s t := by
  unfold passLine; simp only; split <;> simp [c, f]
@[simp] theorem same_outputLine {q : PipeId} {n : Nat} (c : p ≠ .cmp) (f : p ≠ .fen) (w : p ≠ .wai) :
    p.same s (outputLine q n t) ↔ p.same s t := by
  unfold outputLine; simp only
  split <;> split <;> simp [c, f, w, same_foldl]
@[simp] theorem same_hideFilms (c : p ≠ .cmp) (f : p ≠ .fen) : p.same s (hideFilms t) ↔ p.same s t := by
  unfold hideFilms
  refine same_onSlots (fun n u => ?_)
  repeat' split
  all_goals simp [c, f]
@[simp] theorem same_hideFetched {q : PipeId} (c : p ≠ .cmp) (f : p ≠ .fen) : p.same s (hideFetched q t) ↔ p.same s t := by
  unfold hideFetched
  refine same_onSlots (fun n u => ?_)
  repeat' split
  all_goals simp [c, f]
@[simp] theorem same_withdrawSlot {q : PipeId} {n : Nat} (c : p ≠ .cmp) (f : p ≠ .fen) :
    p.same s (withdrawSlot q n t) ↔ p.same s t := by
  unfold withdrawSlot; repeat' split
  all_goals simp [c, f]
@[simp] theorem same_withdrawPipe {q : PipeId} (c : p ≠ .cmp) (f : p ≠ .fen) (w : p ≠ .wai) (m : p ≠ .flm) :
    p.same s (withdrawPipe q t) ↔ p.same s t := by
  unfold withdrawPipe
  simp only
  rw [same_handSet m w, same_setPipe c (by simp), same_onSlots (f := withdrawSlot q) (fun n u => (same_withdrawSlot c f).2 (Part.same_self p u))]
@[simp] theorem same_planeError {q : PipeId} {n a : Nat} (c : p ≠ .cmp) (f : p ≠ .fen) (w : p ≠ .wai) :
    p.same s (planeError q n a t) ↔ p.same s t := by
  unfold planeError; simp only; repeat' split
  all_goals simp [c, f, w]
@[simp] theorem same_openComposition (c : p ≠ .cmp) (f : p ≠ .fen) : p.same s (openComposition t) ↔ p.same s t := by
  unfold openComposition; simp only; split
  · rfl
  · simp [c]
  · rw [same_onSlots (fun n u => by split <;> simp [c, f]), same_setPipe c (by simp), same_clearPicture c, same_dropLayers f]

/-! ## View controller -/

@[simp] theorem movedView_policy (n : Nat) (v : ViewState) (m : Bool) (x : Vwc) : (movedView n v m x).policy = x.policy := (rfl)

@[simp] theorem same_raiseView {a b : Vwc} {c : ViewCause} (w : p ≠ .wai) : p.same s (raiseView a b c t) ↔ p.same s t := by
  simp [raiseView, w]

/-- A move of the view into any state. -/
@[simp] theorem same_moveView {v : ViewState} {m : Bool} {k : ViewCause} (h : p ∉ viewParts) :
    p.same s (moveView v m k t) ↔ p.same s t := by
  simp only [viewParts, offParts, List.mem_append, List.mem_cons, List.not_mem_nil, or_false, not_or] at h
  unfold moveView enterView; simp only
  cases v <;> simp only <;> split <;> split <;> simp [h]

/-- A move into OFF from a state that is not LIVE applies the waiting settings and changes nothing else. -/
theorem same_moveView_off {m : Bool} {k : ViewCause} (h : p ∉ offParts) (o : t.vwc.view ≠ .off) :
    p.same s (moveView .off m k t) ↔ p.same s t := by
  simp only [offParts, List.mem_cons, List.not_mem_nil, or_false, not_or] at h
  unfold moveView enterView; simp only
  split <;> split <;> simp_all

/-- A move into NO_SIGNAL from a state that is not OFF brings the camera-fault chime, and ends the overlay of a LIVE view. -/
theorem same_moveView_noSignal {m : Bool} {k : ViewCause} (o : t.vwc.view ≠ .off) (h : p ∉ pictureParts) :
    p.same s (moveView .noSignal m k t) ↔ p.same s t := by
  simp only [pictureParts, List.mem_cons, List.not_mem_nil, or_false, not_or] at h
  unfold moveView enterView; simp only
  split <;> split <;> simp_all

/-- A move into LIVE from a state that is not OFF makes the snap pending. -/
theorem same_moveView_live {m : Bool} {k : ViewCause} (o : t.vwc.view ≠ .off) (v : p ≠ .vwc) (g : p ≠ .glg) (f : p ≠ .fen)
    (w : p ≠ .wai) : p.same s (moveView .live m k t) ↔ p.same s t := by
  unfold moveView enterView; simp only
  split <;> split <;> simp_all

@[simp] theorem same_takeOver (v : p ≠ .vwc) (w : p ≠ .wai) : p.same s (takeOver t) ↔ p.same s t := by
  simp [takeOver, v, w]

@[simp] theorem same_viewReverseOn (h : p ∉ viewParts) : p.same s (viewReverseOn t) ↔ p.same s t := by
  have e := h
  simp only [viewParts, offParts, List.mem_append, List.mem_cons, List.not_mem_nil, or_false, not_or] at e
  unfold viewReverseOn; split
  · simp [h]
  · simp [h]
  · split <;> simp [e]

@[simp] theorem same_viewReverseOff (h : p ∉ viewParts) : p.same s (viewReverseOff t) ↔ p.same s t := by
  unfold viewReverseOff leaveReverse; repeat' split
  all_goals simp [h]

@[simp] theorem same_viewVblank (v : p ≠ .vwc) (g : p ≠ .glg) (f : p ≠ .fen) (w : p ≠ .wai) :
    p.same s (viewVblank t) ↔ p.same s t := by
  unfold viewVblank; split
  · rename_i h
    rw [same_moveView_live _ v g f w]
    rcases h.1 with e | e <;> simp [e]
  · rfl

@[simp] theorem same_viewStartTimeout (v : p ≠ .vwc) (c : p ≠ .che) (m : p ≠ .mix) (w : p ≠ .wai) :
    p.same s (viewStartTimeout t) ↔ p.same s t := by
  unfold viewStartTimeout; split
  · rename_i e
    unfold moveView enterView; simp only
    simp [e, v, c, m, w]
  · simp [v]

@[simp] theorem same_viewCameraGone {k : ViewCause} (h : p ∉ pictureParts) : p.same s (viewCameraGone k t) ↔ p.same s t := by
  unfold viewCameraGone; split
  · rename_i e; rw [same_moveView_noSignal (by simp [e]) h]
  · rfl

@[simp] theorem same_viewExitTimeout (h : p ∉ offParts) : p.same s (viewExitTimeout t) ↔ p.same s t := by
  unfold viewExitTimeout; split
  · rename_i e; rw [same_moveView_off h (by simp [e])]
  · simp only [offParts, List.mem_cons, List.not_mem_nil, or_false, not_or] at h
    simp [h]

@[simp] theorem same_viewSpeed (h : p ∉ viewParts) : p.same s (viewSpeed t) ↔ p.same s t := by
  unfold viewSpeed; repeat' split
  all_goals simp [h]

@[simp] theorem same_ownViewRequest {x : Byte} (h : p ∉ viewParts) : p.same s (ownViewRequest x t).1 ↔ p.same s t := by
  unfold ownViewRequest viewOn viewOff; repeat' split
  all_goals simp [h]

@[simp] theorem same_ownSetViewPolicy {x : PolicyParams} (v : p ≠ .vwc) (o : p ≠ .policy) :
    p.same s (ownSetViewPolicy x t).1 ↔ p.same s t := by
  unfold ownSetViewPolicy; split <;> simp [v, o]

/-! ## Camera input -/

@[simp] theorem same_clearFrozen (i : p ≠ .cin) (w : p ≠ .wai) : p.same s (clearFrozen t) ↔ p.same s t := by
  unfold clearFrozen; split <;> simp [i, w]

theorem pictureParts_not {p : Part} (h : p ∉ pictureParts) :
    p ≠ .cin ∧ p ≠ .vwc ∧ p ≠ .glg ∧ p ≠ .che ∧ p ≠ .mix ∧ p ≠ .fen ∧ p ≠ .wai := by
  simpa [pictureParts] using h

@[simp] theorem same_changeStream {x : CamStream} {n : Nat} (h : p ∉ pictureParts) :
    p.same s (changeStream x n t) ↔ p.same s t := by
  have e := pictureParts_not h
  unfold changeStream; simp only; split <;> simp [h, e]
@[simp] theorem same_dropFrame (i : p ≠ .cin) : p.same s (dropFrame t) ↔ p.same s t := by simp [dropFrame, i]
@[simp] theorem same_beginFrame (i : p ≠ .cin) : p.same s (beginFrame t) ↔ p.same s t := by simp [beginFrame, i]
@[simp] theorem same_frameStartStream (h : p ∉ pictureParts) : p.same s (frameStartStream t) ↔ p.same s t := by
  have e := pictureParts_not h
  unfold frameStartStream; simp only; split <;> simp [h, e]
@[simp] theorem same_faultFrame {x : FaultCause} (h : p ∉ pictureParts) : p.same s (faultFrame x t) ↔ p.same s t := by
  have e := pictureParts_not h
  unfold faultFrame; simp only; repeat' split
  all_goals simp [h, e]
@[simp] theorem same_goodEndStream (h : p ∉ pictureParts) : p.same s (goodEndStream t) ↔ p.same s t := by
  have e := pictureParts_not h
  unfold goodEndStream; simp only; repeat' split
  all_goals simp [h, e]
@[simp] theorem same_takeSignature {n : Nat} (h : p ∉ pictureParts) : p.same s (takeSignature n t) ↔ p.same s t := by
  have e := pictureParts_not h
  unfold takeSignature; simp only; repeat' split
  all_goals simp [h, e]
@[simp] theorem same_goodEnd {f : CamFrame} (h : p ∉ pictureParts) : p.same s (goodEnd f t) ↔ p.same s t := by
  have e := pictureParts_not h
  unfold goodEnd; simp only; split <;> simp [h, e]
@[simp] theorem same_handRow {x : CamFrame} {bs : List Byte} (i : p ≠ .cin) (f : p ≠ .fen) :
    p.same s (handRow x bs t) ↔ p.same s t := by simp [handRow, i, f]
@[simp] theorem same_nextTestRow (i : p ≠ .cin) (f : p ≠ .fen) : p.same s (nextTestRow t) ↔ p.same s t := by
  unfold nextTestRow; repeat' split
  all_goals simp [i, f]
@[simp] theorem same_lineWritten (h : p ∉ pictureParts) : p.same s (lineWritten t) ↔ p.same s t := by
  have e := pictureParts_not h
  unfold lineWritten; repeat' split
  all_goals simp [h, e]
@[simp] theorem same_completeCameraUnit (f : p ≠ .fen) : p.same s (completeCameraUnit t) ↔ p.same s t := by
  unfold completeCameraUnit; repeat' split
  all_goals simp [f]
@[simp] theorem same_flushLine (f : p ≠ .fen) (l : p ≠ .localMem) : p.same s (flushLine t) ↔ p.same s t := by
  simp [flushLine, f, l]
@[simp] theorem same_finishLine (h : p ∉ pictureParts) (l : p ≠ .localMem) : p.same s (finishLine t) ↔ p.same s t := by
  have e := pictureParts_not h
  unfold finishLine; simp only; repeat' split
  all_goals simp [h, e, l]
@[simp] theorem same_stopLine (f : p ≠ .fen) : p.same s (stopLine t) ↔ p.same s t := by simp [stopLine, f]
@[simp] theorem same_endFrame {x : CamFrame} (h : p ∉ pictureParts) : p.same s (endFrame x t) ↔ p.same s t := by
  have e := pictureParts_not h
  unfold endFrame; simp only; split <;> simp [h, e]
@[simp] theorem same_camFrameStart (h : p ∉ pictureParts) (l : p ≠ .localMem) : p.same s (camFrameStart t) ↔ p.same s t := by
  have e := pictureParts_not h
  unfold camFrameStart; simp only; split <;> simp [h, e, l]
@[simp] theorem same_camLineStart (h : p ∉ pictureParts) : p.same s (camLineStart t) ↔ p.same s t := by
  have e := pictureParts_not h
  unfold camLineStart; repeat' split
  all_goals simp [h, e]
@[simp] theorem same_camLineEnd (h : p ∉ pictureParts) (l : p ≠ .localMem) : p.same s (camLineEnd t) ↔ p.same s t := by
  have e := pictureParts_not h
  unfold camLineEnd; repeat' split
  all_goals simp [h, e, l]
@[simp] theorem same_camFrameEnd (h : p ∉ pictureParts) : p.same s (camFrameEnd t) ↔ p.same s t := by
  unfold camFrameEnd; repeat' split
  all_goals simp [h]
@[simp] theorem same_camInvalid (h : p ∉ pictureParts) : p.same s (camInvalid t) ↔ p.same s t := by
  unfold camInvalid; split <;> simp [h]
@[simp] theorem same_camPixel {b : Byte} (h : p ∉ pictureParts) : p.same s (camPixel b t) ↔ p.same s t := by
  have e := pictureParts_not h
  unfold camPixel; repeat' split
  all_goals simp [h, e]
@[simp] theorem same_camDeadline (h : p ∉ pictureParts) : p.same s (camDeadline t) ↔ p.same s t := by
  have e := pictureParts_not h
  simp [camDeadline, h, e]
@[simp] theorem same_switchSource {x : CamSource} (h : p ∉ pictureParts) : p.same s (switchSource x t) ↔ p.same s t := by
  have e := pictureParts_not h
  unfold switchSource; simp only; split <;> split <;> simp [h, e]
@[simp] theorem same_enterTest (h : p ∉ pictureParts) : p.same s (enterTest t) ↔ p.same s t := by
  have e := pictureParts_not h
  simp [enterTest, h, e]
@[simp] theorem same_leaveTest {n : Nat} (h : p ∉ pictureParts) : p.same s (leaveTest n t) ↔ p.same s t := by
  have e := pictureParts_not h
  simp [leaveTest, h, e]
@[simp] theorem same_camReverseOn (h : p ∉ pictureParts) : p.same s (camReverseOn t) ↔ p.same s t := by
  unfold camReverseOn; split <;> simp [h]
@[simp] theorem same_restOfTest {n : Nat} (h : p ∉ pictureParts) (l : p ≠ .localMem) :
    p.same s (restOfTest n t) ↔ p.same s t := by
  have e := pictureParts_not h
  induction n generalizing t with
  | zero => rfl
  | succ n ih => unfold restOfTest; exact ih.trans (by simp [h, e, l])
@[simp] theorem same_endTestFrame (h : p ∉ pictureParts) (l : p ≠ .localMem) (c : p ≠ .clock) :
    p.same s (endTestFrame t) ↔ p.same s t := by
  have e := pictureParts_not h
  unfold endTestFrame; simp only; repeat' split
  all_goals simp [h, e, l, c]
@[simp] theorem same_startTestFrame (h : p ∉ pictureParts) (l : p ≠ .localMem) (c : p ≠ .clock) :
    p.same s (startTestFrame t) ↔ p.same s t := by
  have e := pictureParts_not h
  simp [startTestFrame, h, e, l, c]
@[simp] theorem same_ownCameraTest {x : Byte} (h : p ∉ pictureParts) : p.same s (ownCameraTest x t).1 ↔ p.same s t := by
  unfold ownCameraTest; repeat' split
  all_goals simp [h]

/-! ## Vehicle receiver and supply monitor -/

theorem vehicleParts_not {p : Part} (h : p ∉ vehicleParts) : p ≠ .vsr ∧ p ∉ viewParts ∧ p ∉ pictureParts ∧
    p ≠ .che ∧ p ≠ .mix ∧ p ≠ .wai ∧ p ≠ .cmp ∧ p ≠ .fen := by
  cases p <;> revert h <;> decide

@[simp] theorem same_handReverse (h : p ∉ vehicleParts) : p.same s (handReverse t) ↔ p.same s t := by
  have e := vehicleParts_not h
  unfold handReverse chimeReverseOn; repeat' split
  all_goals simp [e]
@[simp] theorem same_evalReverse (h : p ∉ vehicleParts) : p.same s (evalReverse t) ↔ p.same s t := by
  have e := vehicleParts_not h
  unfold evalReverse; simp only; split <;> simp [h, e]
@[simp] theorem same_evalDisagreement (v : p ≠ .vsr) : p.same s (evalDisagreement t) ↔ p.same s t := by
  unfold evalDisagreement; simp only; repeat' split
  all_goals simp [v]
@[simp] theorem same_evalParked (v : p ≠ .vsr) (c : p ≠ .cmp) (f : p ≠ .fen) : p.same s (evalParked t) ↔ p.same s t := by
  unfold evalParked; simp only; split <;> simp [v, c, f]
@[simp] theorem same_evalMotion (h : p ∉ vehicleParts) : p.same s (evalMotion t) ↔ p.same s t := by
  have e := vehicleParts_not h
  simp [evalMotion, h, e]
@[simp] theorem same_frameErrorNow {x : VslError} {n : Nat} {b : Option Byte} (v : p ≠ .vsr) (w : p ≠ .wai) :
    p.same s (frameErrorNow x n b t) ↔ p.same s t := by simp [frameErrorNow, v, w]
@[simp] theorem same_moveFresh {k : VslKind} {f : Freshness} (v : p ≠ .vsr) (w : p ≠ .wai) :
    p.same s (moveFresh k f t) ↔ p.same s t := by
  unfold moveFresh; simp only; split <;> simp [v, w]
@[simp] theorem same_freshFrame {k : VslKind} {n : BitVec 4} (v : p ≠ .vsr) (w : p ≠ .wai) :
    p.same s (freshFrame k n t) ↔ p.same s t := by simp [freshFrame, v, w]
@[simp] theorem same_freshDeadline {k : VslKind} (h : p ∉ vehicleParts) : p.same s (freshDeadline k t) ↔ p.same s t := by
  have e := vehicleParts_not h
  unfold freshDeadline; simp only; split <;> simp [h, e]
@[simp] theorem same_goodMotion {b : Byte} {bs : List Bool} (h : p ∉ vehicleParts) : p.same s (goodMotion b bs t) ↔ p.same s t := by
  have e := vehicleParts_not h
  unfold goodMotion; simp only; split <;> simp [h, e]
@[simp] theorem same_goodPark {b : Byte} {bs : List Bool} (h : p ∉ vehicleParts) : p.same s (goodPark b bs t) ↔ p.same s t := by
  have e := vehicleParts_not h
  simp [goodPark, e]
@[simp] theorem same_takeEvent {x : RxEvent} (h : p ∉ vehicleParts) : p.same s (takeEvent x t) ↔ p.same s t := by
  have e := vehicleParts_not h
  unfold takeEvent; repeat' split
  all_goals simp [h, e]
@[simp] theorem same_takeBits {bs : List Bool} (h : p ∉ vehicleParts) : p.same s (takeBits bs t) ↔ p.same s t := by
  have e := vehicleParts_not h
  unfold takeBits; simp only
  rw [same_foldl (fun u a => by simp [h])]; simp [e]
@[simp] theorem same_revEdge {b : Bool} (v : p ≠ .vsr) : p.same s (revEdge b t) ↔ p.same s t := by
  unfold revEdge; split <;> simp [v]
@[simp] theorem same_holdExpiry (h : p ∉ vehicleParts) : p.same s (holdExpiry t) ↔ p.same s t := by
  have e := vehicleParts_not h
  simp [holdExpiry, h, e]
@[simp] theorem same_disagreementExpiry (v : p ≠ .vsr) (w : p ≠ .wai) : p.same s (disagreementExpiry t) ↔ p.same s t := by
  unfold disagreementExpiry; simp only; split <;> simp [v, w]
@[simp] theorem same_handLow (c : p ≠ .cmp) (f : p ≠ .fen) (m : p ≠ .flm) (x : p ≠ .mix) : p.same s (handLow t) ↔ p.same s t := by
  simp [handLow, c, f, m, x]
@[simp] theorem same_handNormal (f : p ≠ .fen) (m : p ≠ .flm) (o : p ≠ .sto) : p.same s (handNormal t) ↔ p.same s t := by
  simp [handNormal, f, m, o]
@[simp] theorem same_takeSample {a b : Bool} (n : p ≠ .smn) (c : p ≠ .cmp) (f : p ≠ .fen) (m : p ≠ .flm) (x : p ≠ .mix)
    (o : p ≠ .sto) (w : p ≠ .wai) : p.same s (takeSample a b t) ↔ p.same s t := by
  unfold takeSample changeSupply; simp only; repeat' split
  all_goals simp_all

/-! ## A vblank -/

@[simp] theorem same_countStart {q : PipeId} (c : p ≠ .cmp) (w : p ≠ .wai) : p.same s (countStart q t) ↔ p.same s t := by
  unfold countStart; simp only; repeat' split
  all_goals simp [c, w]
@[simp] theorem same_activateScene {q : PipeId} (c : p ≠ .cmp) (f : p ≠ .fen) : p.same s (activateScene q t) ↔ p.same s t := by
  unfold activateScene; simp only; split <;> simp [c, f]
@[simp] theorem same_beginSlot {q : PipeId} {n : Nat} (c : p ≠ .cmp) (f : p ≠ .fen) : p.same s (beginSlot q n t) ↔ p.same s t := by
  unfold beginSlot; simp only; repeat' split
  all_goals simp [c, f]
@[simp] theorem same_beginLayers {n : Nat} (f : p ≠ .fen) : p.same s (beginLayers n t) ↔ p.same s t := by
  simp [beginLayers, f]
@[simp] theorem same_fixFrame {q : PipeId} (c : p ≠ .cmp) (f : p ≠ .fen) (m : p ≠ .flm) (w : p ≠ .wai) :
    p.same s (fixFrame q t) ↔ p.same s t := by
  unfold fixFrame; simp only; repeat' split
  all_goals simp [c, f, m, w]
@[simp] theorem same_centreVblank (i : p ≠ .cin) (v : p ≠ .vwc) (g : p ≠ .glg) (f : p ≠ .fen) (w : p ≠ .wai) :
    p.same s (centreVblank t) ↔ p.same s t := by
  simp [centreVblank, i, v, g, f, w]
@[simp] theorem same_vblank {q : PipeId} (k : p ≠ .clock) (i : p ≠ .cin) (v : p ≠ .vwc) (g : p ≠ .glg) (c : p ≠ .cmp)
    (m : p ≠ .flm) (f : p ≠ .fen) (w : p ≠ .wai) : p.same s (vblank q t) ↔ p.same s t := by
  unfold vblank; simp only; split <;> simp [k, i, v, g, c, m, f, w, reachNs]

end Sys2Proof.Machine
end

