-- ==== Sys2Proof/Laws/FrameWork.lean ====
section
/-! SUPPORT. What the operations of the work area interface and of the fetch engine leave unchanged; above all `settle`, which ends
nearly every command and touches only the interface's own record and WORK's list. -/

namespace Sys2Proof.Machine

variable {p : Part} {s t : State}

/-! ## Handing WORK (R170) -/

@[simp] theorem same_handWork {j : WorkJob} {rs : List Range} {d : List Byte} (f : p ≠ .fen) :
    p.same s (handWork j rs d t) ↔ p.same s t := by simp [handWork, f]
@[simp] theorem same_handWrite {j : WorkJob} {a : Nat} {d : List Byte} (f : p ≠ .fen) :
    p.same s (handWrite j a d t) ↔ p.same s t := by simp [handWrite, f]
@[simp] theorem same_stopWork (f : p ≠ .fen) : p.same s (stopWork t) ↔ p.same s t := by simp [stopWork, f]
@[simp] theorem same_answerPage {q : Bool} {x : TakenPage} (w : p ≠ .wai) : p.same s (answerPage q x t) ↔ p.same s t := by
  unfold answerPage; simp only; repeat' split
  all_goals simp [w]
@[simp] theorem same_onPage {r : RecordRef} {g : TakenPage → TakenPage} (w : p ≠ .wai) :
    p.same s (onPage r g t) ↔ p.same s t := by simp [onPage, w]
@[simp] theorem same_checkPage {q : Bool} {r : RecordRef} (w : p ≠ .wai) : p.same s (checkPage q r t) ↔ p.same s t := by
  unfold checkPage; repeat' split
  all_goals simp [w]
@[simp] theorem same_finalHanded {q : Bool} {r : RecordRef} {x : Status} {b : Bool} (w : p ≠ .wai) :
    p.same s (finalHanded q r x b t) ↔ p.same s t := by
  unfold finalHanded; simp only; split <;> simp [w]
@[simp] theorem same_handAnswerWrite {r : RecordRef} {x : Status} {n : Nat} (f : p ≠ .fen) :
    p.same s (handAnswerWrite r x n t) ↔ p.same s t := by simp [handAnswerWrite, f]
@[simp] theorem same_beginScan (w : p ≠ .wai) : p.same s (beginScan t) ↔ p.same s t := by simp [beginScan, w]
@[simp] theorem same_requestScan (w : p ≠ .wai) : p.same s (requestScan t) ↔ p.same s t := by
  unfold requestScan; repeat' split
  all_goals simp [w]
@[simp] theorem same_endScan (w : p ≠ .wai) : p.same s (endScan t) ↔ p.same s t := by
  unfold endScan; simp only; split <;> simp [w]
@[simp] theorem same_lookPage (w : p ≠ .wai) : p.same s (lookPage t) ↔ p.same s t := by
  unfold lookPage; simp only; split <;> simp [w]
@[simp] theorem same_bumpCounter (w : p ≠ .wai) : p.same s (bumpCounter t) ↔ p.same s t := by simp [bumpCounter, w]
@[simp] theorem same_handScan {i : ScanItem} (w : p ≠ .wai) (f : p ≠ .fen) : p.same s (handScan i t) ↔ p.same s t := by
  unfold handScan; simp only; repeat' split
  all_goals simp [w, f]
@[simp] theorem same_handSlot {n : Nat} (w : p ≠ .wai) (f : p ≠ .fen) : p.same s (handSlot n t) ↔ p.same s t := by
  unfold handSlot; split
  · rfl
  · rename_i x h
    rw [same_handWrite f]
    exact same_setWai w (by simp) (by simp) (fun _ => map_switches_set h rfl)
@[simp] theorem same_handMsi (w : p ≠ .wai) (f : p ≠ .fen) : p.same s (handMsi t) ↔ p.same s t := by simp [handMsi, w, f]
@[simp] theorem same_handQueued {a : QueuedAnswer} (w : p ≠ .wai) (f : p ≠ .fen) : p.same s (handQueued a t) ↔ p.same s t := by
  unfold handQueued; split <;> simp [w, f]

/-- R170, R172: everything that one act of WAI can be. -/
theorem handOne_cases {u : State} (h : handOne t = some u) :
    (t.wai.scanning = true ∧ t.wai.scanQueue = [] ∧ u = endScan t) ∨
    (∃ i q, t.wai.scanQueue = i :: q ∧ u = handScan i (t.setWai { t.wai with scanQueue := q })) ∨
    (∃ a q, t.wai.answers = a :: q ∧ u = handQueued a (t.setWai { t.wai with answers := q })) ∨
    (∃ n, dirtySlot t.wai = some n ∧ u = handSlot n t) ∨ (msiDue t.wai = true ∧ u = handMsi t) := by
  unfold handOne at h
  split at h
  · cases h
  split at h
  · rename_i v k
    cases h
    unfold scanStep at k
    split at k
    · cases k
    split at k
    · split at k
      · cases k; exact .inl ⟨‹_›, ‹_›, rfl⟩
      · cases k
    · split at k
      · cases k; subst_vars; exact .inr (.inl ⟨_, _, ‹_›, rfl⟩)
      · cases k
  · split at h
    · cases h
    unfold handPlace at h
    repeat' split at h
    all_goals first | (cases h; done) | (cases h)
    · exact .inr (.inr (.inl ⟨_, _, ‹_›, rfl⟩))
    · exact .inr (.inr (.inr (.inl ⟨_, ‹_›, rfl⟩)))
    · exact .inr (.inr (.inr (.inr ⟨‹_›, rfl⟩)))
    · exact .inr (.inl ⟨_, _, ‹_›, rfl⟩)

theorem same_handOne {u : State} (w : p ≠ .wai) (f : p ≠ .fen) (h : handOne t = some u) : p.same s u ↔ p.same s t := by
  obtain ⟨-, -, rfl⟩ | ⟨i, q, -, rfl⟩ | ⟨a, q, -, rfl⟩ | ⟨n, -, rfl⟩ | ⟨-, rfl⟩ := handOne_cases h <;> simp [w, f]

theorem same_handLoop {n : Nat} (w : p ≠ .wai) (f : p ≠ .fen) : p.same s (handLoop n t) ↔ p.same s t := by
  induction n generalizing t with
  | zero => rfl
  | succ n ih =>
    unfold handLoop; split
    · rename_i u h; rw [ih, same_handOne w f h]
    · rfl

@[simp] theorem same_settle (w : p ≠ .wai) (f : p ≠ .fen) : p.same s (settle t) ↔ p.same s t := same_handLoop w f

/-- A detached interface hands nothing. -/
@[simp] theorem settle_of_not_attached (h : t.wai.st ≠ .attached) : settle t = t := by
  simp [settle, handLoop, handOne, h]

@[simp] theorem settle_clockNs (s : State) : (settle s).clockNs = s.clockNs :=
  (same_settle (p := .clock) (by decide) (by decide)).2 rfl
@[simp] theorem settle_pending (s : State) : (settle s).pending = s.pending :=
  (same_settle (p := .queue) (by decide) (by decide)).2 rfl
@[simp] theorem settle_vsr (s : State) : (settle s).vsr = s.vsr := (same_settle (p := .vsr) (by decide) (by decide)).2 rfl
@[simp] theorem settle_smn (s : State) : (settle s).smn = s.smn := (same_settle (p := .smn) (by decide) (by decide)).2 rfl
@[simp] theorem settle_cin (s : State) : (settle s).cin = s.cin := (same_settle (p := .cin) (by decide) (by decide)).2 rfl
@[simp] theorem settle_vwc (s : State) : (settle s).vwc = s.vwc := (same_settle (p := .vwc) (by decide) (by decide)).2 rfl
@[simp] theorem settle_glg (s : State) : (settle s).glg = s.glg := (same_settle (p := .glg) (by decide) (by decide)).2 rfl
@[simp] theorem settle_cmp (s : State) : (settle s).cmp = s.cmp := (same_settle (p := .cmp) (by decide) (by decide)).2 rfl
@[simp] theorem settle_flm (s : State) : (settle s).flm = s.flm := (same_settle (p := .flm) (by decide) (by decide)).2 rfl
@[simp] theorem settle_mix (s : State) : (settle s).mix = s.mix := (same_settle (p := .mix) (by decide) (by decide)).2 rfl
@[simp] theorem settle_che (s : State) : (settle s).che = s.che := (same_settle (p := .che) (by decide) (by decide)).2 rfl
@[simp] theorem settle_sto (s : State) : (settle s).sto = s.sto := (same_settle (p := .sto) (by decide) (by decide)).2 rfl
@[simp] theorem settle_localMem (s : State) : (settle s).localMem = s.localMem :=
  (same_settle (p := .localMem) (by decide) (by decide)).2 rfl
@[simp] theorem settle_sysMem (s : State) : (settle s).sysMem = s.sysMem :=
  (same_settle (p := .sysMem) (by decide) (by decide)).2 rfl
@[simp] theorem pipeOf_settle (s : State) (q : PipeId) : pipeOf (settle s) q = pipeOf s q := by
  rw [← pipes_get, settle_cmp, pipes_get]
@[simp] theorem filmOf_settle (s : State) (q : StreamId) : filmOf (settle s) q = filmOf s q := by
  rw [← streams_get, settle_flm, streams_get]

/-! ## Records -/

@[simp] theorem same_ownSetNotice {x : NoticeParams} (w : p ≠ .wai) (k : p ≠ .switches) :
    p.same s (ownSetNotice x t).1 ↔ p.same s t := by
  unfold ownSetNotice; split <;> simp [w, k]

/-- The parts that a request may change, whatever its kind. -/
theorem same_ownRequest {q : LongReq} {r : Request} (h : p ∉ [.cin, .matrix, .switches, .bank] ++ viewParts) :
    p.same s (ownRequest q r t).1 ↔ p.same s t := by
  have v : p ∉ viewParts := fun k => h (by simp [k])
  have c : p ∉ pictureParts := by revert h; cases p <;> decide
  simp only [viewParts, offParts, List.mem_append, List.mem_cons, List.not_mem_nil, or_false, not_or] at h
  cases r <;> simp [ownRequest, h, v, c]

theorem same_enterAnswer {r : RecordRef} {a : Answer} (w : p ≠ .wai) : p.same s (enterAnswer r a t) ↔ p.same s t := by
  simp [enterAnswer, w]

theorem same_takeRecord {r : RecordRef} {k : LongReq → State → State × Answer} (w : p ≠ .wai)
    (h : ∀ q u, p.same u (k q u).1) : p.same s (takeRecord r k t) ↔ p.same s t := by
  unfold takeRecord; simp only
  split
  · rw [same_enterAnswer w, Part.same_iff (h _ _)]; simp [w]
  · rw [Part.same_iff (h _ _)]

theorem same_takeKind {r : RecordRef} {bs : List Byte} (h : p ∉ [.cin, .matrix, .switches, .bank] ++ viewParts) :
    p.same s (takeKind r bs t) ↔ p.same s t := by
  have w : p ≠ .wai := by rintro rfl; exact h (by decide)
  unfold takeKind
  refine same_takeRecord w (fun q u => ?_)
  split
  · split
    · simp
    · rw [same_ownRequest h]; simp
  · simp

theorem same_takeRecords {n page : Nat} {seq : Word} {bs : List Byte} {pos : Nat}
    (h : p ∉ [.cin, .matrix, .switches, .bank] ++ viewParts) : p.same s (takeRecords n page seq bs pos t) ↔ p.same s t := by
  have w : p ≠ .wai := by rintro rfl; exact h (by decide)
  induction n generalizing pos t with
  | zero => rfl
  | succ n ih =>
    unfold takeRecords; simp only
    split
    · rfl
    · split
      · exact same_takeRecord w (by simp)
      · exact ih.trans (same_takeKind h)

@[simp] theorem same_endPage {r : RecordRef} (w : p ≠ .wai) : p.same s (endPage r t) ↔ p.same s t := by simp [endPage, w]

theorem same_recordsRead {page : Nat} {bs : List Byte} (h : p ∉ [.cin, .matrix, .switches, .bank] ++ viewParts) :
    p.same s (recordsRead page bs t) ↔ p.same s t := by
  have w : p ≠ .wai := by rintro rfl; exact h (by decide)
  unfold recordsRead; simp only; split
  · simp [w, same_takeRecords h]
  · simp [w]

@[simp] theorem same_headerRead {page : Nat} {bs : List Byte} (w : p ≠ .wai) : p.same s (headerRead page bs t) ↔ p.same s t := by
  unfold headerRead takePage refusePage; simp only; repeat' split
  all_goals simp [w]

/-! ## Attaching and leaving -/

@[simp] theorem same_handBoard (w : p ≠ .wai) (f : p ≠ .fen) : p.same s (handBoard t) ↔ p.same s t := by
  unfold handBoard; simp only
  rw [same_handWrite f, same_handWrite f, same_handWrite f, same_handWrite f]
  exact same_setWai w (by simp) (by simp) (by simp)
@[simp] theorem same_failAttach {c : AttachCause} (w : p ≠ .wai) (l : p ≠ .link) : p.same s (failAttach c t) ↔ p.same s t := by
  simp [failAttach, w, l]
@[simp] theorem same_anchorRead {bs : List Byte} (w : p ≠ .wai) (f : p ≠ .fen) (l : p ≠ .link) :
    p.same s (anchorRead bs t) ↔ p.same s t := by
  unfold anchorRead; split <;> simp [w, f, l]
@[simp] theorem same_attachNow (w : p ≠ .wai) (f : p ≠ .fen) (l : p ≠ .link) : p.same s (attachNow t) ↔ p.same s t := by
  unfold attachNow; simp only; repeat' split
  all_goals simp [w, f, l]
@[simp] theorem same_attachComplete (w : p ≠ .wai) (f : p ≠ .fen) (l : p ≠ .link) : p.same s (attachComplete t) ↔ p.same s t := by
  unfold attachComplete; split <;> simp [w, f, l]

theorem exitParts_not {p : Part} (h : p ∉ exitParts) : p ≠ .link ∧ p ≠ .flm ∧ p ≠ .cmp ∧ p ≠ .che ∧ p ≠ .bank ∧ p ≠ .sto ∧
    p ≠ .fen ∧ p ≠ .wai := by
  simpa [exitParts] using h

@[simp] theorem same_exitAttached {x : AttachState} {c : AttachCause} (h : p ∉ exitParts) :
    p.same s (exitAttached x c t) ↔ p.same s t := by
  have e := exitParts_not h
  have k : ∀ q u, p.same u (abandonRestarts q u) := fun q u => by simp [abandonRestarts, e]
  simp [exitAttached, e, waiExit, k]
@[simp] theorem same_exitAttaching (w : p ≠ .wai) (f : p ≠ .fen) (l : p ≠ .link) : p.same s (exitAttaching t) ↔ p.same s t := by
  unfold exitAttaching
  rw [same_stopWork f]
  exact same_setWai w (fun k => absurd k l) (by simp) (by simp)
@[simp] theorem same_detachNow (h : p ∉ exitParts) : p.same s (detachNow t) ↔ p.same s t := by
  have e := exitParts_not h
  unfold detachNow; split <;> simp [h, e]
@[simp] theorem same_workError (h : p ∉ exitParts) : p.same s (workError t) ↔ p.same s t := by
  have e := exitParts_not h
  unfold workError; split <;> simp [h, e]
@[simp] theorem same_linkResetNow (h : p ∉ exitParts) (r : p ≠ .regs) : p.same s (linkResetNow t) ↔ p.same s t := by
  have e := exitParts_not h
  simp [linkResetNow, h, e, r]
@[simp] theorem same_writeRegByte {o : Nat} {b : Byte} (h : p ∉ exitParts) (r : p ≠ .regs) :
    p.same s (writeRegByte o b t) ↔ p.same s t := by
  have e := exitParts_not h
  unfold writeRegByte ctrlByte; simp only; repeat' split
  all_goals simp [h, e, r]
@[simp] theorem same_writeRegs {o : Nat} {bs : List Byte} (h : p ∉ exitParts) (r : p ≠ .regs) :
    p.same s (writeRegs o bs t) ↔ p.same s t := by
  induction bs generalizing o t with
  | nil => rfl
  | cons b bs ih => simp [writeRegs, ih, h, r]
@[simp] theorem same_latchTime {o : Nat} (w : p ≠ .wai) (r : p ≠ .regs) : p.same s (latchTime o t) ↔ p.same s t := by
  unfold latchTime; split <;> simp [w, r]
@[simp] theorem same_readRegs {o n : Nat} (w : p ≠ .wai) (r : p ≠ .regs) : p.same s (readRegs o n t).2 ↔ p.same s t := by
  induction n generalizing o t with
  | zero => rfl
  | succ n ih => unfold readRegs; exact ih.trans (same_latchTime w r)
@[simp] theorem same_readWindow {o n : Nat} (w : p ≠ .wai) (r : p ≠ .regs) : p.same s (readWindow o n t) ↔ p.same s t := by
  simp [readWindow, w, r]

/-! ## The fetch engine -/

/-- What a failure tells the owner of the channel (Table 7-5). -/
@[simp] theorem same_tellOwner {c : ChanId} {a : Nat} {d : Bool} (h : p ∉ exitParts) : p.same s (tellOwner c a d t) ↔ p.same s t := by
  have e := exitParts_not h
  rcases c with ⟨_, _⟩ | _ | _ | _ | _ | (_ | _ | _) <;> simp [tellOwner, copyInFailed, h, e]
@[simp] theorem same_failChannel {c : ChanId} {a : Nat} {d : Bool} (h : p ∉ exitParts) :
    p.same s (failChannel c a d t) ↔ p.same s t := by
  have e := exitParts_not h
  simp [failChannel, h, e]
@[simp] theorem same_popWork (f : p ≠ .fen) : p.same s (popWork t) ↔ p.same s t := by simp [popWork, f]
@[simp] theorem same_systemGrant (h : p ∉ exitParts) (u : p ≠ .turns) (y : p ≠ .sysMem) : p.same s (systemGrant t) ↔ p.same s t := by
  have e := exitParts_not h
  have k : ∀ c f, (turnAfter c f).window = f.window := fun c f => by unfold turnAfter; split <;> rfl
  unfold systemGrant grantUnit grantWork grantCopyOut grantRead; simp only; repeat' split
  all_goals simp [h, e, u, y]

/-- The parts that a read completion may change: those of any request, and of an exit from ATTACHED. -/
def completionParts : List Part := [.cin, .timings, .mix, .matrix, .switches] ++ viewParts ++ exitParts

theorem completionParts_not {p : Part} (h : p ∉ completionParts) :
    p ∉ exitParts ∧ p ∉ [.cin, .matrix, .switches, .bank] ++ viewParts := by
  cases p <;> revert h <;> decide

theorem same_handData {c : ChanId} {d : Bool} {bs : List Byte} (h : p ∉ completionParts) :
    p.same s (handData c d bs t) ↔ p.same s t := by
  have k := completionParts_not h
  have e := exitParts_not k.1
  unfold handData workArrived; simp only
  repeat' split
  all_goals simp [e, same_recordsRead k.2]

theorem same_drain {n : Nat} {c : ChanId} (h : p ∉ completionParts) : p.same s (drain n c t) ↔ p.same s t := by
  have e := exitParts_not (completionParts_not h).1
  induction n generalizing t with
  | zero => rfl
  | succ n ih =>
    unfold drain; repeat' split
    all_goals simp [ih, same_handData h, e]

theorem same_completion {n : Nat} {ok : Bool} {bs : List Byte} (h : p ∉ completionParts) :
    p.same s (completion n ok bs t) ↔ p.same s t := by
  have k := completionParts_not h
  have e := exitParts_not k.1
  unfold completion afterOrphan; repeat' split
  all_goals simp [same_drain h, k, e, rephase, removeUnit]

@[simp] theorem same_unitTimedOut {n : Nat} (h : p ∉ exitParts) (c : p ≠ .clock) : p.same s (unitTimedOut n t) ↔ p.same s t := by
  have e := exitParts_not h
  unfold unitTimedOut afterOrphan; simp only; repeat' split
  all_goals simp [h, e, c, rephase]
@[simp] theorem same_placeRelease {n : Nat} (c : p ≠ .clock) (f : p ≠ .fen) : p.same s (placeRelease n t) ↔ p.same s t := by
  unfold placeRelease; repeat' split
  all_goals simp [c, f, removeUnit]
@[simp] theorem same_localGrant (f : p ≠ .fen) : p.same s (localGrant t) ↔ p.same s t := by
  unfold localGrant localRequested; repeat' split
  all_goals simp [f]
@[simp] theorem same_writePieces {ws : List (Nat × List Byte)} (l : p ≠ .localMem) :
    p.same s (writePieces ws t) ↔ p.same s t := by
  unfold writePieces; exact same_foldl (fun u a => by simp [l]) _
@[simp] theorem same_localDone (h : p ∉ pictureParts) (l : p ≠ .localMem) (b : p ≠ .bank) : p.same s (localDone t) ↔ p.same s t := by
  have e := pictureParts_not h
  unfold localDone localMoved cameraWritten guideWritten bankArrived bulkWrote; simp only; repeat' split
  all_goals simp [h, e, l, b]

end Sys2Proof.Machine
end

