-- ==== Sys2Proof/Laws/FrameExec.lean ====
section
/-! SUPPORT. What the operations that stand beside the commands leave unchanged. -/

namespace Sys2Proof.Machine

variable {p : Part} {s t : State}

/-- The voices leave the sound bank. -/
theorem uiAdvance_bank (c : Che) :
    (uiAdvance c).bank = c.bank ∧ (uiAdvance c).free = c.free ∧ (uiAdvance c).loads = c.loads := by
  unfold uiAdvance; repeat' split
  all_goals simp
theorem chimeInstant_bank (v : Vsr) (c : Che) :
    (chimeInstant v c).2.bank = c.bank ∧ (chimeInstant v c).2.free = c.free ∧ (chimeInstant v c).2.loads = c.loads := by
  unfold chimeInstant; simp only; repeat' split
  all_goals simp

@[simp] theorem same_sampleInstant (l : p ≠ .flm) (m : p ≠ .mix) (c : p ≠ .che) (w : p ≠ .wai) :
    p.same s (sampleInstant t) ↔ p.same s t := by
  have k : ∀ q u, p.same u (handSample q u) := fun q u => by simp [l, w]
  have b : (onStreams handSample t).che = t.che := by
    have g : ∀ q u, (handSample q u).che = u.che := fun q u =>
      (same_handSample (p := .che) (s := u) (by decide) (by decide)).2 rfl
    simp [onStreams, g]
  have u := uiAdvance_bank (chimeInstant t.vsr t.che).2
  have i := chimeInstant_bank t.vsr t.che
  simp only [sampleInstant]
  rw [same_setMix m (by simp), same_setChe c (by simp [b, u, i])]
  simp [onStreams, l, w]
@[simp] theorem same_duckExpiry (m : p ≠ .mix) : p.same s (duckExpiry t) ↔ p.same s t := by simp [duckExpiry, m]
@[simp] theorem same_scanExpiry {n : Nat} (w : p ≠ .wai) : p.same s (scanExpiry n t) ↔ p.same s t := by simp [scanExpiry, w]
@[simp] theorem same_programPage {n : Nat} (o : p ≠ .sto) : p.same s (programPage n t) ↔ p.same s t := by simp [programPage, o]
@[simp] theorem same_startVerify (o : p ≠ .sto) : p.same s (startVerify t) ↔ p.same s t := by simp [startVerify, o]

end Sys2Proof.Machine
end

