-- ==== Sys2Proof/Laws/Memory.lean ====
section
/-! SUPPORT. The laws of memory: every memory operation keeps the canonical form and the address space. -/

namespace Sys2Proof.Machine

theorem Memory.wfFrom_mono {lo hi : Nat} {m : Memory} (h : Memory.wfFrom hi m = true) (k : lo ≤ hi) :
    Memory.wfFrom lo m = true := by
  cases m with
  | nil => rfl
  | cons c m =>
    simp only [Memory.wfFrom, Bool.and_eq_true, decide_eq_true_eq] at h ⊢
    exact ⟨⟨by omega, h.1.2⟩, h.2⟩

/-- An address below all the listed ones is not listed. -/
theorem Memory.read_of_lt {m : Memory} {lo a : Nat} (h : Memory.wfFrom lo m = true) (k : a < lo) :
    Memory.read m a = Config.unwrittenByte := by
  induction m generalizing lo with
  | nil => rfl
  | cons c m ih =>
    simp only [Memory.wfFrom, Bool.and_eq_true, decide_eq_true_eq] at h
    simp only [Memory.read]
    rw [if_neg (by omega)]
    exact ih h.2 (by omega)

theorem Memory.write_wfFrom {m : Memory} {lo a : Nat} {b : Byte} (h : Memory.wfFrom lo m = true) (k : lo ≤ a) :
    Memory.wfFrom lo (Memory.write m a b) = true := by
  induction m generalizing lo with
  | nil =>
    simp only [Memory.write]; split
    · rfl
    · rename_i e; simp [Memory.wfFrom, k, e]
  | cons c m ih =>
    obtain ⟨x, d⟩ := c
    have g := h
    simp only [Memory.wfFrom, Bool.and_eq_true, decide_eq_true_eq] at g
    simp only [Memory.write]
    split
    · split
      · exact h
      · rename_i e; simp [Memory.wfFrom, k, e, g]; omega
    · split
      · subst_vars
        split
        · exact Memory.wfFrom_mono g.2 (by omega)
        · rename_i e; simp [Memory.wfFrom, g, e]
      · simp only [Memory.wfFrom, Bool.and_eq_true, decide_eq_true_eq]
        exact ⟨g.1, ih g.2 (by omega)⟩

theorem Memory.write_wf {m : Memory} {a : Nat} {b : Byte} (h : Memory.wf m = true) : Memory.wf (Memory.write m a b) = true :=
  Memory.write_wfFrom h (Nat.zero_le a)

theorem Memory.below_iff {n : Nat} {m : Memory} : Memory.below n m = true ↔ ∀ c ∈ m, c.1 < n := by
  simp [Memory.below]

theorem Memory.write_below {m : Memory} {n a : Nat} {b : Byte} (h : Memory.below n m = true) (k : a < n) :
    Memory.below n (Memory.write m a b) = true := by
  rw [Memory.below_iff] at h ⊢
  induction m with
  | nil => simp only [Memory.write]; split <;> simp [k]
  | cons c m ih =>
    obtain ⟨x, d⟩ := c
    rw [List.forall_mem_cons] at h
    simp only [Memory.write]
    repeat' split
    · rw [List.forall_mem_cons]; exact h
    · rw [List.forall_mem_cons, List.forall_mem_cons]; exact ⟨k, h⟩
    · exact h.2
    · rw [List.forall_mem_cons]; exact ⟨k, h.2⟩
    · rw [List.forall_mem_cons]; exact ⟨h.1, ih h.2⟩

theorem Memory.writeBytes_wf {bs : List Byte} {n a : Nat} {m : Memory} (h : Memory.wf m = true) :
    Memory.wf (Memory.writeBytes n m a bs) = true := by
  induction bs generalizing m a with
  | nil => exact h
  | cons b bs ih => exact ih (Memory.write_wf h)

theorem Memory.writeBytes_below {bs : List Byte} {n a : Nat} {m : Memory} (h : Memory.below n m = true) (k : 0 < n) :
    Memory.below n (Memory.writeBytes n m a bs) = true := by
  induction bs generalizing m a with
  | nil => exact h
  | cons b bs ih => exact ih (Memory.write_below h (Nat.mod_lt _ k))

/-- R151: what a completed local unit writes, piece by piece. -/
@[simp] theorem writePieces_localMem (ws : List (Nat × List Byte)) (s : State) :
    (writePieces ws s).localMem = ws.foldl (fun m w => Memory.writeBytes localSize m w.1 w.2) s.localMem := by
  induction ws generalizing s with
  | nil => rfl
  | cons w ws ih => exact ih _

/-- Local memory keeps its form and its bounds under the writes of a local unit. -/
theorem writePieces_localOk {ws : List (Nat × List Byte)} {s : State} (h : Memory.wf s.localMem = true)
    (k : Memory.below localSize s.localMem = true) :
    Memory.wf (writePieces ws s).localMem = true ∧ Memory.below localSize (writePieces ws s).localMem = true := by
  induction ws generalizing s with
  | nil => exact ⟨h, k⟩
  | cons w ws ih =>
    exact ih (s := writeLocal w.1 w.2 s) (Memory.writeBytes_wf h) (Memory.writeBytes_below k (by decide))

end Sys2Proof.Machine
end

