-- ==== Sys2Proof/Laws/Settle.lean ====
section
/-! SUPPORT. What raising a notice and the end of a command do to the notice slots, and where the answer of a record is found after
the command that brought the record. -/

namespace Sys2Proof.Machine

variable {s t u : State}

/-! ## Notice slots -/

/-- What a slot records. -/
def Slot.core (x : Slot) : Word × Dword × Word × Word × Bool := (x.count, x.time, x.d0, x.d1, x.enable)

/-- What the slot of a number records. -/
def slotCore (s : State) (n : Nat) : Option (Word × Dword × Word × Word × Bool) := (s.wai.slots[n]?).map Slot.core

theorem slotCore_congr {n : Nat} (h : t.wai.slots = s.wai.slots) : slotCore t n = slotCore s n := by simp [slotCore, h]

theorem slotNumber_injective {k j : NoticeKind} (h : slotNumber k = slotNumber j) : k = j := by
  revert h; cases k <;> cases j <;> decide

/-- Raising one notice leaves every other slot. -/
theorem slotCore_raise_ne {k : NoticeKind} {d0 d1 : Word} {n : Nat} (h : n ≠ slotNumber k) :
    slotCore (raise k d0 d1 s) n = slotCore s n := by
  unfold raise
  split
  · rfl
  · split
    · simp [slotCore, List.getElem?_set, Ne.symm h]
    · rfl

/-- Raising a notice records it in its slot. -/
theorem slotCore_raise {k : NoticeKind} {d0 d1 : Word} :
    slotCore (raise k d0 d1 s) (slotNumber k)
      = (s.wai.slots[slotNumber k]?).map (fun x => if x.enable then (x.count + 1, cabin s, d0, d1, true) else x.core) := by
  unfold raise
  split
  · rename_i h; simp [slotCore, h]
  · rename_i x h
    have hl : slotNumber k < s.wai.slots.length := (List.getElem?_eq_some_iff.1 h).1
    split
    · rename_i e
      simp only [slotCore, State.setWai_wai, List.getElem?_set, if_true, hl, h, Option.map_some, e]
      simp [occurrence, Slot.core, e]
    · rename_i e; simp [slotCore, h, e]

theorem noticeRaised_of_core {k : NoticeKind} {d0 d1 : Word}
    (h : slotCore t (slotNumber k)
      = (s.wai.slots[slotNumber k]?).map (fun x => if x.enable then (x.count + 1, cabin t, d0, d1, true) else x.core)) :
    noticeRaised k d0 d1 s t := by
  intro x hx
  rw [hx] at h
  by_cases e : x.enable
  · simp only [e, if_true, slotCore, Option.map_some, Option.map_eq_some_iff, Slot.core, Prod.mk.injEq] at h ⊢
    obtain ⟨y, hy, h⟩ := h
    exact ⟨y, hy, h.1, h.2.1, h.2.2.1, h.2.2.2.1⟩
  · simp only [e, slotCore, Option.map_some, Option.map_eq_some_iff, Slot.core, Bool.false_eq_true, if_false,
      Prod.mk.injEq] at h ⊢
    obtain ⟨y, hy, h⟩ := h
    simp [slotKept, hx, hy, h]

theorem slotKept_of_core {k : NoticeKind} (h : slotCore t (slotNumber k) = slotCore s (slotNumber k)) : slotKept k s t := by
  unfold slotCore Slot.core at h
  unfold slotKept
  cases ht : t.wai.slots[slotNumber k]? <;> cases hs : s.wai.slots[slotNumber k]? <;> simp_all

/-! ## The end of a command -/

/-- The answer of a record has its place. -/
theorem answered_mono {r : RecordRef} {a : Answer} (h : answered r a s)
    (q : ∀ i ∈ s.wai.scanQueue, i ∈ t.wai.scanQueue) (w : ∀ i ∈ s.fen.work, i ∈ t.fen.work)
    (n : t.wai.anchor = s.wai.anchor) : answered r a t := by
  obtain ⟨f, c, m⟩ | ⟨i, m, h1, h2, h3⟩ := h
  · exact .inl ⟨f, c, q _ m⟩
  · exact .inr ⟨i, w _ m, h1, h2, by simpa [pageAddr, n] using h3⟩

theorem answerBytes_length (st : Status) (n : Nat) : (answerBytes st n).length = 4 := by
  simp [answerBytes, leBytes]

@[simp] theorem slotCore_setFen {x : Fen} {n : Nat} : slotCore (s.setFen x) n = slotCore s n := (rfl)
@[simp] theorem slotCore_setWai {x : Wai} {n : Nat} (h : x.slots = s.wai.slots) : slotCore (s.setWai x) n = slotCore s n := by
  simp [slotCore, h]

theorem slotCore_finalHanded {q : Bool} {r : RecordRef} {st : Status} {c : Bool} {n : Nat} (h : n ≠ 15) :
    slotCore (finalHanded q r st c s) n = slotCore s n := by
  have k : ∀ x : State, slotCore (checkPage q r x) n = slotCore x n := by
    intro x; unfold checkPage answerPage
    simp only; repeat' split
    all_goals rfl
  unfold finalHanded onPage
  rw [k, slotCore_raise_ne (by simpa [slotNumber] using h)]
  split <;> simp [slotCore]

theorem slotCore_handScan {i : ScanItem} {n : Nat} (h : n ≠ 15) : slotCore (handScan i s) n = slotCore s n := by
  cases i with
  | answer r st c f k =>
    simp only [handScan]; split
    · rw [slotCore_finalHanded h]; rfl
    · rfl
  | look => simp only [handScan, lookPage]; split <;> rfl
  | _ => rfl

theorem slotCore_handOne {n : Nat} (h : n ≠ 15) (e : handOne s = some t) : slotCore t n = slotCore s n := by
  obtain ⟨-, -, rfl⟩ | ⟨i, q, -, rfl⟩ | ⟨a, q, -, rfl⟩ | ⟨m, -, rfl⟩ | ⟨-, rfl⟩ := handOne_cases e
  · unfold endScan beginScan; simp only; split <;> simp [slotCore]
  · rw [slotCore_handScan h]; rfl
  · unfold handQueued; split
    · rw [slotCore_finalHanded h]; simp [handAnswerWrite, handWrite, handWork, slotCore]
    · simp [handWrite, handWork, slotCore]
  · unfold handSlot; split
    · rfl
    · rename_i x hx
      simp only [slotCore, handWrite, handWork, State.setFen_wai, State.setWai_wai, List.getElem?_set]
      split
      · subst_vars
        have := (List.getElem?_eq_some_iff.1 hx).1
        rw [if_pos this, hx]; rfl
      · rfl
  · simp [handMsi, handWork, slotCore]

theorem slotCore_handLoop {m n : Nat} (h : n ≠ 15) : slotCore (handLoop m s) n = slotCore s n := by
  induction m generalizing s with
  | zero => rfl
  | succ m ih =>
    unfold handLoop; split
    · rename_i u e; rw [ih, slotCore_handOne h e]
    · rfl

/-- The end of a command hands slots, and leaves what each records; only PENDING_DONE can occur in it. -/
@[simp] theorem slotCore_settle {n : Nat} (h : n ≠ 15) : slotCore (settle s) n = slotCore s n := slotCore_handLoop h

/-! ## Answers -/

theorem mem_insertAfter {page : Nat} {x i : ScanItem} {l : List ScanItem} (h : i ∈ l) : i ∈ insertAfter page x l := by
  induction l with
  | nil => cases h
  | cons a l ih =>
    simp only [insertAfter]
    repeat' split
    all_goals (simp only [List.mem_cons] at h ⊢; tauto)

theorem mem_insertAnswer_of_mem {x i : ScanItem} {l : List ScanItem} (h : i ∈ l) : i ∈ insertAnswer x l := by
  induction l with
  | nil => cases h
  | cons a l ih =>
    simp only [insertAnswer]
    split
    all_goals (simp only [List.mem_cons] at h ⊢; tauto)

/-- A record that is handed its final status leaves the scan's other items, WORK's list and the anchor. -/
theorem finalHanded_keeps {q : Bool} {r : RecordRef} {st : Status} {c : Bool} :
    (∀ i ∈ s.wai.scanQueue, i ∈ (finalHanded q r st c s).wai.scanQueue) ∧ (finalHanded q r st c s).fen = s.fen
      ∧ (finalHanded q r st c s).wai.anchor = s.wai.anchor := by
  have k : ∀ x : State, (∀ i ∈ x.wai.scanQueue, i ∈ (checkPage q r x).wai.scanQueue) ∧ (checkPage q r x).fen = x.fen
      ∧ (checkPage q r x).wai.anchor = x.wai.anchor := by
    intro x; unfold checkPage answerPage
    split
    · split
      · simp only; split
        · exact ⟨fun i hi => mem_insertAfter hi, rfl, rfl⟩
        · split
          · exact ⟨fun i hi => hi, rfl, rfl⟩
          · exact ⟨fun i hi => mem_insertAnswer_of_mem hi, rfl, rfl⟩
      · exact ⟨fun i hi => hi, rfl, rfl⟩
    · exact ⟨fun i hi => hi, rfl, rfl⟩
  have g : ∀ (a b : Word) (x : State), (raise .pendingDone a b x).wai.scanQueue = x.wai.scanQueue
      ∧ (raise .pendingDone a b x).fen = x.fen ∧ (raise .pendingDone a b x).wai.anchor = x.wai.anchor := by
    intro a b x; unfold raise; split
    · exact ⟨rfl, rfl, rfl⟩
    · split <;> exact ⟨rfl, rfl, rfl⟩
  unfold finalHanded onPage
  simp only
  refine ⟨fun i hi => (k _).1 i ?_, ?_, ?_⟩
  · rw [(g _ _ _).1]; split <;> exact hi
  · rw [(k _).2.1, (g _ _ _).2.1]; split <;> rfl
  · rw [(k _).2.2, (g _ _ _).2.2]; split <;> rfl

/-- The end of a command changes nothing of the Fetch Engine but WORK's list. -/
theorem settle_fen (s : State) : (settle s).fen = { s.fen with work := (settle s).fen.work } := by
  have one : ∀ x y : State, handOne x = some y → y.fen = { x.fen with work := y.fen.work } := by
    intro x y e
    obtain ⟨-, -, rfl⟩ | ⟨i, q, -, rfl⟩ | ⟨a, q, -, rfl⟩ | ⟨m, -, rfl⟩ | ⟨-, rfl⟩ := handOne_cases e
    · unfold endScan; simp only; split <;> rfl
    · cases i with
      | answer r st c f k =>
        simp only [handScan]; split
        · rw [(finalHanded_keeps (q := false) (r := r) (st := st) (c := k)).2.1]; rfl
        · rfl
      | look => simp only [handScan, lookPage]; split <;> rfl
      | _ => rfl
    · unfold handQueued; split
      · have k := fun a b u => (finalHanded_keeps (q := true) (r := a) (st := b) (c := true) (s := u)).2.1
        rw [k]; rfl
      · rfl
    · unfold handSlot; split <;> rfl
    · rfl
  have all : ∀ n (x : State), (handLoop n x).fen = { x.fen with work := (handLoop n x).fen.work } := by
    intro n
    induction n with
    | zero => exact fun x => rfl
    | succ n ih =>
      intro x
      unfold handLoop; split
      · rename_i u e; rw [ih u, one x u e]
      · rfl
  exact all 64 s

/-- An item of the scan that is handed leaves the scan's other items, WORK's list and the anchor. -/
theorem handScan_keeps {i : ScanItem} :
    (∀ j ∈ s.wai.scanQueue, j ∈ (handScan i s).wai.scanQueue) ∧ (∀ j ∈ s.fen.work, j ∈ (handScan i s).fen.work)
      ∧ (handScan i s).wai.anchor = s.wai.anchor := by
  cases i with
  | answer r st c f k =>
    simp only [handScan]; split
    · have k := finalHanded_keeps (q := false) (r := r) (st := st) (c := k) (s := handAnswerWrite r st c s)
      refine ⟨fun j hj => k.1 j hj, fun j hj => ?_, k.2.2⟩
      rw [k.2.1]; exact List.mem_append_left _ hj
    · exact ⟨fun j hj => hj, fun j hj => List.mem_append_left _ hj, rfl⟩
  | look =>
    simp only [handScan, lookPage]; split
    · exact ⟨fun j hj => hj, fun j hj => hj, rfl⟩
    · exact ⟨fun j hj => List.mem_cons_of_mem _ hj, fun j hj => hj, rfl⟩
  | _ => exact ⟨fun j hj => hj, fun j hj => List.mem_append_left _ hj, rfl⟩

/-- The answer of a record that the scan hands stands on WORK's list. -/
theorem answered_handScan {r : RecordRef} {a : Answer} {f c : Bool} :
    answered r a (handScan (.answer r a.status a.count f c) s) := by
  right
  simp only [handScan]
  split
  · have k := finalHanded_keeps (q := false) (r := r) (st := a.status) (c := c)
      (s := handAnswerWrite r a.status a.count s)
    rw [k.2.1]
    refine ⟨_, List.mem_append_right _ (List.mem_singleton_self _), rfl, rfl, ?_⟩
    simp only [answerBytes_length, pageAddr, k.2.2]
    rfl
  · refine ⟨_, List.mem_append_right _ (List.mem_singleton_self _), rfl, rfl, ?_⟩
    simp only [answerBytes_length]; rfl

theorem answered_handOne {r : RecordRef} {a : Answer} (h : answered r a s) (e : handOne s = some t) : answered r a t := by
  obtain ⟨-, -, rfl⟩ | ⟨i, q, hq, rfl⟩ | ⟨x, q, -, rfl⟩ | ⟨m, -, rfl⟩ | ⟨-, rfl⟩ := handOne_cases e
  · unfold endScan beginScan; simp only; split
    · exact answered_mono h (fun i hi => List.mem_append_left _ hi) (fun i hi => hi) rfl
    · exact answered_mono h (fun i hi => hi) (fun i hi => hi) rfl
  · have k := handScan_keeps (i := i) (s := s.setWai { s.wai with scanQueue := q })
    obtain ⟨f, c, m⟩ | ⟨j, m, h1, h2, h3⟩ := h
    · rw [hq] at m
      obtain rfl | m := List.mem_cons.1 m
      · exact answered_handScan
      · exact .inl ⟨f, c, k.1 _ m⟩
    · exact .inr ⟨j, k.2.1 _ m, h1, h2, by simpa [pageAddr, k.2.2] using h3⟩
  · unfold handQueued; split
    · rename_i r' st'
      have k := finalHanded_keeps (q := true) (r := r') (st := st') (c := true)
        (s := handAnswerWrite r' st' 0 (s.setWai { s.wai with answers := q }))
      refine answered_mono h (fun i hi => k.1 i hi) (fun i hi => ?_) k.2.2
      rw [k.2.1]
      simp [handAnswerWrite, handWrite, handWork, hi]
    · exact answered_mono h (fun i hi => hi) (fun i hi => by simp [handWrite, handWork, hi]) rfl
  · unfold handSlot; split
    · exact h
    · exact answered_mono h (fun i hi => hi) (fun i hi => by simp [handWrite, handWork, hi]) rfl
  · exact answered_mono h (fun i hi => hi) (fun i hi => by simp [handMsi, handWork, hi]) rfl

/-- The end of a command leaves an answer in its place or hands it. -/
theorem answered_settle {r : RecordRef} {a : Answer} (h : answered r a s) : answered r a (settle s) := by
  have k : ∀ n (x : State), answered r a x → answered r a (handLoop n x) := by
    intro n
    induction n with
    | zero => exact fun x h => h
    | succ n ih =>
      intro x h
      unfold handLoop; split
      · rename_i u e; exact ih u (answered_handOne h e)
      · exact h
  exact k 64 s h

theorem mem_insertAnswer {x : ScanItem} {l : List ScanItem} : x ∈ insertAnswer x l := by
  induction l with
  | nil => simp [insertAnswer]
  | cons a l ih => simp only [insertAnswer]; split <;> simp [ih]

/-- A record whose owner leaves the interface's own record as it is has its answer. -/
theorem answered_takeRecord {r : RecordRef} {k : LongReq → State → State × Answer} (h : s.wai.taken.any (·.isOf r))
    (w : ∀ q u, (k q u).1.wai.scanQueue = u.wai.scanQueue) (a : Answer) (e : ∀ q u, (k q u).2 = a) :
    answered r a (takeRecord r k s) := by
  left
  unfold takeRecord enterAnswer onPage
  simp only [h, if_true, e, State.setWai_wai, w]
  refine ⟨false, a.status.major == .pending, List.mem_map.2 ⟨_, mem_insertAnswer, ?_⟩⟩
  simp [ScanItem.answered, answerPending]

end Sys2Proof.Machine
end

