-- ==== Sys2Proof/Laws/Voice.lean ====
section
/-! SUPPORT. What a change of the playing chime, an internal arrival, the end of the parking cadence and the taking of definitions do, each
said once, in the terms of Safety. -/

namespace Sys2Proof.Machine

variable {s t : State}

/-! ## Definitions (R123) -/

/-- The held values touch the definitions and themselves only. -/
theorem settleDefs_keeps (s : State) : ∃ ds ws, settleDefs s = s.setChe { s.che with defs := ds, waiting := ws } := by
  have k : ∀ n (c : Che), ∃ ds ws, replaceHeld n c = { c with defs := ds, waiting := ws } := by
    intro n c; unfold replaceHeld
    split
    · exact ⟨c.defs, c.waiting, rfl⟩
    · split
      · exact ⟨c.defs, c.waiting, rfl⟩
      · exact ⟨_, _, rfl⟩
  obtain ⟨d0, w0, h0⟩ := k 0 s.che
  obtain ⟨d1, w1, h1⟩ := k 1 (replaceHeld 0 s.che)
  obtain ⟨d2, w2, h2⟩ := k 2 (replaceHeld 1 (replaceHeld 0 s.che))
  refine ⟨d2, w2, ?_⟩
  unfold settleDefs
  rw [h2, h1, h0]

@[simp] theorem settleDefs_playing : (settleDefs s).che.playing = s.che.playing := by
  obtain ⟨d, w, h⟩ := settleDefs_keeps s; rw [h]; rfl
@[simp] theorem settleDefs_queue : (settleDefs s).che.queue = s.che.queue := by
  obtain ⟨d, w, h⟩ := settleDefs_keeps s; rw [h]; rfl
@[simp] theorem settleDefs_tail : (settleDefs s).che.tail = s.che.tail := by
  obtain ⟨d, w, h⟩ := settleDefs_keeps s; rw [h]; rfl
@[simp] theorem settleDefs_counter : (settleDefs s).che.counter = s.che.counter := by
  obtain ⟨d, w, h⟩ := settleDefs_keeps s; rw [h]; rfl
@[simp] theorem settleDefs_cadence : (settleDefs s).che.cadence = s.che.cadence := by
  obtain ⟨d, w, h⟩ := settleDefs_keeps s; rw [h]; rfl
@[simp] theorem settleDefs_mix : (settleDefs s).mix = s.mix := (rfl)
@[simp] theorem settleDefs_wai : (settleDefs s).wai = s.wai := (rfl)
@[simp] theorem settleDefs_clockNs : (settleDefs s).clockNs = s.clockNs := (rfl)

/-! ## The voice (R121, R122, R127) -/

@[simp] theorem setPlaying_che {p : Option Playing} : (setPlaying p s).che = { s.che with playing := p } := by
  unfold setPlaying safetyDrop duckChange
  simp only; split <;> split <;> (try split) <;> rfl

@[simp] theorem setPlaying_wai {p : Option Playing} : (setPlaying p s).wai = s.wai := by
  unfold setPlaying safetyDrop duckChange
  simp only; split <;> split <;> (try split) <;> rfl

@[simp] theorem setPlaying_clockNs {p : Option Playing} : (setPlaying p s).clockNs = s.clockNs := by
  unfold setPlaying safetyDrop duckChange
  simp only; split <;> split <;> (try split) <;> rfl

/-- R118: the target of CHIME on CABIN while a SAFETY chime plays. -/
theorem safety_target (h : safetyPlaying s = true) :
    (targetOf s .cabin).chime = if s.smn.low then 24 else min s.mix.matrix.cabin.chime 24 := by
  unfold targetOf
  cases e : s.smn.low <;> simp [h, PerOutput.get]

/-- R121: a SAFETY chime that plays lowers the chime gain of CABIN to its target, and nothing else of MIX changes. -/
theorem safetyDrop_mix (s : State) :
    let e := s.mix.effective
    let g := if safetyPlaying s = true then min e.cabin.chime (if s.smn.low then 24 else min s.mix.matrix.cabin.chime 24)
      else e.cabin.chime
    (safetyDrop s).mix = { s.mix with effective := { e with cabin := { e.cabin with chime := g } } } := by
  unfold safetyDrop
  by_cases h : safetyPlaying s = true
  · simp only [safety_target h, h, true_and, if_true]
    generalize (if s.smn.low = true then 24 else min s.mix.matrix.cabin.chime 24) = g
    by_cases k : g < s.mix.effective.cabin.chime
    · rw [if_pos k, Nat.min_eq_right (by omega)]; rfl
    · rw [if_neg k, Nat.min_eq_left (by omega)]
  · simp [h]

/-- R121, R122: a change of the playing chime takes its duck depth, or starts the hold timer, and lowers the chime gain for a SAFETY one. -/
theorem setPlaying_voice {p : Option Playing} : voiceChanged s (setPlaying p s) := by
  have h : safetyPlaying (setPlaying p s) = safetyPlaying (s.setChe { s.che with playing := p }) := by
    simp [safetyPlaying]
  have d : ∀ k (u : State), (duckChange k u).che = u.che ∧ (duckChange k u).smn = u.smn ∧ (duckChange k u).mix.matrix = u.mix.matrix ∧
      (duckChange k u).mix.effective = u.mix.effective := by
    intro k u; unfold duckChange; split
    · exact ⟨rfl, rfl, rfl, rfl⟩
    · split <;> exact ⟨rfl, rfl, rfl, rfl⟩
  have e := safetyDrop_mix (duckChange (duckOf s.che p) (s.setChe { s.che with playing := p }))
  have k := d (duckOf s.che p) (s.setChe { s.che with playing := p })
  have q : safetyPlaying (duckChange (duckOf s.che p) (s.setChe { s.che with playing := p }))
      = safetyPlaying (s.setChe { s.che with playing := p }) := by simp [safetyPlaying, k.1]
  unfold voiceChanged
  simp only [h]
  rw [setPlaying_che]
  unfold setPlaying now
  rw [e]
  simp only [k, q, State.setChe_smn, State.setChe_mix]
  refine ⟨?_, ?_, trivial, ?_⟩
  · intro hd
    cases p with
    | none => simp at hd
    | some p =>
      simp only [duckOf] at hd ⊢
      cases hx : defOf s.che p.chime.num with
      | none => simp [hx] at hd
      | some x =>
        simp only [hx] at hd ⊢
        obtain ⟨n, hn⟩ : ∃ n, x.duck = n + 1 := ⟨x.duck - 1, by omega⟩
        simp [hn, duckChange]
  · intro hd
    have z : duckOf s.che p = none ∨ duckOf s.che p = some 0 := by
      cases p with
      | none => exact .inl rfl
      | some p => right; cases hx : defOf s.che p.chime.num <;> simp_all [duckOf]
    have c : (duckChange (duckOf s.che p) (s.setChe { s.che with playing := p })).mix.duck = s.mix.duck ∧
        (duckChange (duckOf s.che p) (s.setChe { s.che with playing := p })).mix.duckTimer
          = if 0 < s.mix.duck ∧ s.mix.duckTimer = none then some (now s + 300000) else s.mix.duckTimer := by
      obtain z | z := z <;> rw [z] <;> simp only [duckChange, State.setChe_mix] <;> split <;> exact ⟨rfl, rfl⟩
    have n : (safetyDrop (duckChange (duckOf s.che p) (s.setChe { s.che with playing := p }))).clockNs = s.clockNs :=
      setPlaying_clockNs (s := s) (p := p)
    rw [n]
    exact c
  · intro o
    cases o <;> simp [PerOutput.get]

/-! ## Arrivals (R127 to R130) -/

@[simp] theorem setPlaying_slot {p : Option Playing} {n : Nat} : slotCore (setPlaying p s) n = slotCore s n := by simp [slotCore]

/-- R127: the voice is left, and the next entry of the queue plays. -/
theorem endPlaying_che (s : State) :
    (endPlaying s).che = match s.che.queue with
      | [] => { s.che with playing := none }
      | q :: rest => { s.che with queue := rest, playing := some (Playing.begin q) } := by
  unfold endPlaying; split <;> simp_all

/-- R130: what a record that would enter the queue does to it, and to CHIME_DROPPED. -/
theorem enqueue_spec {r : ChimeRec} :
    (s.che.queue.length < 8 → enqueue r s = (s.setChe { s.che with queue := insertRec r s.che.queue }, true)) ∧
    (∀ qs low, s.che.queue = qs ++ [low] → 8 ≤ s.che.queue.length →
      enqueue r s = if outranks r low then
          (raiseDropped low 1 (s.setChe { s.che with queue := insertRec r qs }), true) else (s, false)) := by
  refine ⟨fun h => by simp [enqueue, h], fun qs low e h => ?_⟩
  unfold enqueue
  rw [if_neg (by omega), e]
  simp

@[simp] theorem raise_che {k : NoticeKind} {a b : Word} : (raise k a b s).che = s.che := by
  unfold raise; split
  · rfl
  · split <;> rfl

@[simp] theorem raiseDropped_che {r : ChimeRec} {k : Nat} : (raiseDropped r k s).che = s.che := raise_che

/-- R130: a dropped record is announced, where `u` stands at the instant of `s` with its slots, and `t` keeps what was recorded. -/
theorem droppedNotice_raise {r : ChimeRec} {k : Nat} (hs : u.wai.slots = s.wai.slots) (hc : cabin u = cabin s)
    (ht : slotCore t (slotNumber .chimeDropped) = slotCore (raiseDropped r k u) (slotNumber .chimeDropped))
    (hn : cabin t = cabin s) : droppedNotice r k s t := by
  apply noticeRaised_of_core
  have w : droppedWord r k = BitVec.ofNat 32 (r.num + (if r.origin = .request then 0 else 256) + 65536 * k) := by
    unfold droppedWord; cases r.origin <;> rfl
  rw [ht, raiseDropped, slotCore_raise, hs, hc, hn, w]

/-- R130: what the record `r` leaves of the queue, and of CHIME_DROPPED, where `cause` is that of its own loss. -/
def queueTook (r : ChimeRec) (cause : Nat) (s t : State) : Prop :=
  (s.che.queue.length < 8 → t.che.queue = insertRec r s.che.queue) ∧
  (∀ qs low, s.che.queue = qs ++ [low] → 8 ≤ s.che.queue.length →
    if outranks r low then t.che.queue = insertRec r qs ∧ droppedNotice low 1 s t
    else t.che.queue = s.che.queue ∧ droppedNotice r cause s t)

@[simp] theorem raiseDropped_cabin {r : ChimeRec} {k : Nat} : cabin (raiseDropped r k s) = cabin s := by
  unfold raiseDropped raise; split
  · rfl
  · split <;> rfl

/-- R130: a record enters the queue of `u`, or is announced as lost; `u` has the queue, the slots and the instant of `s`. -/
theorem queueTook_enqueue {r : ChimeRec} {k : Nat} (hq : u.che.queue = s.che.queue) (hs : u.wai.slots = s.wai.slots)
    (hc : cabin u = cabin s) :
    let x := enqueue r u
    let v := if x.2 then x.1 else raiseDropped r k x.1
    v.che = { u.che with queue := v.che.queue } ∧ queueTook r k s v := by
  obtain ⟨e1, e2⟩ := enqueue_spec (s := u) (r := r)
  rw [hq] at e1 e2
  by_cases l : s.che.queue.length < 8
  · simp only [e1 l, if_true]
    exact ⟨rfl, fun _ => rfl, fun qs low e h => by omega⟩
  · obtain ⟨qs, low, e⟩ : ∃ qs low, s.che.queue = qs ++ [low] :=
      (List.eq_nil_or_concat' s.che.queue).resolve_left (fun h => by simp [h] at l)
    have := e2 qs low e (by omega)
    by_cases o : outranks r low
    · simp only [this, o, if_true]
      refine ⟨by simp, fun h => by omega, fun qs' low' e' _ => ?_⟩
      obtain ⟨rfl, h⟩ := List.append_inj' (e.symm.trans e') rfl
      obtain rfl : low = low' := by simpa using h
      rw [if_pos o]
      exact ⟨by simp, droppedNotice_raise (u := u.setChe { u.che with queue := insertRec r qs }) hs hc rfl
        (raiseDropped_cabin.trans hc)⟩
    · simp only [this, o]
      refine ⟨by simp, fun h => by omega, fun qs' low' e' _ => ?_⟩
      obtain ⟨rfl, h⟩ := List.append_inj' (e.symm.trans e') rfl
      obtain rfl : low = low' := by simpa using h
      rw [if_neg o]
      exact ⟨by simpa using hq, droppedNotice_raise hs hc rfl (raiseDropped_cabin.trans hc)⟩

/-- R129: what preemption leaves: the new chime plays, the tail is that of the stopped one, which goes back to the queue. -/
theorem preempt_spec {r : ChimeRec} {p : Playing} :
    (preempt r p s).che = { s.che with playing := some (Playing.begin r), tail := tailOf s.che, queue := (preempt r p s).che.queue } ∧
    queueTook p.chime 3 s (preempt r p s) := by
  have e : preempt r p s =
      let v := setPlaying (some (Playing.begin r)) (s.setChe { s.che with tail := tailOf s.che })
      if (enqueue p.chime v).2 then (enqueue p.chime v).1 else raiseDropped p.chime 3 (enqueue p.chime v).1 := by
    unfold preempt
    simp only
    generalize enqueue p.chime _ = x
    obtain ⟨a, b⟩ := x
    cases b <;> rfl
  have k := queueTook_enqueue (r := p.chime) (k := 3)
    (u := setPlaying (some (Playing.begin r)) (s.setChe { s.che with tail := tailOf s.che })) (s := s) (by simp) (by simp)
    (by simp [cabin, now])
  rw [e]
  exact ⟨by simpa using k.1, k.2⟩

/-- R129, R130: what an internal record leaves that does not preempt. -/
theorem arriveQueued_spec {r : ChimeRec} (h : r.origin = .internal) :
    (s.che.playing = none → s.che.queue = [] →
      (arriveQueued r s).1.che = { s.che with playing := some (Playing.begin r), queue := [] }) ∧
    (∀ p, s.che.playing = some p →
      (arriveQueued r s).1.che = { s.che with queue := (arriveQueued r s).1.che.queue } ∧ queueTook r 2 s (arriveQueued r s).1) := by
  refine ⟨fun hp hq => ?_, fun p hp => ?_⟩
  · have e := (enqueue_spec (s := s) (r := r)).1 (by simp [hq])
    unfold arriveQueued
    simp [e, startNext, hp, hq, insertRec]
  · have k := queueTook_enqueue (r := r) (k := 2) (u := s) (s := s) rfl rfl rfl
    have q : (enqueue r s).1.che.playing = some p := by
      unfold enqueue; split
      · exact hp
      · split
        · exact hp
        · split
          · simpa using hp
          · exact hp
    have e : (arriveQueued r s).1 = if (enqueue r s).2 then (enqueue r s).1 else raiseDropped r 2 (enqueue r s).1 := by
      unfold arriveQueued
      generalize enqueue r s = x at q ⊢
      obtain ⟨a, b⟩ := x
      cases b <;> simp_all [startNext]
    rw [e]; exact k

@[simp] theorem arriveQueued_counter {r : ChimeRec} : (arriveQueued r s).1.che.counter = s.che.counter := by
  have e : (enqueue r s).1.che.counter = s.che.counter := by
    unfold enqueue; split
    · rfl
    · split
      · rfl
      · split <;> simp
  have n : ∀ u : State, (startNext u).che.counter = u.che.counter := by
    intro u; unfold startNext; split
    · rfl
    · split <;> simp
  unfold arriveQueued
  split
  · rename_i h; rw [h] at e; simpa [n] using e
  · rename_i h; rw [h] at e; split <;> simpa using e

/-- A later state that keeps what the slot records shows the same drop. -/
theorem droppedNotice_congr {r : ChimeRec} {k : Nat} {v : State} (h : droppedNotice r k u v)
    (hs : slotCore u (slotNumber .chimeDropped) = slotCore s (slotNumber .chimeDropped))
    (hw : slotCore t (slotNumber .chimeDropped) = slotCore v (slotNumber .chimeDropped)) (hc : cabin t = cabin v) :
    droppedNotice r k s t := by
  unfold slotCore at hs hw
  intro x hx
  rw [hx] at hs
  obtain ⟨w, hu, e⟩ := Option.map_eq_some_iff.1 hs
  have q := h w hu
  simp only [Slot.core, Prod.mk.injEq] at e
  rw [e.2.2.2.2] at q
  split at q
  · rename_i o
    obtain ⟨y, hy, q⟩ := q
    rw [hy] at hw
    obtain ⟨z, hz, c⟩ := Option.map_eq_some_iff.1 hw
    simp only [Slot.core, Prod.mk.injEq] at c
    rw [if_pos o]
    exact ⟨z, hz, by rw [c.1, q.1, e.1], by rw [c.2.1, q.2.1, hc], by rw [c.2.2.1, q.2.2.1], by rw [c.2.2.2.1, q.2.2.2]⟩
  · rename_i o
    rw [if_neg o]
    have m : slotKept .chimeDropped v t := slotKept_of_core hw
    unfold slotKept at q m ⊢
    rw [m, q, hu, hx]
    simp [e.1, e.2.1, e.2.2.1, e.2.2.2.1]

theorem queueTook_congr {r : ChimeRec} {k : Nat} {v : State} (h : queueTook r k u v) (hq : u.che.queue = s.che.queue)
    (hs : slotCore u (slotNumber .chimeDropped) = slotCore s (slotNumber .chimeDropped)) (ht : t.che.queue = v.che.queue)
    (hw : slotCore t (slotNumber .chimeDropped) = slotCore v (slotNumber .chimeDropped)) (hc : cabin t = cabin v) :
    queueTook r k s t := by
  unfold queueTook at h ⊢
  rw [← hq, ht]
  refine ⟨h.1, fun qs low e l => ?_⟩
  have := h.2 qs low e l
  split at this
  · rename_i o; rw [if_pos o]; exact ⟨this.1, droppedNotice_congr this.2 hs hw hc⟩
  · rename_i o; rw [if_neg o]; exact ⟨this.1, droppedNotice_congr this.2 hs hw hc⟩

@[simp] theorem settleDefs_cabin : cabin (settleDefs s) = cabin s := (rfl)
@[simp] theorem settleDefs_slot {n : Nat} : slotCore (settleDefs s) n = slotCore s n := (rfl)

/-- R128 to R130: an internal arrival at `u`, which has the chimes of `s` and what its slot of CHIME_DROPPED records, seen from `s` and at a
`t` that keeps what it left. -/
theorem internalArrival_arrive {n : Nat} {b : Bool} (hu : u.che = { s.che with cadence := b })
    (hs : slotCore u (slotNumber .chimeDropped) = slotCore s (slotNumber .chimeDropped))
    (ht : t.che = (arriveInternal n u).che)
    (hw : slotCore t (slotNumber .chimeDropped) = slotCore (arriveInternal n u) (slotNumber .chimeDropped))
    (hc : cabin t = cabin (arriveInternal n u)) : internalArrival n s t := by
  have d : defOf u.che n = defOf s.che n := by rw [hu]; rfl
  unfold internalArrival
  unfold arriveInternal arrive at ht hw hc
  rw [d] at ht hw hc
  cases hd : defOf s.che n with
  | none =>
    simp only [hd] at ht hw hc ⊢
    rw [ht, hu]; exact ⟨rfl, rfl, rfl, rfl⟩
  | some d =>
    simp only [hd, settleDefs_slot, settleDefs_cabin] at ht hw hc ⊢
    have tp : t.che.playing = (arriveDef n d .internal u).1.che.playing := by rw [ht]; simp
    have tq : t.che.queue = (arriveDef n d .internal u).1.che.queue := by rw [ht]; simp
    have tt : t.che.tail = (arriveDef n d .internal u).1.che.tail := by rw [ht]; simp
    have tc : t.che.counter = (arriveDef n d .internal u).1.che.counter := by rw [ht]; simp
    clear ht
    have ren : ∀ q : ChimeRec, renew (repeatsOf d) .internal q = { q with remaining := repeatsOf d } := fun q => rfl
    refine ⟨fun hp => ?_, fun hp hq => ?_, fun h => ?_⟩
    · have e : ∃ p, s.che.playing = some p ∧ p.chime.num = n := by
        unfold isPlaying at hp
        cases h : s.che.playing <;> simp_all
      obtain ⟨p, h, rfl⟩ := e
      have hup : u.che.playing = some p := by rw [hu, h]
      rw [tp, tq, tt, tc]
      simp only [arriveDef, hup, if_true, State.setChe_che, ren, h]
      rw [hu]
      exact ⟨rfl, rfl, rfl, rfl⟩
    · have e : arriveDef n d .internal u = (u.setChe { u.che with queue := u.che.queue.map (fun r => if r.num = n then
          renew (repeatsOf d) .internal r else r) }, ⟨⟨.doneAdjusted, .none⟩, 0⟩) := by
        have q : isQueued u.che n = true := by rw [hu]; exact hq
        unfold arriveDef
        cases h : u.che.playing with
        | none => simp [q]
        | some p =>
          have : p.chime.num ≠ n := by
            rw [hu] at h
            simp only at h
            simpa [isPlaying, h] using hp
          simp [q, this]
      rw [tp, tq, tt, tc, e]
      simp only [State.setChe_che, ren]
      rw [hu]
      exact ⟨rfl, rfl, rfl, rfl⟩
    · obtain ⟨hp, hq⟩ : isPlaying s.che n = false ∧ isQueued s.che n = false := by simpa [inUse] using h
      have q : isQueued u.che n = false := by rw [hu]; exact hq
      have uq : u.che.queue = s.che.queue := by rw [hu]
      have ut : tailOf u.che = tailOf s.che := by rw [hu]; rfl
      have un : u.che.counter = s.che.counter := by rw [hu]
      have ul : u.che.tail = s.che.tail := by rw [hu]
      have up : u.che.playing = s.che.playing := by rw [hu]
      let counted := u.setChe { u.che with counter := nextArrival u.che.counter }
      let record : ChimeRec := ⟨n, d.cls, d.priority, repeatsOf d, s.che.counter, .internal⟩
      have kq : counted.che.queue = s.che.queue := uq
      have kp : counted.che.playing = s.che.playing := up
      have kt : counted.che.tail = s.che.tail := ul
      have kl : tailOf counted.che = tailOf s.che := ut
      have kc : counted.che.counter = nextArrival s.che.counter := by rw [← un]; rfl
      have ks : slotCore counted (slotNumber .chimeDropped) = slotCore s (slotNumber .chimeDropped) := hs
      have plain : (∀ p, s.che.playing = some p → ¬ classRank p.chime.cls < classRank d.cls) →
          arriveDef n d .internal u = arriveQueued record counted := by
        intro hle
        unfold arriveDef
        simp only [un]
        rw [up]
        cases h : s.che.playing with
        | none => simp [q, record, counted, un, up.trans h]
        | some p =>
          have e : p.chime.num ≠ n := by simpa [isPlaying, h] using hp
          simp [q, e, hle p h, record, counted, un, up.trans h]
      have takes : ∀ p, s.che.playing = some p → classRank p.chime.cls < classRank d.cls →
          arriveDef n d .internal u = (preempt record p counted, answerDone) := by
        intro p h hlt
        have e : p.chime.num ≠ n := by simpa [isPlaying, h] using hp
        unfold arriveDef
        rw [up]
        simp [h, q, e, hlt, record, counted, un]
      have spec := arriveQueued_spec (s := counted) (r := record) rfl
      refine ⟨?_, fun hn hqn => ?_, fun p h => ⟨fun hlt => ?_, fun hle => ?_⟩⟩
      · rw [tc]
        by_cases hlt : ∃ p, s.che.playing = some p ∧ classRank p.chime.cls < classRank d.cls
        · obtain ⟨p, h, hlt⟩ := hlt
          rw [takes p h hlt, (preempt_spec (s := counted) (r := record) (p := p)).1]
          exact kc
        · rw [plain (fun p h l => hlt ⟨p, h, l⟩), arriveQueued_counter]
          exact kc
      · have e := spec.1 (kp.trans hn) (kq.trans hqn)
        rw [← plain (by simp [hn])] at e
        rw [tp, tq, tt, e]
        exact ⟨rfl, rfl, kt⟩
      · have e := takes p h hlt
        have k := preempt_spec (s := counted) (r := record) (p := p)
        rw [e] at tp tq tt hw hc
        have m := queueTook_congr (s := s) (t := t) k.2 kq ks tq hw hc
        rw [k.1] at tp tt
        exact ⟨tp, tt.trans kl, m.1, m.2⟩
      · have e := plain (by intro p' h'; rw [h] at h'; cases h'; omega)
        have k := spec.2 p (kp.trans h)
        rw [e] at tp tq tt hw hc
        have m := queueTook_congr (s := s) (t := t) k.2 kq ks tq hw hc
        rw [k.1] at tp tt
        exact ⟨tp.trans kp, tt.trans kt, m.1, m.2⟩

/-- R135: the end of the parking cadence at `u`, which has the chimes (but for the condition), the mixer and what the chime slots of `s`
record, seen from `s` and at a `t` that keeps what it left. -/
theorem cadenceStopped_stopCadence (hu : u.che = { s.che with cadence := false }) (hm : u.mix = s.mix) 
    (hs : ∀ k : NoticeKind, k = .chimeFinished ∨ k = .chimeDropped → slotCore u (slotNumber k) = slotCore s (slotNumber k))
    (ht : t.che = (stopCadence u).che) (htm : t.mix = (stopCadence u).mix)
    (hw : ∀ k : NoticeKind, k ≠ .pendingDone → slotCore t (slotNumber k) = slotCore (stopCadence u) (slotNumber k)) :
    cadenceStopped s t := by
  have pl : isPlaying u.che 1 = isPlaying s.che 1 := by rw [hu]; rfl
  have sl : ∀ n, slotCore (stopCadence u) n = slotCore u n := by
    intro n
    unfold stopCadence stopPlaying endPlaying
    repeat' split
    all_goals simp [slotCore]
  have e : (endPlaying (u.setChe { u.che with tail := tailOf u.che })).che = match s.che.queue with
      | [] => { s.che with cadence := false, tail := tailOf s.che, playing := none }
      | q :: rest => { s.che with cadence := false, tail := tailOf s.che, queue := rest, playing := some (Playing.begin q) } := by
    have tl : tailOf u.che = tailOf s.che := by rw [hu]; rfl
    rw [endPlaying_che, State.setChe_che, tl, hu]
  unfold cadenceStopped
  refine ⟨?_, slotKept_of_core (((hw _ (by decide)).trans (sl _)).trans (hs _ (by simp))),
    slotKept_of_core (((hw _ (by decide)).trans (sl _)).trans (hs _ (by simp))), fun h => ?_, fun h => ?_⟩
  · rw [ht]; unfold stopCadence stopPlaying
    split
    · rw [settleDefs_cadence, e]; split <;> rfl
    · rw [settleDefs_cadence, State.setChe_che, hu]
  · rw [ht]; unfold stopCadence stopPlaying
    rw [pl, if_pos h, settleDefs_tail, settleDefs_playing, settleDefs_queue, e]
    cases hq : s.che.queue with
    | nil => exact ⟨rfl, rfl, hq⟩
    | cons q rest => exact ⟨rfl, rfl, rfl⟩
  · rw [ht, htm]; unfold stopCadence
    rw [pl, if_neg (by simp [h]), settleDefs_tail, settleDefs_playing, settleDefs_queue, settleDefs_mix,
      State.setChe_che, State.setChe_mix, hm, hu]
    exact ⟨rfl, rfl, rfl, List.filter_congr fun q _ => by by_cases e : q.num = 1 <;> simp [e]⟩

/-- R123: entry `n` takes a definition, and no other entry changes. -/
theorem takeDef_spec {n : Nat} {d : ChimeDef} {c : Che} (hd : n < c.defs.length) (hw : n < c.waiting.length) :
    (takeDef n d c).playing = c.playing ∧ (takeDef n d c).queue = c.queue ∧ (takeDef n d c).defs.length = c.defs.length ∧
    (takeDef n d c).waiting.length = c.waiting.length ∧
    (∀ m ≠ n, defOf (takeDef n d c) m = defOf c m ∧ nth (takeDef n d c).waiting m none = nth c.waiting m none) ∧
    (inUse c n = false → defOf (takeDef n d c) n = some d ∧ nth (takeDef n d c).waiting n none = none) ∧
    (inUse c n = true → defOf (takeDef n d c) n = defOf c n ∧ nth (takeDef n d c).waiting n none = some d) := by
  unfold takeDef
  split
  · rename_i h
    refine ⟨rfl, rfl, rfl, by simp, fun m hm => ⟨rfl, ?_⟩, fun e => by simp [h] at e, fun _ => ⟨rfl, ?_⟩⟩
    · simp [nth, Ne.symm hm]
    · simp [nth, hw]
  · rename_i h
    refine ⟨rfl, rfl, by simp, by simp, fun m hm => ?_, fun _ => ?_, fun e => absurd e h⟩
    · simp [defOf, nth, Ne.symm hm]
    · simp [defOf, nth, hd, hw]

/-- R123: where the held value of each entry waits for an entry in use, none of them is taken. -/
theorem settleDefs_idle (h : ∀ n < 3, inUse s.che n = true ∨ nth s.che.waiting n none = none) : settleDefs s = s := by
  have k : ∀ n < 3, replaceHeld n s.che = s.che := by
    intro n hn
    unfold replaceHeld
    obtain e | e := h n hn
    · split
      · rfl
      · rw [if_pos e]
    · rw [e]
  unfold settleDefs
  rw [k 0 (by omega), k 1 (by omega), k 2 (by omega)]
  rfl

/-- R123: CHE has taken definitions 0 to 2: at once where the entry is free, and else it holds the values. -/
theorem takeDefs_spec {a b d : ChimeDef} (hd : s.che.defs.length = 16) (hw : s.che.waiting.length = 3) :
    let c := (settleDefs (s.setChe (takeDefs [a, b, d] s.che))).che
    c.playing = s.che.playing ∧ c.queue = s.che.queue ∧ (∀ n, 3 ≤ n → defOf c n = defOf s.che n) ∧
    ∀ n x, [a, b, d][n]? = some x →
      (inUse s.che n = false → defOf c n = some x ∧ nth c.waiting n none = none) ∧
      (inUse s.che n = true → defOf c n = defOf s.che n ∧ nth c.waiting n none = some x) := by
  have iu : ∀ {x y : Che} (n : Nat), x.playing = y.playing → x.queue = y.queue → inUse x n = inUse y n := by
    intro x y n h k; unfold inUse isPlaying isQueued; rw [h, k]
  obtain ⟨p0, q0, l0, w0, o0, f0, u0⟩ := takeDef_spec (n := 0) (d := a) (c := s.che) (by omega) (by omega)
  obtain ⟨p1, q1, l1, w1, o1, f1, u1⟩ := takeDef_spec (n := 1) (d := b) (c := takeDef 0 a s.che) (by omega) (by omega)
  obtain ⟨p2, q2, l2, w2, o2, f2, u2⟩ := takeDef_spec (n := 2) (d := d) (c := takeDef 1 b (takeDef 0 a s.che)) (by omega) (by omega)
  rw [iu 1 p0 q0] at f1 u1
  rw [iu 2 (p1.trans p0) (q1.trans q0)] at f2 u2
  have hp : (takeDefs [a, b, d] s.che).playing = s.che.playing := p2.trans (p1.trans p0)
  have hq : (takeDefs [a, b, d] s.che).queue = s.che.queue := q2.trans (q1.trans q0)
  have e : ∀ n x, [a, b, d][n]? = some x →
      (inUse s.che n = false → defOf (takeDefs [a, b, d] s.che) n = some x ∧ nth (takeDefs [a, b, d] s.che).waiting n none = none) ∧
      (inUse s.che n = true → defOf (takeDefs [a, b, d] s.che) n = defOf s.che n ∧
        nth (takeDefs [a, b, d] s.che).waiting n none = some x) := by
    intro n x hx
    unfold takeDefs
    match n, hx with
    | 0, hx =>
      cases hx
      rw [(o2 0 (by omega)).1, (o2 0 (by omega)).2, (o1 0 (by omega)).1, (o1 0 (by omega)).2]
      exact ⟨f0, u0⟩
    | 1, hx =>
      cases hx
      rw [(o2 1 (by omega)).1, (o2 1 (by omega)).2, ← (o0 1 (by omega)).1]
      exact ⟨f1, u1⟩
    | 2, hx =>
      cases hx
      rw [← (o0 2 (by omega)).1, ← (o1 2 (by omega)).1]
      exact ⟨f2, u2⟩
  have idle : settleDefs (s.setChe (takeDefs [a, b, d] s.che)) = s.setChe (takeDefs [a, b, d] s.che) := by
    apply settleDefs_idle
    intro n hn
    rw [State.setChe_che, iu n hp hq]
    obtain ⟨x, hx⟩ : ∃ x, [a, b, d][n]? = some x := ⟨_, List.getElem?_eq_getElem (by simpa using hn)⟩
    cases h : inUse s.che n
    · exact .inr ((e n x hx).1 h).2
    · exact .inl rfl
  simp only [idle, State.setChe_che]
  refine ⟨hp, hq, fun n hn => ?_, e⟩
  unfold takeDefs
  rw [(o2 n (by omega)).1, (o1 n (by omega)).1, (o0 n (by omega)).1]

end Sys2Proof.Machine
end

