-- ==== Sys2Proof/Tests/Slice0.lean ====
section
/-! SUPPORT. The tests: the well-formedness checks, the commands that the camera port's codes spell, worked figures and tables of the
spec, and, for every statement with hypotheses, a witness that they can be met together, clause by clause at the ends of their ranges. -/

namespace Sys2Proof.Tests

open Sys2Proof Sys2Proof.Machine

/-! ## Well-formedness: each check refuses a term -/

theorem test_wf_page : Instr.wf (.playChime ⟨31, 1, 16⟩ 0) = true ∧ Instr.wf (.playChime ⟨32, 1, 16⟩ 0) = false := by decide
theorem test_wf_offset_low : Instr.wf (.playChime ⟨0, 1, 12⟩ 0) = false := by decide
theorem test_wf_offset_high : Instr.wf (.playChime ⟨0, 1, 1016⟩ 0) = true ∧ Instr.wf (.playChime ⟨0, 1, 1020⟩ 0) = false := by decide
theorem test_wf_offset_aligned : Instr.wf (.playChime ⟨0, 1, 18⟩ 0) = false := by decide
theorem test_wf_bits : Instr.wf (.motionFrame []) = false ∧ Instr.wf (.parkAssistFrame []) = false ∧
    Instr.wf (.frameError []) = false ∧ Instr.wf (.returnToRest []) = false := by decide
theorem test_wf_code : Instr.wf (.invalidCode 0xB6) = false ∧ Instr.wf (.invalidCode 0xB7) = true := by decide
theorem test_wf_planes : Instr.wf (.setScene ⟨0, 1, 16⟩ ⟨0, 0, 0, List.replicate 32 ⟨0, 0, 0, 0, 0, 0, 0, 0, 0, 0⟩⟩) = false := by decide
theorem test_wf_steps : Instr.wf (.defineChime ⟨0, 1, 16⟩ ⟨3, 0, 0, 0, 0, 0, 0, List.replicate 125 ⟨0, 0, 0⟩⟩) = false := by decide +kernel
theorem test_wf_place : Instr.wf (.readCompletion 16 true []) = false ∧ Instr.wf (.unitTimeout 16) = false ∧
    Instr.wf (.timeoutPlaceRelease 16) = false := by decide
theorem test_wf_completion_length : Instr.wf (.readCompletion 0 true (List.replicate 513 0)) = false := by decide +kernel
theorem test_wf_register : Instr.wf (.registerWrite 4 []) = false ∧ Instr.wf (.registerWrite 4095 [0, 0]) = false := by decide
theorem test_wf_time_lo : Instr.wf (.timeLoRead 0x18 4) = false ∧ Instr.wf (.timeLoRead 0x10 4) = false ∧
    Instr.wf (.timeLoRead 0x14 0) = false := by decide
theorem test_wf_flash : Instr.wf (.settingsLoad []) = false ∧ Instr.wf (.verifyReadComplete []) = false ∧
    Instr.wf (.flashReadComplete []) = false := by decide
theorem test_wf_record : ∀ r : RecordRef, r.wf = false → ∀ b : Byte, Instr.wf (.viewRequest r b) = false ∧
    Instr.wf (.pipeOff r b) = false ∧ Instr.wf (.flushStream r b) = false ∧ Instr.wf (.playSound r b) = false := by
  intro r h b; simp [Instr.wf, h]

/-! ## What the port's codes spell (R20, Table 2-1), and the words of the table -/

theorem test_port_codes : portCommands [0xFF, 0x00, 0x00, 0xB6, 0xFF, 0x00, 0x00, 0xC9, 0x10, 0xFF, 0x00, 0x00, 0x77, 0xFF, 0x00]
    = ([.frameStart, .lineStart, .pixelByte 0x10, .invalidCode 0x77], [0xFF, 0x00]) := by decide
theorem test_port_ends : portCommands [0xFF, 0xFF, 0x00, 0x00, 0xDA, 0xFF, 0x00, 0x00, 0xE5]
    = ([.pixelByte 0xFF, .lineEnd, .frameEnd], []) := by decide
theorem test_no_word_spells_a_command : decodeTableWord 32 0 = none ∧ State.reset.withFetchWord 32 0 = State.reset := ⟨rfl, rfl⟩

/-! ## States -/

/-- The state a command leaves. -/
def after (c : Instr) (s : State) : State :=
  match exec c s with
  | .next t => t
  | _ => s

/-- A record of a taken page. -/
def ref : RecordRef := ⟨0, 1, 16⟩

/-- An attached machine that has taken page 0 of sequence 1. -/
def attached : State := State.reset.setWai { resetWai with
  st := .attached
  anchor := some ⟨4, 4, 5, 0x1000000, 0x10000000, 0x101000, 0x104000⟩
  taken := [⟨0, 1, 0, 0, 0, false, []⟩]
  expected := 2 }

/-- The same with the supply sample of another time, with a view state, and with one pipe. -/
def withVsr (f : Vsr → Vsr) (s : State) : State := s.setVsr (f s.vsr)
def withCin (f : Cin → Cin) (s : State) : State := s.setCin (f s.cin)
def withVwc (f : Vwc → Vwc) (s : State) : State := s.setVwc (f s.vwc)
def withChe (f : Che → Che) (s : State) : State := s.setChe (f s.che)
def withFen (f : Fen → Fen) (s : State) : State := s.setFen (f s.fen)
def withWai (f : Wai → Wai) (s : State) : State := s.setWai (f s.wai)
def withSto (f : Sto → Sto) (s : State) : State := s.setSto (f s.sto)
def withPipe (p : PipeId) (f : Pipe → Pipe) (s : State) : State := setPipe p (f (pipeOf s p)) s
def withFilm (f : Film → Film) (s : State) : State := setFilm .a (f (filmOf s .a)) s

theorem witness_canTake : canTake ref attached = true ∧ held ref attached = false := by decide

/-! ## Witnesses: the machine and its invariants -/

theorem witness_EveryCommandCompletes : ∀ rev, Instr.holdTimer ≠ .powerOnReset rev := by simp
theorem witness_EveryCommandTouchesOnlyItsParts : exec .holdTimer State.reset = .next State.reset := rfl
theorem witness_StepTakesTheFrontCommand : State.reset.pending = [] := rfl
theorem witness_StepKeeps : (State.reset.memOk = true ∧ vehicleOk State.reset.vsr = true ∧ viewOk State.reset.vwc = true ∧
    buffersOk State.reset.cin = true ∧ gainsOk State.reset.mix = true ∧ placesOk State.reset.fen = true ∧
    queueOk State.reset.che = true ∧ reverseOk State.reset = true) ∧ ∃ t, step State.reset = .next t := ⟨by decide, _, rfl⟩
/-- The same for a state with memory, a view open, a frame in progress, units on the system port, chimes and a command waiting. -/
theorem witness_StepKeeps_running :
    let s : State := { attached with
      pending := [.frameEnd], localMem := [(0, 7), (67108863, 1)], sysMem := [(18446744073709551615, 1)]
      vwc := { resetVwc with view := .starting, startTimer := some 5 }
      vsr := { resetVsr false with debRev := true, reverse := true }
      fen := { resetFen with units := [⟨0, .work, 0, 4, 9, .inFlight, false⟩, ⟨15, .work, 0, 4, 9, .orphan, false⟩,
                                       ⟨0, .work, 4, 4, 9, .held [], false⟩] }
      che := { resetChe with playing := some ⟨⟨1, .safety, 15, none, 1, .internal⟩, 0, 0, 0, 0, false, none, none⟩,
                             queue := [⟨5, .alert, 4, none, 2, .request⟩, ⟨6, .alert, 3, none, 3, .request⟩] }
      cin := { resetCin with frame := some ⟨0, 2, 1, false, 1, none, 0, false⟩, buf0 := ⟨.filling, 2, 1⟩, buf1 := ⟨.ready, 2, 1⟩,
                             buf2 := ⟨.shown, 2, 1⟩ } }
    (s.memOk = true ∧ vehicleOk s.vsr = true ∧ viewOk s.vwc = true ∧ buffersOk s.cin = true ∧ gainsOk s.mix = true ∧
      placesOk s.fen = true ∧ queueOk s.che = true ∧ reverseOk s = true) ∧
      ∃ t, step s = .next t := ⟨by decide, _, rfl⟩

/-! ## Witnesses and tests: chapter 1 -/

theorem witness_ReverseLineIsDebounced : (resetVsr true).hold = some 40000 ∧ State.reset.clockNs ≤ 40000 * 1000 := by decide

theorem witness_HoldAndDisagreementTimersAct :
    (let s := State.reset.setVsr { resetVsr true with disTimer := some 0 };
      s.vsr.hold = some 40000 ∧ s.vsr.disTimer = some 0 ∧ (after .holdTimer s).vsr.reverse ≠ s.vsr.reverse ∧
        (evalReverse (withVsr (fun v => { v with debRev := true }) s)).vsr.reverse ≠ s.vsr.reverse) ∧
    (let s := withVwc (fun v => { v with view := .live })
        (withVsr (fun v => { v with hold := some 0, debRev := true, reverse := true }) State.reset);
      (after .holdTimer s).vsr.reverse = false ∧ (after .holdTimer s).wai.slots[0]?.map (·.count) = some 1 ∧
        (after .holdTimer State.reset).vsr.reverse = State.reset.vsr.reverse) ∧
    (let s := withVsr (fun v => { v with
        reverse := true, motionFresh := { v.motionFresh with st := .valid, deadline := some 0 }, motion := { v.motion with gear := .r } })
        State.reset;
      s.vsr.motionFresh.deadline = some 0 ∧ (after (.freshnessDeadline .motion) s).vsr.reverse ≠ s.vsr.reverse) := by
  decide +kernel

/-- R14: an episode begins at the end of the hold and at a MOTION frame, goes on, and ends where MOTION becomes STALE. -/
theorem witness_EpisodesBeginAndEnd :
    let s (ep : Bool) := withVsr (fun v => { v with
      hold := some 0, rawRev := true, debRev := ep, reverse := ep, episode := ep, disTimer := if ep then some 9 else none
      motionFresh := { v.motionFresh with st := .valid, deadline := some 100000 }, motion := { v.motion with gear := .d } }) State.reset
    ((s false).vsr.hold = some 0 ∧ (s true).vsr.motionFresh.deadline = some 100000 ∧ (s false).vsr.rx = .hunt 0 ∧ 8 ≤ 8) ∧
    ((after .holdTimer (s false)).vsr.episode = true ∧ (after .holdTimer (s false)).vsr.disTimer = some 500000) ∧
    ((after .holdTimer (s true)).vsr.episode = true ∧ (after .holdTimer (s true)).vsr.disTimer = some 9) ∧
    ((after (.freshnessDeadline .motion) (s true)).vsr.episode = false ∧
      (after (.freshnessDeadline .motion) (s true)).vsr.disTimer = none) ∧
    (let t := after (.motionFrame (motionLine 8 5 1 0 0 0)) (s false);
      t.vsr.episode = true ∧ t.vsr.disTimer = some 500000 ∧ t.vsr.reverse = true) ∧
    (evalDisagreement (s false) = s false ∧ (evalDisagreement (withVsr (fun v => { v with episode := false }) (s true))).vsr.disTimer
      = some 500000) := by decide +kernel

theorem witness_FrameErrorsAndRestAreTaken :
    let s (r : Rx) : State := withVsr (fun v => { v with rx := r }) State.reset
    ((s (.hunt 1)).vsr.rx = .hunt (0 + 1) ∧ (s (.hunt 7)).vsr.rx = .hunt (6 + 1) ∧ 6 < 7) ∧
    (s (.start false)).vsr.rx = .start false ∧ (s (.start true)).vsr.rx = .start true ∧
    (s (.header [true] 0 5)).vsr.rx = .header [true] 0 5 ∧
    (s (.payload 0x10 48 [true] 0 5)).vsr.rx = .payload 0x10 48 [true] 0 5 ∧
    (4 < 5 ∧ (List.replicate 39 true).length = 32 + 7 ∧
      bitsByte ((List.replicate 39 true).drop 32 ++ [false]) ≠ 0) ∧
    (4 < 5 ∧ [false, false, true, true, false, false, false].length = 7 ∧
      (bitsByte ([false, false, true, true, false, false, false] ++ [true])).toNat / 16 ≠ 1 ∧
      (bitsByte ([false, false, true, true, false, false, false] ++ [true])).toNat / 16 ≠ 2) ∧
    ((s (.skip 0)).vsr.rx = .skip 0 ∧ 0 ≤ 5) ∧ ((s (.skip 5)).vsr.rx = .skip 5 ∧ 5 ≤ 5) := by decide

theorem witness_MotionFrameIsDecoded : State.reset.vsr.rx = .hunt 0 ∧ 8 ≤ 8 := by decide
theorem witness_ParkAssistFrameIsDecoded : (withVsr (fun v => { v with rx := .hunt 8 }) State.reset).vsr.rx = .hunt 8 ∧ 8 ≤ 8 := by decide
theorem witness_FreshnessDeadlineMakesStale :
    let s := withVsr (fun v => { v with motionFresh := { v.motionFresh with deadline := some 0 },
                                        parkFresh := { v.parkFresh with deadline := some 250000 } }) State.reset
    s.vsr.motionFresh.deadline = some 0 ∧ s.vsr.parkFresh.deadline = some 250000 := by decide

/-- 10.6: a MOTION frame with gear R, 1.5 km/h and 10 degrees, both valid. -/
theorem test_motion_frame :
    let t := after (.motionFrame (vslLine 8 0x15 [1, 0x00, 0x96, 0x03, 0xE8, 0xC0])) State.reset
    t.vsr.motion = ⟨.r, 150, 1000, true, true, 5, 0⟩ ∧ t.vsr.motionFresh = ⟨.acquiring, 1, 5, 0, some 100000⟩ := by decide +kernel
theorem test_park_frame :
    (after (.parkAssistFrame (vslLine 9 0x20 [120, 255, 30, 31])) State.reset).vsr.park = ⟨120, 255, 30, 31, 0, 0⟩ := by decide +kernel
/-- Table 1-7: the fourth level-0 sample in a row enters LOW, and any other sample starts the run afresh. -/
theorem test_supply_low :
    let s := after (.supplySample false false) (after (.supplySample false false) (after (.supplySample false false) State.reset))
    (after (.supplySample false false) s).smn.low = true ∧ (after (.supplySample false true) s).smn.lowRun = 0 := by decide +kernel

/-! ## Witnesses and tests: chapter 2 -/

/-- A frame in progress of two pixels by two lines on the port. -/
def inFrame (f : CamFrame → CamFrame) : State :=
  withCin (fun c => { c with
    stream := .acquiring, buf0 := ⟨.filling, 2, 2⟩, frame := some (f ⟨0, 2, 2, false, 0, none, 0, false⟩) }) State.reset

/-- The same with the last line's unit on the local port, before and after the FRAME_END. -/
def lineOnItsWay (ended : Bool) : State :=
  withFen (fun f => { f with
    camWr := { Channel.started [⟨4, 4⟩] .write with toReq := [] }, camData := [1, 2, 3, 4]
    localUnit := some ⟨.camWr, 4, 4, [(4, [1, 2, 3, 4])], true⟩ })
    (inFrame (fun f => { f with lines := 2, ended := ended }))

theorem witness_FrameStartsAndTheirDeadline :
    (State.reset.cin.source = .port ∧ State.reset.cin.frame = none ∧ (camBuf State.reset.cin 0).st = .free ∧
      (∀ j < 0, (camBuf State.reset.cin j).st ≠ .free)) ∧
    (let s := withCin (fun c => { c with buf0 := ⟨.ready, 0, 0⟩, buf1 := ⟨.shown, 0, 0⟩ }) State.reset;
      s.cin.source = .port ∧ s.cin.frame = none ∧ (camBuf s.cin 2).st = .free ∧ (∀ j < 2, (camBuf s.cin j).st ≠ .free)) ∧
    onPort (inFrame id) ⟨0, 2, 2, false, 0, none, 0, false⟩ ∧
    (withCin (fun c => { c with source := .test }) State.reset).cin.source = .test ∧
    (withCin (fun c => { c with deadline := some 100000 }) State.reset).cin.deadline = some 100000 := by
  refine ⟨by decide, by decide, ⟨rfl, rfl, rfl⟩, rfl, rfl⟩

/-- A stream LOCKED with FROZEN set, the view LIVE, and a deadline. -/
def frozenPicture (s : State) : State :=
  withVwc (fun v => { v with view := .live, manual := true })
    (withCin (fun c => { c with stream := .locked, frozen := true, sameRun := 15, lastSig := 5, badRun := 1, deadline := some 100000 }) s)

/-- R26, R31, R32, R47: the deadline and a second malformed frame leave LOCKED. R21, R23: a FRAME_START writes what is left of a line, which
is the last one of an ended frame. -/
theorem witness_PictureIsLost :
    let s := frozenPicture (inFrame id)
    let t := after .frameStartDeadline s
    let u := after .lineEnd s
    (s.cin.deadline = some 100000 ∧ s.cin.stream = .locked ∧ t.cin.frozen = false ∧ t.cin.sameRun = 0 ∧ t.vwc.view = .noSignal ∧
      t.wai.slots[3]?.map (fun x => (x.d0, x.d1)) = some (0, 5) ∧ t.wai.slots[2]?.map (fun x => (x.d0, x.d1)) = some (515, 4) ∧
      t.wai.slots[1]?.map (fun x => (x.d0, x.d1)) = some (515 + 196608, 7) ∧ t.che.playing.map (·.chime.num) = some 2) ∧
    (s.cin.badRun ≠ 0 ∧ CameraFault ⟨0, 2, 2, false, 0, none, 0, false⟩ .lineEnd .codeOrder ∧ u.cin.stream = .lost ∧
      u.wai.slots[3]?.map (fun x => (x.d0, x.d1)) = some (0, 5) ∧ u.wai.slots[2]?.map (fun x => (x.d0, x.d1)) = some (515, 3 + 256 * 4) ∧
      u.wai.slots[1]?.map (fun x => (x.d0, x.d1)) = some (515 + 196608, 7)) ∧
    (let v := lineOnItsWay true;
      v.cin.source = .port ∧ v.fen.camWr.st ≠ .idle ∧ (after .frameStart v).localMem = [(4, 1), (5, 2), (6, 3), (7, 4)] ∧
        (after .frameStart v).cin.good = 1 ∧ (after .frameStart v).cin.malformed = 0 ∧ flushedMemory State.reset = []) := by
  refine ⟨by decide +kernel, ⟨by decide, .endOutsideLine rfl, by decide +kernel⟩, by decide +kernel⟩

/-- R31: the two samples of row 1 of a mirrored frame of 2 by 2, each of four columns, 4 × 4 + 4 × 2. R23: the line before it is written. -/
theorem test_line_signature :
    let s := withCin (fun c => { c with frame := some ⟨0, 2, 2, true, 1, some [1, 2, 3, 4], 0, false⟩ }) (lineOnItsWay false)
    let t := after .lineEnd s
    onPort s ⟨0, 2, 2, true, 1, some [1, 2, 3, 4], 0, false⟩ ∧
    t.cin.frame = some ⟨0, 2, 2, true, 2, none, 24, false⟩ ∧ t.fen.camData = [1, 4, 3, 2] ∧
    t.localMem = [(4, 1), (5, 2), (6, 3), (7, 4)] ∧ ¬ ([1, 2, 3].length = 2 * 2) :=
  ⟨⟨rfl, rfl, rfl⟩, by decide +kernel⟩

theorem witness_CameraLinesAreCaptured :
    (onPort (inFrame id) ⟨0, 2, 2, false, 0, none, 0, false⟩ ∧ 0 < 2) ∧
    (onPort (inFrame (fun f => { f with store := some [1, 2, 3] })) ⟨0, 2, 2, false, 0, some [1, 2, 3], 0, false⟩ ∧
      [1, 2, 3].length < 2 * 2) ∧
    (onPort (inFrame (fun f => { f with store := some [1, 2, 3, 4], lines := 1, mirror := true }))
        ⟨0, 2, 2, true, 1, some [1, 2, 3, 4], 0, false⟩ ∧
      [1, 2, 3, 4].length = 2 * 2 ∧ 2 % 2 = 0 ∧ 0 < 2 ∧ (inFrame id).fen.camWr.st = .idle) :=
  ⟨⟨⟨rfl, rfl, rfl⟩, by decide⟩, ⟨⟨rfl, rfl, rfl⟩, by decide⟩, ⟨⟨rfl, rfl, rfl⟩, by decide⟩⟩

theorem witness_GoodFrameEnd :
    let s := inFrame (fun f => { f with lines := 2 })
    (onPort s ⟨0, 2, 2, false, 2, none, 0, false⟩ ∧ s.fen.camWr.st = .idle ∧ buffersOk s.cin = true ∧ s.cin.stream = .acquiring) ∧
    (onPort (lineOnItsWay false) ⟨0, 2, 2, false, 2, none, 0, false⟩ ∧ (lineOnItsWay false).fen.camWr.st ≠ .idle) ∧
    (let u := lineOnItsWay true;
      u.cin.source = .port ∧ u.cin.frame = some ⟨0, 2, 2, false, 2, none, 0, true⟩ ∧ buffersOk u.cin = true ∧
        u.fen.localUnit = some ⟨.camWr, 4, 4, [(4, [1, 2, 3, 4])], true⟩ ∧ u.fen.camWr.toMove = [⟨4, 4⟩] ∧
        (after .localUnitCompletion u).cin.good = 1 ∧ (after .localUnitCompletion u).localMem = [(4, 1), (5, 2), (6, 3), (7, 4)]) :=
  ⟨⟨⟨rfl, rfl, rfl⟩, by decide⟩, ⟨⟨rfl, rfl, rfl⟩, by decide⟩, by decide⟩

/-- R31, R32, R47, R54: the fifteenth equal signature sets FROZEN, and a differing one clears it. -/
theorem witness_FrozenIsSetAndCleared :
    let s (run sig : Nat) (frozen : Bool) := withVwc (fun v => { v with view := .live })
      (withCin (fun c => { c with stream := .locked, sameRun := run, lastSig := 7, frozen := frozen })
        (inFrame (fun f => { f with lines := 2, sig := sig })))
    let t := after .frameEnd (s 14 7 false)
    let u := after .frameEnd (s 15 8 true)
    buffersOk (s 14 7 false).cin = true ∧
    (t.cin.frozen = true ∧ t.cin.sameRun = 15 ∧ t.vwc.view = .noSignal ∧ t.wai.slots[3]?.map (fun x => (x.d0, x.d1)) = some (1, 7) ∧
      t.wai.slots[1]?.map (fun x => (x.d0, x.d1)) = some (515, 8) ∧ t.che.playing.map (·.chime.num) = some 2) ∧
    (u.cin.frozen = false ∧ u.cin.sameRun = 1 ∧ u.cin.lastSig = 8 ∧ u.vwc.view = .live ∧
      u.wai.slots[3]?.map (fun x => (x.d0, x.d1)) = some (0, 7)) ∧
    ((after .frameEnd (s 13 7 false)).cin.frozen = false ∧ (after .frameEnd (s 13 7 false)).cin.sameRun = 14 ∧
      (after .frameEnd (s 15 7 true)).cin.frozen = true ∧ (after .frameEnd (s 0 7 false)).cin.sameRun = 1) := by decide +kernel

theorem witness_CameraFaultsMakeMalformedFrames :
    onPort (inFrame (fun f => { f with store := some [1, 2, 3, 4] })) ⟨0, 2, 2, false, 0, some [1, 2, 3, 4], 0, false⟩ ∧
    CameraFault ⟨0, 2, 2, false, 0, some [1, 2, 3, 4], 0, false⟩ (.pixelByte 0) .lineLength ∧
    CameraFault ⟨0, 2, 2, false, 0, some [1, 2, 3], 0, false⟩ .lineEnd .lineLength ∧
    CameraFault ⟨0, 2, 2, false, 2, none, 0, false⟩ .lineStart .lineCount ∧
    CameraFault ⟨0, 2, 2, false, 1, none, 0, false⟩ .frameEnd .lineCount ∧
    (inFrame id).cin.stream = .acquiring ∧ State.reset.cin.frame = none :=
  ⟨⟨rfl, rfl, rfl⟩, .longLine 0 _ rfl (by decide), .shortLine _ rfl (by decide), .extraLine rfl (by decide),
    .missingLine rfl (by decide), rfl, rfl⟩

theorem witness_TestModeGeneratesFrames :
    let s := withCin (fun c => { c with source := .test }) attached
    let f (n : Nat) : CamFrame := ⟨0, 16, 8, true, n, none, 0, false⟩
    let g (n : Nat) := withCin (fun c => { c with frame := some (f n) }) s
    (canTake ref attached = true ∧ attached.vwc.view = .off ∧ attached.vsr.reverse = false ∧ attached.cin.source = .port) ∧
    (canTake ref s = true ∧ s.cin.source = .test ∧ s.vwc.view ≠ .live ∧ s.cin.frame = none ∧ 0 < s.sto.running.camH) ∧
    ((g 0).cin.source = .test ∧ (g 7).cin.frame = some (f 7) ∧ (f 7).ended = false ∧ 7 < (f 7).h ∧ 0 < (f 7).w) ∧
    ((f 8).lines = (f 8).h ∧ (g 8).fen.camWr.st = .idle ∧
      (withFen (fun x => { x with camWr := Channel.started [⟨0, 32⟩] .write }) (g 8)).fen.camWr.st ≠ .idle) := by decide

/-- R34, R23: at the end of a generated frame with two lines left, the line before them and the first of them are written. -/
theorem test_generated_lines_are_written :
    let s := withFen (fun x => { x with camWr := { Channel.started [⟨192, 2⟩] .write with toReq := [] }, camData := [9, 8] })
      (withCin (fun c => { c with source := .test, frame := some ⟨0, 16, 8, false, 6, none, 0, false⟩ }) State.reset)
    let t := after .testFrameEnd s
    t.localMem = [(192, 128), (193, 235)] ++ t.localMem.drop 2 ∧ t.localMem.length = 32 ∧ (t.localMem.getLast?).map (·.1) = some 223 ∧
    (after .testFrameStart s).localMem.length = 64 ∧ (after .testFrameStart t).localMem = (after .testFrameStart s).localMem ∧
    (let u := withCin (fun c => { c with frame := none }) s;
      (after .testFrameStart u).localMem = [(192, 9), (193, 8)] ∧ (after .testFrameEnd u).localMem = []) ∧
    (after (.cameraTest ref 1) (withWai (fun _ => attached.wai)
      (withVwc (fun v => { v with view := .off, manual := false }) (frozenPicture State.reset)))).wai.slots[3]?.map (·.d1) = some 5 := by
  decide +kernel

/-- R23, with the worked pair order: a mirrored line of two pairs. -/
theorem test_mirrored_line : storedLine true [1, 2, 3, 4, 5, 6, 7, 8] = [5, 8, 7, 6, 1, 4, 3, 2] := by decide
/-- Table 2-5: the second bar begins at the eighth part of the width. -/
theorem test_bars : (testLine 16).take 8 = [128, 235, 128, 235, 16, 210, 146, 210] := by decide

/-! ## Witnesses and tests: chapter 3 -/

theorem witness_ViewRequestOnFollowsItsTable :
    let slow (v : ViewState) : State := withVwc (fun w => { w with view := v })
      (withVsr (fun x => { x with motionFresh := { x.motionFresh with st := .valid },
                                  motion := { x.motion with speedValid := true, speed := 1000 } }) attached)
    canTake ref attached = true ∧ held ref attached = false ∧ 1 < (2 : Byte).toNat ∧ attached.vwc.view = .off ∧
    (slow .off).vwc.view = .off ∧ ¬ (slow .off).vsr.reverse ∧ (slow .off).vsr.motion.speed ≤ (slow .off).vwc.policy.manualLimit ∧
    (slow .exitHold).vwc.view = .exitHold ∧ (slow .live).vwc.view = .live := by decide

theorem witness_ViewRequestOffEndsAManualView :
    canTake ref (withVwc (fun v => { v with view := .live, manual := true }) attached) = true := by decide

theorem witness_SetViewPolicyClampsAndKeeps :
    canTake ref attached = true ∧ State.reset.sto.flash = some (.load 657920) ∧
    (let s := withSto (fun x => { x with waiting := some [] })
        (withVwc (fun v => { v with view := .exitHold, exitTimer := some 0 }) State.reset);
      s.vwc.exitTimer = some 0 ∧ s.vwc.view = .exitHold ∧ s.sto.waiting = some []) := by decide

theorem witness_TimersAndReverseMoveTheView :
    (let s := withVwc (fun v => { v with view := .starting, startTimer := some 0 }) State.reset;
      s.vwc.startTimer = some 0 ∧ s.vwc.view = .starting) ∧
    (let s := withVwc (fun v => { v with view := .exitHold, exitTimer := some 0 }) State.reset;
      s.vwc.exitTimer = some 0 ∧ s.vwc.view = .exitHold ∧ s.vwc.manual = false ∧ s.sto.waiting = none) ∧
    (let s := State.reset.setVsr (resetVsr true);
      s.vsr.hold = some 40000 ∧ s.vsr.rawRev = true ∧ s.vsr.reverse = false ∧ s.vwc.view = .off) ∧
    (let s := withVwc (fun v => { v with view := .live })
        (withVsr (fun v => { v with hold := some 0, debRev := true, reverse := true }) State.reset);
      s.vsr.hold = some 0 ∧ s.vsr.rawRev = false ∧ s.vsr.reverse = true ∧ gearSource s.vsr = false ∧ s.vwc.view = .live ∧
        s.vwc.manual = false) := by decide

/-- R42: REVERSE takes over a manual view, and leaves EXIT_HOLD. -/
theorem witness_ReverseTakesAView :
    let s (view : ViewState) (src : CamSource) (man : Bool) := withCin (fun c => { c with source := src, stream := .locked })
      (withVwc (fun v => { v with view := view, manual := man, startTimer := some 3, exitTimer := some 3 }) (State.reset.setVsr (resetVsr true)))
    let t (view : ViewState) (src : CamSource) (man : Bool) := after .holdTimer (s view src man)
    ((s .live .port true).vsr.hold = some 40000 ∧ (s .live .port true).vsr.rawRev = true ∧ (s .live .port true).vsr.reverse = false) ∧
    ((t .starting .test true).vwc = { (s .starting .test true).vwc with manual := false } ∧
      (t .live .port true).vwc = { (s .live .port true).vwc with manual := false } ∧
      (t .live .port true).wai.slots[1]?.map (fun x => (x.d0, x.d1)) = some (514 + 131072, 1)) ∧
    ((t .live .test true).vwc.view = .noSignal ∧ (t .live .test true).vwc.manual = false ∧ (t .live .test true).cin.source = .port) ∧
    ((t .exitHold .port false).vwc = { (s .exitHold .port false).vwc with view := .noSignal, startTimer := none, exitTimer := none } ∧
      (t .exitHold .port false).wai.slots[1]?.map (fun x => (x.d0, x.d1)) = some (1027, 1) ∧
      (after .holdTimer (withPipe .centre (fun x => { x with st := .running }) (s .exitHold .port false))).vwc.view = .live) := by
  decide +kernel

/-- R50: a speed above the limit ends the view, and an equal one does not. -/
theorem witness_SpeedEndsAView :
    let s (view : ViewState) (man : Bool) := withVwc (fun v => { v with view := view, manual := man })
      (withVsr (fun v => { v with motionFresh := { v.motionFresh with st := .valid } }) State.reset)
    let t (speed : Half) (view : ViewState) (man : Bool) := after (.motionFrame (motionLine 8 2 3 0xC0 speed 0)) (s view man)
    ((s .live true).vsr.rx = .hunt 0 ∧ (t 1501 .live true).vsr.reverse = (s .live true).vsr.reverse) ∧
    ((t 1501 .exitHold false).vwc.view = .off ∧ (t 1501 .exitHold false).wai.slots[1]?.map (fun x => (x.d0, x.d1)) = some (1024, 10) ∧
      (t 1500 .exitHold false).vwc = (s .exitHold false).vwc) ∧
    ((t 1001 .live true).vwc.view = .off ∧ (t 1001 .live true).wai.slots[1]?.map (fun x => (x.d0, x.d1)) = some (512 + 131072, 11) ∧
      (t 1000 .live true).vwc = (s .live true).vwc ∧ (t 30000 .live false).vwc = (s .live false).vwc ∧
      (after (.motionFrame (motionLine 8 2 3 0x40 1001 0)) (s .live true)).vwc.view = .live) := by decide +kernel

theorem witness_CurvatureFollowsTheTable :
    (List.range 17).length = 17 ∧ (-6400 : Int) ≤ -6400 ∧ (6400 : Int) ≤ 6400 ∧ 16 ≤ 16 ∧
    ((List.range 17)[15]? = some 15 ∧ (List.range 17)[15 + 1]? = some 16 ∧ -6400 + 800 * (15 : Int) ≤ 6400 ∧
      (6400 : Int) ≤ -6400 + 800 * (15 + 1)) ∧ ((17 : Int) - 10).natAbs < 2 ^ 3 ∧ shownCurvature 3 false 5 5 = 5 := by decide

/-- R59, R60: a LIVE view at a centre vblank, without and with a valid calibration, the back buffer holding a completed run. -/
theorem witness_GuideRunStarts :
    let s (valid : Bool) : State := (withVwc (fun v => { v with view := .live }) (withPipe .centre (fun x => { x with
      st := .running, timing := some defaultTiming }) State.reset)).setGlg
        { resetGlg with valid := valid, snap := true, backDone := true, tag1 := .full, mode := .full }
    let t (valid : Bool) := after (.pipeVblank .centre) (s valid)
    (pipeOf (s true) .centre).st = .running ∧ (s true).vwc.view = .live ∧ (t true).glg.front1 = true ∧
    (t true).glg.mode = .staticOnly ∧ (t true).fen.guideWr = Channel.started [⟨6291456, 720 * 320⟩] .write ∧
    (t false).glg.mode = .noCalibration ∧ (t false).glg.tag0 = .empty ∧ (t false).glg.tag1 = .full ∧ (t false).glg.backDone = true ∧
    (t false).wai.slots[19]?.map (·.d0) = some (1 + 256 * 3) := by decide +kernel

/-! ## Witnesses and tests: chapter 4 -/

theorem witness_SetPipeTimingStartsThePipe :
    canTake ref attached = true ∧ held ref attached = false ∧ timingOk .centre defaultTiming = true ∧
    timingOk .rearL ⟨1280, 720, 1650, 750, 2⟩ = true ∧ timingOk .rearL ⟨1282, 720, 1650, 750, 2⟩ = false ∧
    (let s := State.reset.setVsr (resetVsr true);
      s.vsr.hold = some 40000 ∧ s.vsr.rawRev = true ∧ s.vsr.reverse = false ∧ s.vwc.view = .off ∧ (pipeOf s .centre).st = .off) := by decide

theorem witness_PipesAreTurnedOffAndRestarted :
    let s := withPipe .rearR (fun x => { x with timing := some defaultTiming, restarts := List.replicate 7 ⟨none⟩, st := .running }) attached
    canTake ref s = true ∧ held ref s = false ∧ pipeOfCode 2 = some .rearR ∧ ¬ (PipeId.rearR = .centre ∧ s.vwc.view ≠ .off) ∧
    (pipeOf s .rearR).restarts.length < 8 ∧ (pipeOf s .rearR).timing ≠ none ∧ (pipeOf s .rearR).st ≠ .off := by decide

/-- A FILL plane of 4 by 4 pixels at the origin. -/
def fillEntry : PlaneEntry := ⟨3, 255, 0, 0, 0, 4, 4, 0, 0, 0xFF102030⟩

theorem witness_SetSceneBecomesPending :
    canTake ref attached = true ∧ pipeOfCode 0 = some .centre ∧ (List.replicate 6 fillEntry).length = (6 : Byte).toNat ∧
    (∀ x ∈ List.replicate 6 fillEntry, planeFault (requestWindow attached) x = none) ∧
    ([fillEntry, { fillEntry with kind := 4 }] = [fillEntry] ++ { fillEntry with kind := 4 } :: [] ∧
      planeFault (requestWindow attached) { fillEntry with kind := 4 } = some .kind) := by decide

theorem witness_PlanesAreClippedToThePipe : planeKindOfCode fillEntry.kind = some .fill ∧
    clipPlane (2, 2) fillEntry = some ⟨.fill, 0, 0, 0xFF102030, 0, 0, 2, 2, 255, false, 0, 0⟩ ∧ clipPlane (0, 2) fillEntry = none := by
  decide

theorem witness_VblankAdvancesThePipe :
    let s := withCin (fun c => { c with stream := .locked }) (withVwc (fun v => { v with view := .noSignal })
      (withPipe .centre (fun x => { x with st := .starting, startCount := 1, timing := some defaultTiming }) State.reset))
    (pipeOf s .centre).st ≠ .off ∧ s.vwc.view = .noSignal ∧ s.cin.stream = .locked ∧ s.cin.frozen = false ∧
      (pipeOf (after (.pipeVblank .centre) s) .centre).st = .running ∧ (pipeOf State.reset .rearL).st = .off := by decide +kernel

theorem witness_OutputLinesAreComposed :
    let q : Plane := ⟨.fill, 0, 0, 0xFF102030, 0, 0, 2, 2, 255, false, 0, 0⟩
    let s := withPipe .rearL (fun x => { x with
      st := .running, timing := some ⟨4, 2, 20, 6, 0⟩, outLine := 1, content := .hostScene, active := ⟨0xFF000000, [some q]⟩
      readers := { idleReader with fetched := true } :: x.readers.tail }) State.reset
    (pipeOf s .rearL).timing = some ⟨4, 2, 20, 6, 0⟩ ∧ (pipeOf s .rearL).st ≠ .off ∧ (pipeOf s .rearL).outLine < 2 ∧
    (pipeOf s .rearL).content = .hostScene ∧ (pipeOf s .rearL).active.slots = [some q] ∧ q.kind = .fill ∧ q.alpha = 255 ∧
    (readerOf (pipeOf s .rearL) 0).fetched = true ∧ q.y ≤ (pipeOf s .rearL).outLine ∧ (pipeOf s .rearL).outLine < q.y + q.h ∧
    (pipeOf (after (.outputLine .rearL) s) .rearL).line = [⟨16, 32, 48⟩, ⟨16, 32, 48⟩, ⟨0, 0, 0⟩, ⟨0, 0, 0⟩] := by decide +kernel

/-- R87: a FILM plane with a held line on CENTRE, PARKED being false: the line shows the backdrop. -/
theorem witness_FilmsAreHidden :
    let q : Plane := ⟨.filmA, 0, 0, 0, 0, 0, 2, 2, 255, false, 0, 0⟩
    let s := withPipe .centre (fun x => { x with
      st := .running, timing := some ⟨4, 2, 20, 6, 0⟩, content := .hostScene, active := ⟨0xFF010203, [some q]⟩
      readers := { idleReader with fetched := true, lines := [⟨0, [235, 235], [128, 128]⟩] } :: x.readers.tail }) State.reset
    (pipeOf s .centre).timing = some ⟨4, 2, 20, 6, 0⟩ ∧ (pipeOf s .centre).st ≠ .off ∧ (pipeOf s .centre).outLine < 2 ∧
    s.vsr.parked = false ∧ some q ∈ (pipeOf s .centre).active.slots ∧ q.safe = false ∧
    (pipeOf (after (.outputLine .centre) s) .centre).line = List.replicate 4 ⟨1, 2, 3⟩ := by decide +kernel

theorem witness_BlendingStaysBetween : 255 ≤ 255 ∧ blendChannel 128 255 0 = 128 := by decide
/-- Table 4-2 with R69: the default CENTRE timing has a period of 2080 × 750 pixels at 93.6 MHz. -/
theorem test_frame_period : framePeriodNs defaultTiming = 16666666 := by decide

/-! ## Witnesses and tests: chapter 5 -/

/-- Stream A open, YCbCr of 16 by 16, paced by the CENTRE pipe. -/
def filmOpen (f : Film → Film) : State :=
  withFilm (fun x => f { x with st := .opened, format := 0, width := 16, height := 16 }) attached

theorem witness_OpenStreamOpensAFreshRecord :
    canTake ref attached = true ∧ streamOfCode 0 = some .a ∧ (filmOf attached .a).st = .closed ∧ (filmOf (filmOpen id) .a).st ≠ .closed ∧
    16 ≤ (16 : Half).toNat ∧ (1920 : Half).toNat ≤ 1920 ∧ 16 ≤ (1080 : Half).toNat ∧ (1080 : Half).toNat ≤ 1080 ∧
    (1920 : Half).toNat % 2 = 0 ∧ (1080 : Half).toNat % 2 = 0 ∧ pipeOfCode 0 = some .centre := by decide

theorem witness_FramesAndBuffersJoinTheirQueues :
    let s := filmOpen id
    let c : FrameParams := ⟨0, 1, 0x1000000, 0x1000400, 64, 0⟩
    let a : AudioParams := ⟨0, 1, 0x1000000, 256⟩
    canTake ref s = true ∧ streamOfCode c.stream = some .a ∧ (filmOf s .a).st ≠ .closed ∧ (filmOf s .a).closing = false ∧
    (0 : Word) ≤ (filmOf s .a).video.lastQueued ∧ (filmOf s .a).video.lastQueued < c.token ∧ c.stride.toNat % 64 = 0 ∧
    rowSize (filmOf s .a) ≤ c.stride.toNat ∧ frameAddressOk (filmOf s .a) c (requestWindow s) = true ∧
    (filmOf s .a).audio.lastQueued < a.token ∧ 256 ≤ a.len.toNat ∧ a.len.toNat ≤ 8192 ∧ a.addr.toNat % 4 = 0 ∧
    insideWindow (requestWindow s) a.addr.toNat (4 * a.len.toNat) = true := by decide

theorem witness_PresentationTakesTheNewestDueFrame :
    let f (tok time : Nat) : Frame := ⟨BitVec.ofNat 32 tok, 0, 0, 64, BitVec.ofNat 64 time⟩
    let s := withPipe .centre (fun x => { x with st := .running, timing := some defaultTiming })
      (filmOpen (fun x => { x with video := { x.video with queue := [f 1 0, f 2 8333, f 3 8334], current := some (f 0 0) } }))
    let t := after (.pipeVblank .centre) s
    (filmOf s .a).st ≠ .closed ∧ (pipeOf s (filmOf s .a).pacing).st = .running ∧
    (f 2 8333).time.toNat ≤ (cabin t).toNat + periodOf (pipeOf s .centre) / 2000 ∧
    ¬ (f 3 8334).time.toNat ≤ (cabin t).toNat + periodOf (pipeOf s .centre) / 2000 ∧
    (filmOf t .a).video.current = some (f 2 8333) ∧ (filmOf t .a).video.dropped = 1 := by decide +kernel

theorem witness_FlushAndCloseEmptyTheStream :
    let f (n : Nat) : Frame := ⟨BitVec.ofNat 32 n, 0, 0, 64, 0⟩
    let s := filmOpen (fun x => { x with video := { x.video with
      current := some (f 2), retiring := [f 1], latches := ⟨none, none, some (f 1)⟩ } })
    let u := filmOpen (fun x => { x with video := { x.video with current := some (f 2), latches := ⟨some (f 2), none, none⟩ } })
    (canTake ref s = true ∧ held ref s = false ∧ streamOfCode 0 = some .a ∧ (filmOf s .a).st ≠ .closed ∧
      (filmOf s .a).closing = false ∧ (filmOf s .a).close = none ∧ (filmOf s .a).flush = none ∧
      (filmOf s .a).video.current = some (f 2) ∧ f 1 ∈ (filmOf s .a).video.retiring ∧ (f 1).token < (f 2).token ∧
      (filmOf s .a).video.latches.get .rearR = some (f 1) ∧ (filmOf (after (.flushStream ref 0) s) .a).flush = some ⟨some ref⟩) ∧
    ((filmOf u .a).video.queue = [] ∧ (filmOf u .a).video.retiring = [] ∧ u.fen.units = [] ∧
      (filmOf (after (.flushStream ref 0) u) .a).flush = none) ∧
    ((filmOf u .a).video.current = some (f 2) ∧ (filmOf u .a).video.latches.get .centre = some (f 2) ∧
      (filmOf (after (.closeStream ref 0) u) .a).closing = true) ∧
    ((filmOf (filmOpen id) .a).video.retiring = [] ∧ (filmOpen id).fen.units = [] ∧
      (filmOf (after (.closeStream ref 0) (filmOpen id)) .a).st = .closed) := by decide +kernel

/-! ## Witnesses and tests: chapter 6 -/

/-- Definition 5: one step of 1 kHz at level 12, of 100 ms. -/
def beepDef : ChimeDef := ⟨.comfort, 4, 6, 3, false, [⟨1000, 100, 12⟩]⟩

/-- A record of a definition. -/
def chimeRec (n : Nat) (c : ChimeClass) (left : Option Nat) : ChimeRec := ⟨n, c, 4, left, 41, .request⟩

/-- Definition 5 playing, at an instant, with a queue. -/
def playing (k : Nat) (q : List ChimeRec) : State :=
  withChe (fun c => { c with
    defs := c.defs.set 5 (some beepDef), queue := q
    playing := some ⟨chimeRec 5 .comfort (some 3), 0, k, BitVec.ofNat 32 (k * 89478485), 0, false, none, none⟩ }) attached

theorem witness_ChimeVoicePlaysItsTone :
    let s := playing 4799 []
    let p : Playing := ⟨chimeRec 5 .comfort (some 3), 0, 4799, BitVec.ofNat 32 (4799 * 89478485), 0, false, none, none⟩
    (s.che.tail = none ∧ s.che.playing = some p ∧ p.chime.num ≠ 1 ∧ p.cycle = none ∧ defOf s.che 5 = some beepDef ∧
      beepDef.steps[0]? = some ⟨1000, 100, 12⟩ ∧ p.k < 48 * 100) ∧
    (let x : Tail := ⟨1000, 12, 0, 96, 95, false⟩;
      (withChe (fun c => { c with tail := some x }) s).che.tail = some x ∧ x.j < 96) ∧
    (State.reset.che.tail = none ∧ State.reset.che.playing = none) := by decide

theorem witness_StepAndTailEndsMoveTheVoice :
    let s := playing 4800 []
    s.che.tail = none ∧ (∃ p, s.che.playing = some p ∧ p.chime.num ≠ 1 ∧ p.chime.remaining = some 3) ∧
      defOf s.che 5 = some beepDef ∧ ¬ 0 + 1 < beepDef.steps.length :=
  ⟨by decide, ⟨_, rfl, by decide, rfl⟩, by decide⟩

theorem witness_PlayChimeArrives :
    let s := withChe (fun c => { c with defs := c.defs.set 5 (some beepDef) }) attached
    let t := playing 0 []
    (canTake ref s = true ∧ 15 < (16 : Byte).toNat ∧ (15 : Byte).toNat ≤ 15 ∧ (15 : Byte) ≠ 1 ∧ defOf s.che 15 = none) ∧
    (defOf s.che 5 = some beepDef ∧ s.che.playing = none ∧ s.che.queue = []) ∧
    (∃ p, t.che.playing = some p ∧ p.chime.num = (5 : Byte).toNat ∧ p.chime.num ≠ (0 : Byte).toNat ∧
      isQueued t.che 0 = false ∧ classRank p.chime.cls < classRank ChimeClass.alert ∧ t.che.queue.length < 8) ∧
    (let u := playing 0 [chimeRec 6 .comfort none];
      defOf u.che 0 = some builtInReverse ∧ isPlaying u.che 6 = false ∧ isQueued u.che 6 = true) ∧
    (let qs := (List.range 7).map (fun n => chimeRec (n + 7) .alert none);
      qs ++ [chimeRec 6 .comfort none] = (playing 0 (qs ++ [chimeRec 6 .comfort none])).che.queue ∧
        8 ≤ (qs ++ [chimeRec 6 .comfort none]).length ∧ classRank .comfort ≤ classRank .comfort) := by
  refine ⟨by decide, by decide, ⟨_, rfl, by decide⟩, by decide, by decide⟩

theorem witness_QueueStaysInRankOrder :
    (∀ x ∈ [chimeRec 7 .alert none], outranks (chimeRec 6 .comfort none) x = false) ∧
    (∀ x, ([] : List ChimeRec).head? = some x → outranks (chimeRec 6 .comfort none) x = true) := by
  exact ⟨by decide, fun x h => by simp at h⟩

theorem witness_ChimesAreCancelledAndDefined :
    let s := playing 0 [chimeRec 6 .comfort none]
    let c : ChimeParams := ⟨15, 8, 2, 15, 48, 255, 1, List.replicate 8 ⟨200, 10, 192⟩⟩
    canTake ref s = true ∧ (isQueued s.che 6 = true) ∧ (isQueued s.che 5 = false ∧ isPlaying s.che 5 = true) ∧
      inUse s.che 15 = false ∧ c.steps.length = c.count.toNat := by decide

theorem witness_GainsFollowTheMatrix :
    canTake ref attached = true ∧
    (let s := State.reset.setMix { resetMix with duck := 12, duckTimer := some 0 };
      s.mix.duckTimer = some 0) ∧
    (let s := State.reset.setSmn { resetSmn with lowRun := 3 };
      s.smn.low = false ∧ 3 ≤ s.smn.lowRun) := by decide

/-- R121, R122: the cadence begins over a ducked comfort chime, and a chime ends. -/
theorem witness_VoiceChanges :
    let m (s : State) := s.setMix { resetMix with
      duck := 6, matrix := ⟨⟨0, 0, 0, 40, 0⟩, ⟨0, 0, 0, 40, 0⟩, ⟨0, 0, 0, 40, 0⟩⟩
      effective := ⟨⟨0, 0, 0, 40, 0⟩, ⟨0, 0, 0, 40, 0⟩, ⟨0, 0, 0, 40, 0⟩⟩ }
    let low (s : State) := s.setSmn { resetSmn with low := true }
    let safe : ChimeDef := { beepDef with cls := .safety, duck := 9 }
    let quiet : ChimeDef := { beepDef with duck := 0 }
    let s := m (withChe (fun c => { c with defs := (c.defs.set 6 (some safe)).set 7 (some quiet) }) (playing 4800 []))
    let last := withChe (fun c => { c with
      playing := some ⟨chimeRec 5 .comfort (some 1), 0, 4800, 0, 0, false, none, none⟩, queue := [chimeRec 7 .comfort none] }) s
    (canTake ref s = true ∧ classRank .comfort < classRank safe.cls ∧ isQueued s.che 5 = false ∧ isPlaying s.che 5 = true ∧
      last.che.tail = none ∧ beepDef.steps.length ≤ 0 + 1) ∧
    (let t := after (.playChime ref 6) s;
      t.mix.duck = 9 ∧ t.mix.duckTimer = none ∧ t.mix.effective = ⟨⟨0, 0, 0, 24, 0⟩, ⟨0, 0, 0, 40, 0⟩, ⟨0, 0, 0, 40, 0⟩⟩) ∧
    ((after (.playChime ref 6) (low s)).mix.effective.cabin.chime = 24 ∧ (after (.playChime ref 7) s).mix = s.mix) ∧
    (let t := after .toneStepEnd last;
      t.che.playing.map (·.chime.num) = some 7 ∧ t.mix.duck = 6 ∧ t.mix.duckTimer = some 300000 ∧ t.mix.effective = s.mix.effective) ∧
    ((after (.cancelChime ref 5) s).mix.duckTimer = some 300000 ∧
      (after (.cancelChime ref 5) (s.setMix { s.mix with duckTimer := some 8 })).mix.duckTimer = some 8) := by decide +kernel

/-- R135: the condition becomes true, stays, finds the cadence evicted, and becomes false, playing and queued. -/
theorem witness_CadenceArrivesAndStops :
    let s (on reverse : Bool) (q : List ChimeRec) := withChe (fun c => { c with cadence := on, queue := q }) (withVsr (fun v => { v with
      reverse := reverse, rawRev := !reverse, debRev := reverse, hold := some 0
      park := ⟨149, 255, 255, 255, 1, 0⟩, parkFresh := { v.parkFresh with st := .valid, deadline := some 250000 } }) State.reset)
    let frame (d : Byte) : Instr := .parkAssistFrame (vslLine 8 (vslHeader .parkAssist 2) [255, d, 255, 255])
    let t := after (frame 149) (s false true [])
    ((s false true []).vsr.rx = .hunt 0 ∧ nearest (s true true []).vsr.park = some 149) ∧
    (t.che.cadence = true ∧ t.che.playing.map (·.chime) = some ⟨1, .safety, 15, none, 1, .internal⟩ ∧ t.mix.duck = 18) ∧
    ((after (frame 150) (s false true [])).che = (s false true []).che ∧
      (after (frame 149) (s true true [])).che.playing.map (·.chime.num) = some 1 ∧
      (after (frame 149) (s true true [chimeRec 1 .safety none])).che = (s true true [chimeRec 1 .safety none]).che) ∧
    ((after (frame 150) t).che.playing = none ∧ (after (frame 150) t).che.cadence = false ∧
      (after (.freshnessDeadline .parkAssist) t).che.playing = none ∧
      (after (.freshnessDeadline .parkAssist) (s true true [chimeRec 1 .safety none])).che.queue = []) ∧
    (let u := after .holdTimer (s false false []);
      cadenceNow { (s false false []).vsr with reverse := true } = true ∧ (s false false []).vwc.view = .off ∧ u.che.cadence = true ∧
        u.che.playing.map (·.chime.num) = some 1 ∧ u.che.queue.map (·.num) = [0]) ∧
    (let u := after .holdTimer (withVwc (fun v => { v with policy := { v.policy with chimeEnable := false } }) (s false false []));
      u.che.playing.map (·.chime.num) = some 1 ∧ u.che.queue = []) ∧
    (let u := s true true [];
      gearSource u.vsr = false ∧ u.sto.waiting = none ∧ (after .holdTimer u).che.cadence = false) := by decide +kernel

/-- R134 and R54: the internal arrivals of definitions 0 and 2. -/
theorem witness_InternalArrivals :
    let s := State.reset.setVsr (resetVsr true)
    let u := withVwc (fun v => { v with view := .starting, startTimer := some 0 }) (playing 0 [])
    let x := withVwc (fun v => { v with view := .exitHold }) (withVsr (fun v => { v with
      motionFresh := { v.motionFresh with st := .valid }, motion := { v.motion with speedValid := true, speed := 1000 } }) attached)
    (cadenceNow { s.vsr with reverse := true } = false ∧ s.vwc.policy.chimeEnable = true ∧ s.che.cadence = false ∧
      (after .holdTimer s).che.playing.map (·.chime) = some ⟨0, .alert, 8, some 1, 1, .internal⟩) ∧
    (u.vwc.view = .starting ∧ (after .startTimer u).che.playing.map (·.chime.num) = some 2 ∧
      (after .startTimer u).che.queue = [chimeRec 5 .comfort (some 3)]) ∧
    (canTake ref x = true ∧ x.cin.stream ≠ .locked ∧ (after (.viewRequest ref 1) x).vwc.view = .noSignal ∧
      (after (.viewRequest ref 1) x).che.playing.map (·.chime.num) = some 2) := by decide +kernel

theorem witness_CadenceCyclesAreDecided :
    let cyc : Cycle := ⟨.beep, 120, 26400, true⟩
    let p : Playing := ⟨chimeRec 1 .safety none, 0, 26304, 0, 0, true, some cyc, some cyc⟩
    let s := withVsr (fun v => { v with park := { v.park with leftInner := 30 } })
      (withChe (fun c => { c with playing := some p }) State.reset)
    (s.che.playing = some p ∧ p.chime.num = 1 ∧ p.cycle = some cyc ∧ p.decided = some cyc ∧ nearest s.vsr.park = some 30) ∧
    (let q : Playing := ⟨chimeRec 1 .safety none, 0, 0, 0, 0, false, none, none⟩;
      let u := withChe (fun c => { c with playing := some q }) State.reset;
      u.che.tail = none ∧ u.che.playing = some q ∧ q.chime.num = 1 ∧ q.cycle = none) := by decide

theorem witness_SoundsAreLoadedAndPlayed :
    canTake ref attached = true ∧ held ref attached = false ∧ (31 : Byte).toNat ≤ 31 ∧ (262144 : Word).toNat ≤ 262144 ∧
    (soundOf attached.che 31).st ≠ .loading ∧ (∀ u, attached.che.ui = some u → u.entry ≠ 31) ∧
    (262144 : Word) ≠ 0 ∧ (0x1000000 : Dword).toNat % 2 = 0 ∧
    insideWindow (requestWindow attached) 0x1000000 (2 * 262144) = true := by
  refine ⟨by decide, by decide, by decide, by decide, by decide, ?_, by decide⟩
  intro u h; cases h

/-- 6.1, worked figures: one cabin sample, and the saturation of the first stage. -/
theorem test_cabin_sample :
    mixChannel ⟨12, 192, 192, 24, 0⟩ 12000 0 0 (-20000) = 990 ∧ mixChannel ⟨0, 0, 192, 192, 0⟩ 30000 20000 0 0 = 32767 := by decide +kernel
/-- Table 6-3. -/
theorem test_gain_multipliers : [0, 1, 2, 12, 24, 40, 48, 80, 120, 160, 191, 192].map gain
    = [32768, 30935, 29205, 16423, 8231, 3277, 2068, 328, 33, 3, 1, 0] := by decide +kernel
/-- 6.5, worked figures: instant 12 of 1000 Hz at level 12. -/
theorem test_tone_sample : increment 1000 = 89478485 ∧ (chimeInstant (resetVsr false) (playing 12 []).che).1 = 2223 := by decide +kernel
/-- Table 6-7, steps 1 and 2: definition 5 plays and definition 6, of a higher priority, waits behind it. -/
theorem test_play_chime_twice :
    let six : ChimeDef := { beepDef with priority := 9, repeats := 1 }
    let s := withChe (fun c => { c with counter := 41, defs := (c.defs.set 5 (some beepDef)).set 6 (some six) }) attached
    let t := after (.playChime ref 6) (after (.playChime ref 5) s)
    t.che.playing.map (·.chime) = some ⟨5, .comfort, 4, some 3, 41, .request⟩ ∧ t.che.queue = [⟨6, .comfort, 9, some 1, 42, .request⟩] ∧
      t.mix.duck = 6 := by decide +kernel

/-! ## Witnesses and tests: chapter 7 -/

/-- An attached machine with the window taken. -/
def windowed : State := withFen (fun f => { f with window := some ⟨0x1000000, 0x10000000⟩ }) attached

/-- A plane reader of CENTRE with a line of 600 bytes to fetch, 100 bytes before a 4 KiB boundary. -/
def planeWaits : State := withFen (fun f => { f with
  planes := { f.planes with centre := f.planes.centre.set 5 (Channel.started [⟨0x1000F9C, 600⟩]) } }) windowed

theorem witness_SystemPortChoosesByClass :
    (systemChoice planeWaits = some (.plane .centre 5) ∧ eligible planeWaits (.plane .centre 5) = true ∧
      ∃ i < 6, 5 = (planeWaits.fen.lastSlot.get .centre + 1 + i) % 6) ∧
    (∀ p, ∀ slot < 6, eligible State.reset (.plane p slot) = false) ∧ (∀ st, eligible State.reset (.audio st) = false) ∧
    eligible State.reset .work = false ∧ (∀ id, eligible State.reset (.bulk id) = false) := by
  refine ⟨by decide +kernel, fun p => by cases p <;> decide, fun st => by cases st <;> decide, by decide, fun id => rfl⟩

/-- A machine with one answer to write. -/
def workWaits : State := withFen (fun f => { f with work := [⟨.write, Channel.started [⟨0x104000, 4⟩] .write, [1, 2, 3, 4]⟩] }) windowed

theorem witness_SystemPortGrantsOneUnit :
    (systemChoice planeWaits = some (.plane .centre 5) ∧
      nextUnit (.plane .centre 5) (channelOf planeWaits.fen (.plane .centre 5)).toReq = some ⟨0x1000F9C, 100⟩ ∧
      writesSystem planeWaits.fen (.plane .centre 5) = false ∧ insideWindow planeWaits.fen.window 0x1000F9C 100 = true) ∧
    (let s := withFen (fun f => { f with window := none }) planeWaits;
      systemChoice s = some (.plane .centre 5) ∧ insideWindow s.fen.window 0x1000F9C 100 = false) ∧
    (let i : WorkItem := ⟨.write, Channel.started [⟨0x104000, 4⟩] .write, [1, 2, 3, 4]⟩;
      systemChoice workWaits = some .work ∧ workWaits.fen.work = [i] ∧ i.job = .write ∧
        nextUnit .work i.chan.toReq = some ⟨0x104000, 4⟩) ∧
    (let s := withFen (fun f => { f with bulk := [⟨.settingsOut, Channel.started [⟨0x1000300, 256⟩] .write, 0⟩] })
        (withSto (fun x => { x with readPhase := .copyOut, readAddr := 0x1000000, readImage := List.replicate 1024 5 }) windowed);
      systemChoice s = some (.bulk .settingsOut) ∧
        nextUnit (.bulk .settingsOut) (bulkChannel s.fen.bulk .settingsOut).toReq = some ⟨0x1000300, 256⟩ ∧
        insideWindow s.fen.window 0x1000300 256 = true ∧ (after .systemPortGrant s).sto.readPhase = .idle ∧
        (after .systemPortGrant s).sysMem.length = 256) := by decide +kernel

/-- A machine with one unit of 4 bytes on the system port, in place 15, of a channel that has a range to move. -/
def inFlight (c : ChanId) (ph : UnitPhase) (len : Nat) : State :=
  withFen (fun f =>
    let ch := { Channel.started [⟨0x1000000, len⟩] with toReq := [] }
    let g : Fen := { f with
      units := [⟨15, c, 0x1000000, 4, 50000, ph, false⟩]
      bulk := [⟨.settingsIn, ch, 0⟩, ⟨.sound 31, ch, 0⟩]
      work := [⟨.anchorRead, ch, []⟩] }
    match c with
    | .plane .. => setChannel g c ch
    | .audio _ => setChannel g c ch
    | _ => g) windowed

theorem witness_UnitsCompleteOrFail :
    let u (c : ChanId) (ph : UnitPhase) : FetchUnit := ⟨15, c, 0x1000000, 4, 50000, ph, false⟩
    let sole (c : ChanId) (len : Nat) : Prop := soleUnit (inFlight c .inFlight len) 15 (u c .inFlight) ∧
      (channelOf (inFlight c .inFlight len).fen c).toMove = [⟨0x1000000, len⟩]
    (unitAt (inFlight .work .orphan 4).fen 15 = some (u .work .orphan) ∧ ∀ st, ChanId.work ≠ .audio st) ∧
    (unitAt (inFlight .work (.timedOut 100000) 4).fen 15 = some (u .work (.timedOut 100000))) ∧
    (sole (.plane .rearR 5) 4 ∧ sole (.plane .rearR 5) 8 ∧ 5 < (pipeOf State.reset .rearR).readers.length) ∧ sole (.audio .b) 4 ∧
    sole (.bulk (.sound 31)) 4 ∧ sole (.bulk .settingsIn) 4 ∧ sole (.bulk .settingsIn) 8 ∧
    (unitAt (inFlight .work .inFlight 4).fen 15 = some (u .work .inFlight) ∧ (inFlight .work .inFlight 4).wai.st = .attached) ∧
    ((inFlight (.bulk (.sound 31)) .inFlight 4).che.bank[31]? = some emptySound) := by
  refine ⟨⟨by decide, by simp⟩, by decide, ⟨⟨⟨by decide, by decide, rfl, by decide⟩, rfl⟩, ⟨⟨by decide, by decide, rfl, by decide⟩, rfl⟩,
    by decide⟩, ⟨⟨by decide, by decide, rfl, by decide⟩, rfl⟩, ⟨⟨by decide, by decide, rfl, by decide⟩, rfl⟩,
    ⟨⟨by decide, by decide, rfl, by decide⟩, rfl⟩, ⟨⟨by decide, by decide, rfl, by decide⟩, rfl⟩, by decide, by decide⟩

/-- R157, R190, R195: the window fails on the two settings copies; and a copy in fails by its unit. -/
theorem witness_SettingsCopiesFail :
    let c (id : BulkId) : State := withFen (fun f => { f with window := none, bulk := [⟨id, Channel.started [⟨0x1000300, 256⟩] id.dir, 0⟩] })
      (withSto (fun x => { x with
        writePhase := .copying, writeReq := some ⟨some ref⟩, readPhase := .copyOut, readReq := some ⟨some ref⟩ }) windowed)
    let unit := withSto (fun x => { x with writePhase := .copying, writeReq := some ⟨some ref⟩, staged := [0] })
      (inFlight (.bulk .settingsIn) .inFlight 4)
    (systemChoice (c .settingsIn) = some (.bulk .settingsIn) ∧ systemChoice (c .settingsOut) = some (.bulk .settingsOut) ∧
      nextUnit (.bulk .settingsOut) (bulkChannel (c .settingsOut).fen.bulk .settingsOut).toReq = some ⟨0x1000300, 256⟩ ∧
      nextUnit (.bulk .settingsIn) (bulkChannel (c .settingsIn).fen.bulk .settingsIn).toReq = some ⟨0x1000300, 256⟩ ∧
      insideWindow (c .settingsIn).fen.window 0x1000300 256 = false ∧ attached.wai.taken.any (·.isOf ref) = true) ∧
    (let t := after .systemPortGrant (c .settingsOut);
      t.sto.readPhase = .idle ∧ t.fen.bulk = [] ∧ [5, 21, 0, 0] ∈ t.fen.work.map (·.data) ∧
        t.wai.slots[17]?.map (·.count) = some 0) ∧
    ((after .systemPortGrant (c .settingsIn)).sto.lastOutcome = some .fetch ∧ (after .systemPortGrant (c .settingsIn)).fen.bulk = []) ∧
    (unitAt unit.fen 15 = some ⟨15, .bulk .settingsIn, 0x1000000, 4, 50000, .inFlight, false⟩ ∧
      (after (.readCompletion 15 false []) unit).sto.writePhase = .idle ∧
      [5, 21, 0, 0] ∈ (after (.unitTimeout 15) unit).fen.work.map (·.data) ∧
      (after (.unitTimeout 15) unit).wai.slots[17]?.map (·.d0) = some 327685) := by decide +kernel

/-- R107, R108: the error of an audio reader, in OPEN and HELD, and of a discarded buffer. -/
theorem witness_AudioReaderFails :
    let s (st : StreamState) (dis : Bool) := setFilm .b { resetFilm with st := st, audio := { resetFilm.audio with
        queue := [⟨7, 0, 9, 0⟩, ⟨8, 64, 9, 1⟩], reading := some 7, discarded := if dis then [6] else [], underrun := true } }
      (withFen (fun f => { f with units := f.units.map (fun u => { u with discard := dis }) }) (inFlight (.audio .b) .inFlight 4))
    let c : Instr := .readCompletion 15 false []
    let t := after c (s .opened false)
    (unitAt (s .opened false).fen 15 = some ⟨15, .audio .b, 0x1000000, 4, 50000, .inFlight, false⟩ ∧
      (∀ x ∈ (s .opened false).fen.units, x.chan = .audio .b → x.discard = false)) ∧
    ((filmOf t .b).audio.queue = [⟨8, 64, 9, 1⟩] ∧ (filmOf t .b).audio.lastRetired = 7 ∧ (filmOf t .b).audio.errors = 1 ∧
      (filmOf t .b).audio.underrun = true ∧ t.fen.audio.b = Channel.started [⟨68, 32⟩] ∧
      t.wai.slots[12]?.map (fun x => (x.d0, x.d1)) = some (513, 7)) ∧
    ((after (.unitTimeout 15) (s .held false)).fen.audio.b = idleChannel ∧
      (after (.unitTimeout 15) (s .held false)).wai.slots[12]?.map (·.d0) = some 66049) ∧
    (let u := after c (s .opened true);
      (filmOf u .b).audio.queue.length = 2 ∧ (filmOf u .b).audio.lastError = 6 ∧ (filmOf u .b).audio.errors = 1 ∧
        u.wai.slots[12]?.map (·.d1) = some 6) := by decide +kernel

/-- R150: the second unit of a channel completes first, and the first one hands over both. -/
theorem witness_CompletionsAreHeld :
    let s (id : BulkId) (ph : UnitPhase) := withFen (fun f => { f with
        units := [⟨3, .bulk id, 0x1000000, 4, 50000, .inFlight, false⟩, ⟨4, .bulk id, 0x1000004, 2, 50000, ph, false⟩]
        bulk := [⟨id, { Channel.started [⟨0x1000000, 8⟩] with toReq := [] }, 0⟩] }) windowed
    let t := after (.readCompletion 4 true [5, 6]) (s (.sound 2) .inFlight)
    (placesOk (s (.sound 2) .inFlight).fen = true ∧
      unitAt (s (.sound 2) .inFlight).fen 4 = some ⟨4, .bulk (.sound 2), 0x1000004, 2, 50000, .inFlight, false⟩ ∧
      (s (.sound 2) .inFlight).fen.units.find? (isLiveOf (.bulk (.sound 2)))
        = some ⟨3, .bulk (.sound 2), 0x1000000, 4, 50000, .inFlight, false⟩ ∧ 3 ≠ 4) ∧
    (t.fen.units = (s (.sound 2) (.held [5, 6])).fen.units ∧ t.fen.store = [] ∧ placesUsed t.fen = [3] ∧
      placesOk t.fen = true ∧ t.fen.units.filter (isLiveOf (.bulk (.sound 2))) = t.fen.units) ∧
    (let u := after (.readCompletion 3 true [1, 2, 3, 4]) t;
      u.fen.store = [(.sound 2, [1, 2, 3, 4]), (.sound 2, [5, 6])] ∧ u.fen.units = [] ∧
        (bulkChannel u.fen.bulk (.sound 2)).toMove = [⟨0x1000006, 2⟩]) ∧
    (let u := after (.readCompletion 3 true [1, 2, 3, 4]) (s .settingsIn (.held [5, 6]));
      u.sto.staged = [1, 2, 3, 4, 5, 6] ∧ (bulkChannel u.fen.bulk .settingsIn).toMove = [⟨0x1000006, 2⟩]) := by decide +kernel

/-- R150, R145: a plane reader's line, the first of two rows, is whole and is held, and the second one is asked for. -/
theorem test_plane_line :
    let q : Plane := ⟨.surface, 0x1000000, 64, 0, 0, 0, 1, 2, 255, false, 0, 0⟩
    let s := withPipe .rearR (fun x => { x with
      active := ⟨0, [none, none, none, none, none, some q]⟩
      readers := x.readers.set 5 { idleReader with fetched := true, busy := true, lumaLen := 4 } })
      (inFlight (.plane .rearR 5) .inFlight 4)
    let t := after (.readCompletion 15 true [1, 2, 3, 4]) s
    readerOf (pipeOf t .rearR) 5 = ⟨true, 1, true, 4, [], [⟨0, [1, 2, 3, 4], []⟩], []⟩ ∧
    channelOf t.fen (.plane .rearR 5) = Channel.started [⟨0x1000040, 4⟩] ∧ t.fen.units = [] ∧
    planeOf (pipeOf (after (.unitTimeout 15) s) .rearR) 5 = none ∧
    (after (.unitTimeout 15) s).wai.slots[10]?.map (·.d0) = some (2 + 256 * 5) := by decide +kernel

/-- R104: a unit of one sample frame ends a buffer of one. R149: a unit of a sound load joins the data store. -/
theorem test_audio_and_sound_units :
    let s := setFilm .b { resetFilm with st := .opened, audio := { resetFilm.audio with queue := [⟨7, 0, 1, 0⟩, ⟨8, 0, 9, 0⟩], reading := some 7 } }
      (inFlight (.audio .b) .inFlight 4)
    let t := after (.readCompletion 15 true [1, 2, 3, 4]) s
    (filmOf t .b).audio.staging = [⟨0x0201, 0x0403⟩] ∧ (filmOf t .b).audio.queue = [⟨8, 0, 9, 0⟩] ∧ (filmOf t .b).audio.lastRetired = 7 ∧
    (after (.readCompletion 15 true [1, 2, 3, 4]) (inFlight (.bulk (.sound 31)) .inFlight 4)).fen.store = [(.sound 31, [1, 2, 3, 4])] := by
  decide +kernel

/-- A machine whose local port moves a unit. -/
def moving (u : LocalUnit) (f : Fen → Fen) : State := withFen (fun x => { f x with localUnit := some u }) State.reset

theorem witness_LocalPortMovesOneUnit :
    let c := Channel.started [⟨0, 4⟩] .write
    let l : LayerReader := ⟨0, 4, 2, 0, [], []⟩
    let run : GuideRun := ⟨.full, 16, 1, 2, 500, [], [], []⟩
    let sound (s : State) : State := withChe (fun c => { c with
      bank := c.bank.set 0 ⟨.loaded, 10, [0], none⟩, ui := some ⟨0, 0, 0, []⟩ }) s
    (State.reset.fen.localUnit = none ∧ c.st = .active ∧ c.toReq = [⟨0, 4⟩] ∧ localRange State.reset.fen.camWr = none ∧
      layerRange l = some ⟨0, 4⟩ ∧ layerRange State.reset.fen.camRead = none ∧ layerRange State.reset.fen.ovlRead = none ∧
      localRange State.reset.fen.guideWr = none ∧ bankRange (sound State.reset).che = some ⟨0, 20⟩ ∧ bankRange State.reset.che = none) ∧
    (storeHead { resetFen with bulk := [⟨.sound 0, Channel.started [⟨0, 8⟩], 0⟩], store := [(.sound 0, [1, 2])] } = some (.sound 0, [1, 2])) ∧
    (let s := moving ⟨.camWr, 0, 4, [(0, [1, 2, 3, 4])], false⟩ id;
      (after .localUnitCompletion s).localMem = [(0, 1), (1, 2), (2, 3), (3, 4)] ∧ (after .localUnitCompletion s).fen.localUnit = none) ∧
    (let s := withCin (fun c => { c with source := .test, frame := some ⟨2, 16, 4, true, 3, none, 0, false⟩ })
        (moving ⟨.camWr, 0, 4, [], true⟩ (fun f => { f with camWr := { c with toReq := [] } }));
      s.fen.camWr.toMove = [⟨0, 4⟩] ∧
        (after .localUnitCompletion s).fen.camWr = Channel.started [⟨4096096, 32⟩] .write) ∧
    (let s := (moving ⟨.guideWr, 0, 4, [], true⟩ (fun f => { f with guideWr := c })).setGlg { resetGlg with run := some run };
      s.fen.guideWr.toMove = [⟨0, 4⟩] ∧ s.glg.run = some run ∧ (after .localUnitCompletion s).glg.tag1 = .full ∧
        (after .localUnitCompletion s).glg.backDone = true) ∧
    (let s := moving ⟨.camRead, 0, 4, [], true⟩ (fun f => { f with camRead := l });
      (after .localUnitCompletion s).fen.camRead = { l with next := 1, lines := [(0, [0, 0, 0, 0])] }) ∧
    (let s := moving ⟨.ovlRead, 0, 2, [], true⟩ (fun f => { f with ovlRead := l });
      (after .localUnitCompletion s).fen.ovlRead = { l with got := [0, 0] }) ∧
    (let s := sound (moving ⟨.bank, 0, 20, [], true⟩ id);
      (after .localUnitCompletion s).che.ui = some ⟨0, 0, 10, List.replicate 10 0⟩) ∧
    (let s := withChe (fun c => { c with bank := c.bank.set 3 ⟨.loading, 5, [0], none⟩, loads := 1 })
        (moving ⟨.bulk (.sound 3), 0, 10, [], true⟩ (fun f => { f with
          bulk := [⟨.sound 3, Channel.started [⟨0, 10⟩], 0⟩], store := [(.sound 3, List.replicate 10 1)] }));
      (after .localUnitCompletion s).che.loads = 0 ∧ (after .localUnitCompletion s).fen.bulk = [] ∧
        (after .localUnitCompletion s).fen.store = [] ∧ (soundOf (after .localUnitCompletion s).che 3).st = .loaded) := by decide +kernel

/-- R145, R148: the unit ends at the 4 KiB boundary, the pipe goes to the end of the rotation, and its slot is its last granted one. -/
theorem test_grant :
    let t := after .systemPortGrant planeWaits
    t.fen.units = [⟨0, .plane .centre 5, 0x1000F9C, 100, 50000, .inFlight, false⟩] ∧ t.fen.rotation = .lrc ∧ t.fen.lastSlot.centre = 5 := by
  decide +kernel

/-! ## Witnesses and tests: chapter 8 -/

/-- A good anchor: 4 pages at 0x1000, the board at 0x4000, a window of 256 MiB at 16 MiB, and MSIs at 20 ms, which is clamped. -/
def goodAnchor : List Byte :=
  leBytes 4 0x41574346 ++ leBytes 4 4 ++ leBytes 4 0 ++ leBytes 4 20 ++ leBytes 8 0x1000000 ++ leBytes 8 0x10000000
    ++ leBytes 4 0x1000 ++ leBytes 4 0x4000 ++ List.replicate 216 0

/-- A WORK read of `n` bytes, the one transfer on the list, with its one unit in place 15. -/
def reading (job : WorkJob) (n : Nat) (s : State) : State :=
  withFen (fun f => { f with
    work := [⟨job, { Channel.started [⟨0x100000, n⟩] with toReq := [] }, []⟩]
    units := [⟨15, .work, 0x100000, n, 50000, .inFlight, false⟩] }) s

theorem reading_sole (job : WorkJob) (n : Nat) (s : State) : soleUnit (reading job n s) 15 ⟨15, .work, 0x100000, n, 50000, .inFlight, false⟩ :=
  ⟨rfl, rfl, rfl, rfl⟩

set_option maxRecDepth 20000 in
theorem witness_AttachDetachAndLinkReset :
    (State.reset.wai.st = .detached ∧ State.reset.wai.wbase.toNat % 4096 = 0 ∧ attached.wai.st = .attached ∧
      (withWai (fun w => { w with st := .attaching }) State.reset).wai.st = .attaching ∧
      (withWai (fun w => { w with st := .faulted, wbase := 4095 }) State.reset).wai.st = .faulted) ∧
    (let s := reading .anchorRead 256 (withWai (fun w => { w with st := .attaching, base := 0x100000, counter := 7 }) State.reset);
      s.wai.st = .attaching ∧ goodAnchor.length = 256 ∧ anchorFault goodAnchor = none ∧
        (after (.readCompletion 15 true goodAnchor) s).wai.counter = 10 ∧
        (after (.readCompletion 15 true goodAnchor) s).wai.anchor = some ⟨4, 4, 10, 0x1000000, 0x10000000, 0x101000, 0x104000⟩ ∧
        (after (.readCompletion 15 true goodAnchor) s).fen.work.length = 4 ∧
        (after (.readCompletion 15 true (List.replicate 256 0)) s).wai.cause = .magic) ∧
    (let i : WorkItem := ⟨.lastBoardWrite, Channel.started [⟨0x104000, 64⟩] .write, List.replicate 64 1⟩;
      let s := withFen (fun f => { f with work := [i] }) (withWai (fun w => { w with st := .attaching }) attached);
      systemChoice s = some .work ∧ nextUnit .work i.chan.toReq = some ⟨0x104000, 64⟩ ∧ advance 64 i.chan.toReq = [] ∧
        (after .systemPortGrant s).wai.st = .attached ∧ (after .systemPortGrant s).fen.window = some ⟨0x1000000, 0x10000000⟩) := by
  decide +kernel

theorem witness_ScansAreRequestedAndBegun :
    State.reset.wai.st ≠ .attached ∧
    (let s := withWai (fun w => { w with scanning := true, scanWaits := true, scanTimer := some 4000 }) attached;
      s.wai.st = .attached ∧ s.wai.scanning = true ∧ s.wai.scanWaits = true ∧ s.wai.scanTimer = some 4000) ∧
    (let s := withWai (fun w => { w with taken := [] }) attached;
      let a : Anchor := ⟨4, 4, 5, 0x1000000, 0x10000000, 0x101000, 0x104000⟩;
      s.wai.st = .attached ∧ s.wai.scanning = false ∧ s.wai.scanQueue = [] ∧ s.wai.scanWaits = false ∧ s.wai.answers = [] ∧
        s.wai.wanted = false ∧ (∀ x ∈ s.wai.slots, x.dirty = false) ∧ s.fen.work = [] ∧ s.wai.anchor = some a ∧ s.wai.taken = []) ∧
    (let s := withFen (fun f => { f with work := List.replicate 16 ⟨.write, idleChannel, []⟩ }) attached;
      s.wai.scanning = false ∧ s.wai.scanQueue = [] ∧ 16 ≤ s.fen.work.length) := by decide

/-- R198: the header of a page of a state and a sequence, with a fill and a record count. -/
def pageHeader (state seq fill count : Nat) : List Byte :=
  leBytes 2 state ++ leBytes 2 count ++ leBytes 4 seq ++ leBytes 2 fill ++ List.replicate 6 0

/-- A machine whose scan waits for the header of page 0. -/
def scans : State :=
  reading (.headerRead 0) 16 (withWai (fun w => { w with taken := [], expected := 5, scanning := true, scanWaits := true }) attached)

/-- R172 to R174: an ANSWERED page, one of another sequence, one with records, and one without. -/
theorem witness_PagesAreTaken :
    let t (h : List Byte) := after (.readCompletion 15 true h) scans
    (scans.wai.st = .attached ∧ scans.wai.scanQueue = [] ∧ scans.wai.answers = [] ∧ scans.wai.wanted = false ∧
      (∀ x ∈ scans.wai.slots, x.dirty = false) ∧ (pageHeader 1 5 16 1).length = 16) ∧
    ((t (pageHeader 3 5 16 1)).wai.scanning = false ∧ (t (pageHeader 3 5 16 1)).fen.work = []) ∧
    ((t (pageHeader 1 6 16 1)).wai.expected = 5 ∧ (t (pageHeader 1 6 16 1)).wai.slots[16]?.map (·.d1) = some 6) ∧
    ((t (pageHeader 1 5 16 1)).wai.expected = 6 ∧ (t (pageHeader 1 5 16 1)).fen.work.map (·.job) = [.write, .recordsRead 0] ∧
      (t (pageHeader 1 5 16 1)).wai.scanQueue = [.look]) ∧
    ((t (pageHeader 1 5 7 1)).fen.work.map (·.job) = [.write, .write, .headerRead 1] ∧ (t (pageHeader 1 5 7 1)).wai.taken = []) := by
  decide +kernel

/-- R174 to R178: a page of two records, PLAY_CHIME of an entry beyond the table and a PIPE_OFF of a running pipe, is read and answered. -/
theorem witness_RecordsAreTaken :
    let bytes : List Byte := leBytes 2 0x51 ++ leBytes 2 12 ++ leBytes 4 0 ++ leBytes 4 16 ++ leBytes 2 0x11 ++ leBytes 2 12 ++ leBytes 4 0 ++ leBytes 4 1
    let p : TakenPage := ⟨0, 5, 0, 0, 0, false, pageHeader 1 5 24 2⟩
    let s := reading (.recordsRead 0) 24 (withPipe .rearL (fun x => { x with st := .running })
      (withWai (fun w => { w with taken := [p], expected := 6, scanning := true, scanWaits := true, scanQueue := [.look] }) attached))
    let t := after (.readCompletion 15 true bytes) s
    s.wai.taken.find? (fun q => q.page == 0) = some p ∧ bytes.length = 24 ∧ (bytes.drop 12).length = 12 ∧ p.isOf ⟨0, 5, 28⟩ = true ∧
    fixedLength (u16At (bytes.drop 12) 0).toNat = some 4 ∧ requestOf (u16At (bytes.drop 12) 0).toNat (bytes.drop 12) = some (.pipeOff 1) ∧
    (pipeOf t .rearL).st = .off ∧ t.wai.taken = [] ∧ answerBytes ⟨.refusedInvalid, .range⟩ 0 ∈ t.fen.work.map (·.data) ∧
    answerBytes ⟨.done, .none⟩ 0 ∈ t.fen.work.map (·.data) ∧ headerBytes p.header 3 2 1 ∈ t.fen.work.map (·.data) := by
  decide +kernel

theorem witness_RegistersAreWrittenAndRead :
    (0x0C ≤ 0x0C ∧ 0x0C + (List.replicate 8 (0 : Byte)).length ≤ 0x14) ∧ (0x0C ≤ 0x13 ∧ 0x13 + [(0 : Byte)].length ≤ 0x14) ∧
    (0 + [(0 : Byte), 0, 0, 0].length ≤ 4) ∧ (5 ≤ 0x0B ∧ 0x0B + [(0 : Byte)].length ≤ 0x0C) ∧ 0x14 ≤ 0x14 ∧
    (0x17 < 0x18 ∧ 0x14 < 0x17 + 1) ∧ (0x14 < 0x18 ∧ 0x14 < 0x14 + 1) ∧ (0 < 0x18 ∧ 0x14 < 0 + 4096) := by
  decide
/-- R160, R197: a 64-bit read at TIME_LO returns TIME_LO and the new latch, and a byte of ID is read before them. -/
theorem test_read_window :
    let s := withWai (fun w => { w with timeLatch := 9 }) { State.reset with clockNs := 0x01020304050607 * 1000 }
    (after (.timeLoRead 0x14 8) s).wai.readData = [0x07, 0x06, 0x05, 0x04, 0x03, 0x02, 0x01, 0x00] ∧
    (after (.timeLoRead 0x02 19) s).wai.readData.take 2 = [0x30, 0x03] := by decide +kernel

theorem witness_NoticesAreSwitchedAndAnnounced :
    canTake ref attached = true ∧
    (let s := withWai (fun w => { w with msiTimer := some 5000, wanted := true }) attached;
      s.wai.msiTimer = some 5000 ∧ s.wai.st = .attached ∧ s.wai.anchor ≠ none ∧ s.wai.answers = [] ∧ s.wai.scanning = false ∧
        s.wai.scanQueue = [] ∧ s.wai.scanWaits = false ∧ (∀ x ∈ s.wai.slots, x.dirty = false) ∧ s.fen.work.length < 16) ∧
    State.reset.wai.slots[slotNumber .guideState]? = some resetSlot ∧ resetSlot.enable = true ∧
    (attached.wai.taken.any (·.isOf ref) = true ∧ stillPending ref attached = false ∧ attached.wai.taken.any (·.isOf ⟨1, 1, 16⟩) = false) := by
  decide

/-- R177, R178: the last final status of page 0 is handed, and the ANSWERED header after it. -/
theorem witness_FinalsAreHanded :
    let p : TakenPage := ⟨0, 1, 3, 0, 1, true, pageHeader 1 1 36 3⟩
    let s := withWai (fun w => { w with
      taken := [p], scanning := true, scanWaits := true, answers := [.final ref ⟨.failed, .fetch⟩] }) attached
    let t := after .scanNow s
    p.isOf ref = true ∧ p.ended = true ∧ s.wai.scanQueue = [] ∧ s.fen.work.length ≤ 14 ∧ t.wai.taken = [] ∧
    (t.fen.work.take 2).map (·.data) = [[5, 21, 0, 0], headerBytes p.header 3 3 0] ∧
    t.wai.slots[15]?.map (fun x => (x.d0, x.d1)) = some (1, 0x15050010) := by decide +kernel

/-- R165: an even counter becomes the next odd value, and an odd one the odd value after it. -/
theorem test_next_odd : nextOdd 6 = 7 ∧ nextOdd 7 = 9 ∧ nextOdd 0xFFFFFFFF = 1 := by decide
/-- R163, R160: the two halves of WBASE, and the anchor read of an ATTACH. -/
theorem test_attach :
    let t := after .attach (after (.registerWrite 0x0C [0x00, 0x00, 0x10, 0x00, 0x01]) State.reset)
    t.wai.wbase = 0x100100000 ∧ t.fen.work = [⟨.anchorRead, Channel.started [⟨0x100100000, 256⟩], []⟩] := by
  decide +kernel

/-! ## Witnesses and tests: chapter 9 -/

/-- A settings image of serial 8 whose body is zero, with the CRC of R187. -/
def zeroImage : List Byte :=
  [0x46, 0x43, 0x53, 0x49, 1, 0, 0, 4] ++ leBytes 4 (crc32 (List.replicate 1008 0)).toNat ++ [8, 0, 0, 0] ++ List.replicate 1008 0

set_option maxRecDepth 200000 in
theorem witness_SettingsLoadTakesOrRejects :
    State.reset.sto.flash = some (.load 657920) ∧
    (u32At zeroImage 0 = 0x49534346 ∧ u16At zeroImage 4 = 1 ∧ u16At zeroImage 6 = 1024 ∧
      crc32 ((zeroImage.drop 16).take 1008) = u32At zeroImage 8) ∧
    ¬ u32At (List.replicate 1024 0xFF) 0 = 0x49534346 := by decide +kernel

/-- R123: definitions of the defaults are held for the entries in use, and replace them when they are free. -/
theorem witness_DefinitionsAreTaken :
    let mine : ChimeDef := { beepDef with steps := [⟨500, 10, 0⟩] }
    let s := withChe (fun c => { c with
      defs := [some mine, some mine, some mine] ++ List.replicate 13 none, queue := [chimeRec 2 .alert none]
      playing := some ⟨chimeRec 0 .alert (some 1), 0, 480, 0, 0, false, none, none⟩ }) State.reset
    let t := after (.settingsLoad []) s
    let attach (x : State) := withWai (fun _ => attached.wai) x
    (s.che.defs.length = 16 ∧ s.che.waiting.length = 3 ∧ inUse s.che 0 = true ∧ inUse s.che 1 = false ∧ inUse s.che 2 = true) ∧
    (t.che.defs.take 3 = [some mine, some builtInCadence, some mine] ∧ t.che.waiting = [some builtInReverse, none, some builtInFault]) ∧
    ((after .toneStepEnd t).che.defs.take 1 = [some builtInReverse] ∧ (after .toneStepEnd t).che.waiting = [none, none, some builtInFault]) ∧
    ((after (.cancelChime ref 2) (attach t)).che.waiting = [some builtInReverse, none, none] ∧
      nth (after (.cancelChime ref 2) (attach t)).che.defs 2 none = some builtInFault) ∧
    (let u := withVsr (fun v => { v with parkFresh := { v.parkFresh with deadline := some 5 } }) (withChe (fun c => { c with
        cadence := true, waiting := [none, some mine, none], queue := [chimeRec 1 .safety none] }) t);
      inUse u.che 1 = true ∧ isPlaying u.che 1 = false ∧
        nth (after (.freshnessDeadline .parkAssist) u).che.defs 1 none = some mine) := by decide +kernel

theorem witness_WriteSettingsRunsItsPhases :
    canTake ref attached = true ∧ held ref attached = false ∧
    (withSto (fun x => { x with flash := some (.erase 0) }) attached).sto.flash = some (.erase 0) ∧
    (withSto (fun x => { x with flash := some (.program 3 0) }) attached).sto.flash = some (.program 3 0) ∧
    (let s := withSto (fun x => { x with flash := some (.verify 0), writePhase := .verifying }) attached;
      s.sto.flash = some (.verify 0) ∧ s.sto.readPhase ≠ .flashRead ∧ s.sto.staged = [] ∧ [0] ≠ s.sto.staged) := by decide

theorem witness_FlashTimeoutsEndTheWrite :
    let s (o : FlashOp) (w : WritePhase) (r : ReadPhase) : State :=
      withSto (fun x => { x with flash := some o, writePhase := w, readPhase := r }) attached
    ((s (.erase 9) .erasing .idle).sto.readPhase = .idle ∧ (s (.erase 9) .erasing .idle).sto.flash = some (.erase 9)) ∧
    (s (.readyWait true 9) .erasing .idle).sto.flash = some (.readyWait true 9) ∧
    (s (.program 3 9) .programming .idle).sto.flash = some (.program 3 9) ∧
    (s (.readyWait true 9) .erasing .idle).smn.low = false ∧
    ((s (.readyWait false 9) .idle .flashRead).sto.flash = some (.readyWait false 9) ∧
      (s (.readyWait false 9) .idle .flashRead).sto.writePhase = .idle ∧
      (s (.readyWait false 9) .idle .flashRead).sto.readPhase = .flashRead) := by decide

theorem witness_ReadSettingsCopiesTheFlash :
    canTake ref attached = true ∧ held ref attached = false ∧
    (let s := withSto (fun x => { x with flash := none, source := .defaults }) attached;
      s.sto.flash = none ∧ s.sto.writePhase = .idle ∧ s.sto.notReady = false ∧ s.sto.readReq = none ∧
        insideWindow (requestWindow s) 0x1000000 1024 = true) ∧
    (withSto (fun x => { x with flash := some (.read 0), readPhase := .flashRead }) attached).sto.flash = some (.read 0) := by decide

/-- R187: over the nine ASCII bytes "123456789". -/
theorem test_crc32 : crc32 [0x31, 0x32, 0x33, 0x34, 0x35, 0x36, 0x37, 0x38, 0x39] = 0xCBF43926 := by decide +kernel
/-- R188: a device that does not answer gives MAGIC, and SETTINGS_STATE tells event 2 with source 2 and reason 1. -/
theorem test_blank_flash :
    let t := after (.settingsLoad (List.replicate 1024 0xFF)) State.reset
    t.sto.rejection = some .magic ∧ t.wai.slots[17]?.map (·.d0) = some 66050 := by decide +kernel

end Sys2Proof.Tests
end

/-! PROOFS. Chapter 1: the frame of every command, the vehicle record and the notice slots after each operation, the line of a frame as the
receiver takes it, and the statements of the vehicle signals and the supply watch. -/

namespace Sys2Proof.Machine

/-! ## What a command leaves unchanged

The frame of every row, from the frames of the shared operations; an invariant over one part of the state is then a matter of the rows
whose list names that part. -/

section Frame
variable {p : Part} {s t u : State}

theorem same_of_next (h : (.next s : Host.Outcome State Fault Refusal) = .next t) : p.same s t := by
  cases h; exact Part.same_self p s

/-- The end of a command leaves what the command left. -/
theorem same_of_finish (w : p ≠ .wai) (f : p ≠ .fen) (k : p.same s u) (h : finish u = .next t) : p.same s t := by
  obtain rfl : settle u = t := by simpa [finish] using h
  exact (same_settle w f).2 k

/-- A record leaves what its owner leaves. -/
theorem same_of_request {r : RecordRef} {own : LongReq → State → State × Answer} (w : p ≠ .wai) (f : p ≠ .fen)
    (o : ∀ q u, p.same u (own q u).1) (h : request r own s = .next t) : p.same s t := by
  unfold request at h
  split at h
  · exact same_of_finish w f ((same_takeRecord w o).2 (Part.same_self p s)) h
  · exact same_of_next h

/-- R170: WAI hands what waits after every command. -/
theorem interface_mem_mayTouch (c : Instr) : .wai ∈ mayTouch c ∧ .fen ∈ mayTouch c := by
  cases c <;> simp [mayTouch, vehicleParts, viewParts, pictureParts, exitParts, offParts]

/-- A command leaves every part that its list does not name. -/
theorem exec_same {c : Instr} (k : p ∉ mayTouch c) (h : exec c s = .next t) : p.same s t := by
  have w : p ≠ .wai := by rintro rfl; exact k (interface_mem_mayTouch c).1
  have f : p ≠ .fen := by rintro rfl; exact k (interface_mem_mayTouch c).2
  cases c
  case powerOnReset =>
    obtain rfl : _ = t := by simpa [exec, execPowerOnReset] using h
    cases p <;> simp_all [mayTouch, Part.same]
  -- the records: what the owner may change
  case' setPipeTiming | pipeOff | restartPipe | setScene | openStream | queueFrame | queueAudio | flushStream | closeStream
      | viewRequest | setViewPolicy | cameraTest | setMix | defineChime | playChime | cancelChime | loadSound | playSound | setNotice
      | writeSettings | readSettings =>
    refine same_of_request w f (fun q u => ?_) h
  -- the events that always act
  case' motionFrame | parkAssistFrame | frameError | returnToRest | revInEdge | supplySample | lineStart | lineEnd | frameEnd
      | invalidCode | pixelByte | toneStepEnd | releaseTailEnd | cadenceDecisionPoint | cadenceCycleEnd | rampBlock
      | outputSampleInstant | systemPortGrant | localPortGrant | readCompletion | localUnitCompletion | unitTimeout
      | timeoutPlaceRelease | linkReset | attach | detach | scanNow | registerWrite | timeLoRead =>
    refine same_of_finish w f ?_ h
  -- the events that act only where they are awaited
  case' freshnessDeadline | holdTimer | disagreementTimer | frameStart | testFrameStart | testFrameEnd | frameStartDeadline
      | startTimer | exitTimer | duckHoldTimer | scanPeriodTimer | msiIntervalTimer | settingsLoad | readyWaitDone
      | readyWaitTimeout | eraseComplete | eraseTimeout | pageProgramComplete | programTimeout | verifyReadComplete
      | flashReadComplete =>
    dsimp only [exec, execFreshnessDeadline, execHoldTimer, execDisagreementTimer, execFrameStart, execTestFrameStart,
      execTestFrameEnd, execFrameStartDeadline, execStartTimer, execExitTimer, execDuckHoldTimer, execScanPeriodTimer,
      execMsiIntervalTimer, execSettingsLoad, execReadyWaitDone, execReadyWaitTimeout, execEraseComplete, execEraseTimeout,
      execPageProgramComplete, execProgramTimeout, execVerifyReadComplete, execFlashReadComplete] at h
    split at h
    on_goal 2 => exact same_of_next h
    refine same_of_finish w f ?_ h
  case' pipeVblank =>
    dsimp only [exec, execPipeVblank] at h
    split at h
    · exact same_of_next h
    refine same_of_finish w f ?_ h
  case' outputLine =>
    dsimp only [exec, execOutputLine] at h
    split at h
    on_goal 2 => exact same_of_next h
    split at h
    on_goal 2 => exact same_of_next h
    refine same_of_finish w f ?_ h
  case readCompletion => exact (same_completion k).2 (Part.same_self p s)
  case' readyWaitDone | readyWaitTimeout | pageProgramComplete => split
  case' settingsLoad | verifyReadComplete => simp only [mayTouch, offParts] at k
  all_goals
    simp only [mayTouch, List.mem_cons, List.not_mem_nil, or_false, not_or] at k
    simp [k]

/-- A step idles, or runs the command at the front of the queue. -/
theorem step_cases (h : step s = .next t) :
    (s.pending = [] ∧ t = idle s) ∨ ∃ c rest, s.pending = c :: rest ∧ exec c (s.setPending rest) = .next t := by
  unfold step at h
  split at h
  · cases h; exact .inl ⟨‹_›, rfl⟩
  · exact .inr ⟨_, _, ‹_›, h⟩

end Frame

/-! ## The vehicle record after each operation of chapter 1 -/

section VehicleRecord
variable {p : Part} {s t : State}

@[simp] theorem raise_vsr (k : NoticeKind) (a b : Word) (s : State) : (raise k a b s).vsr = s.vsr :=
  (same_raise (p := .vsr) (by decide)).2 rfl
@[simp] theorem raise_clockNs (k : NoticeKind) (a b : Word) (s : State) : (raise k a b s).clockNs = s.clockNs :=
  (same_raise (p := .clock) (by decide)).2 rfl
@[simp] theorem evalCadence_vsr (b : Bool) (s : State) : (evalCadence b s).vsr = s.vsr :=
  (same_evalCadence (p := .vsr) (by decide) (by decide) (by decide)).2 rfl
@[simp] theorem viewSpeed_vsr (s : State) : (viewSpeed s).vsr = s.vsr := (same_viewSpeed (p := .vsr) (by decide)).2 rfl
@[simp] theorem hideFilms_vsr (s : State) : (hideFilms s).vsr = s.vsr :=
  (same_hideFilms (p := .vsr) (by decide) (by decide)).2 rfl
@[simp] theorem reach_vsr (n : Nat) (s : State) : (reach n s).vsr = s.vsr := (rfl)
@[simp] theorem reach_clockNs (n : Nat) (s : State) : (reach n s).clockNs = max s.clockNs (n * 1000) := (rfl)
@[simp] theorem now_setVsr (s : State) (v : Vsr) : now (s.setVsr v) = now s := (rfl)

/-- R13: what a change of REVERSE is handed to leaves the vehicle record. -/
@[simp] theorem handReverse_vsr (s : State) : (handReverse s).vsr = s.vsr := by
  have on : (chimeReverseOn (camReverseOn (viewReverseOn s))).vsr = s.vsr := by
    unfold chimeReverseOn
    show Part.vsr.same s _
    split <;> simp [pictureParts, viewParts, offParts]
  have off : (viewReverseOff s).vsr = s.vsr := (same_viewReverseOff (p := .vsr) (by decide)).2 rfl
  unfold handReverse
  split <;> simp [on, off]

/-- R13: REVERSE becomes the OR of its two sources. -/
@[simp] theorem evalReverse_vsr (s : State) :
    (evalReverse s).vsr = { s.vsr with reverse := lineSource s.vsr || gearSource s.vsr } := by
  unfold evalReverse
  by_cases h : (lineSource s.vsr || gearSource s.vsr) = s.vsr.reverse
  · simp [h]
  · simp [h]

@[simp] theorem evalReverse_clockNs (s : State) : (evalReverse s).clockNs = s.clockNs :=
  (same_evalReverse (p := .clock) (by decide)).2 rfl

/-- R15: PARKED becomes its condition. -/
@[simp] theorem evalParked_vsr (s : State) : (evalParked s).vsr = { s.vsr with parked := parkedNow s.vsr } := by
  unfold evalParked; simp only; split <;> simp

@[simp] theorem evalParked_clockNs (s : State) : (evalParked s).clockNs = s.clockNs :=
  (same_evalParked (p := .clock) (by decide) (by decide) (by decide)).2 rfl

/-- R14: the vehicle record after disagreement was evaluated at a time. -/
def episodeVsr (t : Nat) (v : Vsr) : Vsr :=
  { v with
    episode := (disagreement v).isSome
    disTimer :=
      if (disagreement v).isSome then (if v.episode then v.disTimer else some (t + 500000))
      else (if v.episode then none else v.disTimer) }

theorem evalDisagreement_eq (s : State) : evalDisagreement s = s.setVsr (episodeVsr (now s) s.vsr) := by
  unfold evalDisagreement episodeVsr disagreementTime
  have kept : s.setVsr { s.vsr with episode := s.vsr.episode, disTimer := s.vsr.disTimer } = s := rfl
  cases d : (disagreement s.vsr).isSome <;> cases e : s.vsr.episode
  case false.false | true.true => rw [e] at kept; simp [kept]
  case false.true | true.false => simp

/-- R13 to R15: the vehicle record after the evaluations at a time. -/
def evaluatedVsr (t : Nat) (v : Vsr) : Vsr :=
  episodeVsr t { v with parked := parkedNow v, reverse := lineSource v || gearSource v }

@[simp] theorem evalMotion_vsr (s : State) : (evalMotion s).vsr = evaluatedVsr (now s) s.vsr := by
  simp [evalMotion, evalDisagreement_eq, evaluatedVsr, now, lineSource, gearSource]

@[simp] theorem frameErrorNow_vsr (e : VslError) (n : Nat) (h : Option Byte) (s : State) :
    (frameErrorNow e n h s).vsr = { s.vsr with errors := countError e s.vsr.errors } := by
  simp [frameErrorNow]

@[simp] theorem frameErrorNow_clockNs (e : VslError) (n : Nat) (h : Option Byte) (s : State) :
    (frameErrorNow e n h s).clockNs = s.clockNs := by
  simp [frameErrorNow]

@[simp] theorem moveFresh_vsr (k : VslKind) (f : Freshness) (s : State) : (moveFresh k f s).vsr = setFresh k f s.vsr := by
  unfold moveFresh; simp only; split <;> simp

@[simp] theorem moveFresh_clockNs (k : VslKind) (f : Freshness) (s : State) : (moveFresh k f s).clockNs = s.clockNs :=
  (same_moveFresh (p := .clock) (by decide) (by decide)).2 rfl

/-- R5, R8: a good MOTION frame gives the record its fields and moves its freshness, a clamp is a RANGE error, and the conditions are
evaluated. -/
theorem goodMotion_vsr (hdr : Byte) (bits : List Bool) (s : State) :
    (goodMotion hdr bits s).vsr = evaluatedVsr (now s) { s.vsr with
      errors := if (motionFields bits).adjusted = 0 then s.vsr.errors else countError .range s.vsr.errors
      motion := motionPart (motionFields bits) (headerSeq hdr) (cabin s)
      motionFresh := freshArrival (headerSeq hdr) (now s + 100000) s.vsr.motionFresh } := by
  unfold goodMotion freshFrame
  by_cases h : (motionFields bits).adjusted = 0 <;> simp [h, now, cabin, setFresh, freshOf, freshWindow]

/-- R6, R8: a good PARK_ASSIST frame gives the record its distances and moves its freshness. -/
theorem goodPark_vsr (hdr : Byte) (bits : List Bool) (s : State) :
    (goodPark hdr bits s).vsr = { s.vsr with
      park := parkPart bits (headerSeq hdr) (cabin s)
      parkFresh := freshArrival (headerSeq hdr) (now s + 250000) s.vsr.parkFresh } := by
  simp [goodPark, freshFrame, now, setFresh, freshOf, freshWindow]

/-- R12 to R14: the hold timer runs out. -/
theorem holdExpiry_vsr (s : State) :
    (holdExpiry s).vsr = episodeVsr (now s) { s.vsr with
      hold := none, debRev := s.vsr.rawRev, reverse := s.vsr.rawRev || gearSource s.vsr } := by
  simp [holdExpiry, evalDisagreement_eq, now, lineSource, gearSource]

/-- R9: the freshness deadline of MOTION passes. -/
theorem freshDeadline_motion_vsr (s : State) :
    (freshDeadline .motion s).vsr = evaluatedVsr (now s) { s.vsr with motionFresh := freshExpiry s.vsr.motionFresh } := by
  simp [freshDeadline, setFresh, freshOf, now]

/-- R9: the freshness deadline of PARK_ASSIST passes. -/
theorem freshDeadline_parkAssist_vsr (s : State) :
    (freshDeadline .parkAssist s).vsr = { s.vsr with parkFresh := freshExpiry s.vsr.parkFresh } := by
  simp [freshDeadline, setFresh, freshOf]

theorem revEdge_vsr (level : Bool) (s : State) :
    (revEdge level s).vsr = { s.vsr with
      rawRev := level
      hold := if level = s.vsr.rawRev then s.vsr.hold else if level = s.vsr.debRev then none else some (now s + 40000) } := by
  unfold revEdge holdTime
  by_cases h : level = s.vsr.rawRev
  · simp [h]
  · simp [h]

theorem disagreementExpiry_vsr (s : State) : (disagreementExpiry s).vsr = { s.vsr with disTimer := none } := by
  unfold disagreementExpiry; simp only; split <;> simp

end VehicleRecord

/-! ## R13 to R15 over a step -/

section VehicleConditions
variable {s t : State}

/-- R13 to R15: an evaluation of disagreement completes the conditions where REVERSE and PARKED are theirs already. -/
theorem vehicleOk_episodeVsr {n : Nat} {v : Vsr} (r : v.reverse = (lineSource v || gearSource v)) (k : v.parked = parkedNow v) :
    vehicleOk (episodeVsr n v) = true := by
  have e : vehicleOk (episodeVsr n v) = ((v.reverse == (lineSource v || gearSource v)) && (v.parked == parkedNow v)
      && ((disagreement v).isSome == (disagreement v).isSome)) := rfl
  simp [e, ← r, ← k]

theorem vehicleOk_evaluatedVsr (n : Nat) (v : Vsr) : vehicleOk (evaluatedVsr n v) = true := vehicleOk_episodeVsr rfl rfl

theorem parked_of_vehicleOk {v : Vsr} (h : vehicleOk v = true) : v.parked = parkedNow v := by
  simp only [vehicleOk, Bool.and_eq_true, beq_iff_eq] at h
  exact h.1.2

theorem takeEvent_keeps_vehicleOk (e : RxEvent) (h : vehicleOk s.vsr = true) : vehicleOk (takeEvent e s).vsr = true := by
  cases e with
  | error e hdr => rw [takeEvent, frameErrorNow_vsr]; exact h
  | good hdr bits =>
    rw [takeEvent]
    split
    · rw [goodMotion_vsr]; exact vehicleOk_evaluatedVsr _ _
    · rw [goodPark_vsr]; exact h

theorem takeBits_keeps_vehicleOk (bits : List Bool) (h : vehicleOk s.vsr = true) : vehicleOk (takeBits bits s).vsr = true := by
  have all : ∀ (es : List RxEvent) (u : State), vehicleOk u.vsr = true →
      vehicleOk (es.foldl (fun t e => takeEvent e t) u).vsr = true := by
    intro es
    induction es with
    | nil => exact fun u k => k
    | cons e es ih => exact fun u k => ih _ (takeEvent_keeps_vehicleOk e k)
  exact all _ _ h

theorem holdExpiry_keeps_vehicleOk (h : vehicleOk s.vsr = true) : vehicleOk (holdExpiry s).vsr = true := by
  rw [holdExpiry_vsr]
  exact vehicleOk_episodeVsr rfl (parked_of_vehicleOk (v := s.vsr) h)

theorem freshDeadline_keeps_vehicleOk (k : VslKind) (h : vehicleOk s.vsr = true) :
    vehicleOk (freshDeadline k s).vsr = true := by
  cases k with
  | motion => rw [freshDeadline_motion_vsr]; exact vehicleOk_evaluatedVsr _ _
  | parkAssist => rw [freshDeadline_parkAssist_vsr]; exact h

theorem vsr_of_finish {u : State} (h : finish u = .next t) : t.vsr = u.vsr :=
  same_of_finish (p := .vsr) (by decide) (by decide) rfl h

theorem exec_keeps_vehicleOk {c : Instr} (k : vehicleOk s.vsr = true) (h : exec c s = .next t) : vehicleOk t.vsr = true := by
  cases c
  case powerOnReset rev =>
    obtain rfl : _ = t := by simpa [exec, execPowerOnReset] using h
    cases rev <;> rfl
  case motionFrame bits | parkAssistFrame bits | frameError bits | returnToRest bits =>
    rw [vsr_of_finish h]; exact takeBits_keeps_vehicleOk bits k
  case revInEdge level => rw [vsr_of_finish h, revEdge_vsr]; exact k
  case freshnessDeadline kind =>
    dsimp only [exec, execFreshnessDeadline] at h
    split at h
    · rw [vsr_of_finish h]; exact freshDeadline_keeps_vehicleOk kind k
    · cases h; exact k
  case holdTimer =>
    dsimp only [exec, execHoldTimer] at h
    split at h
    · rw [vsr_of_finish h]; exact holdExpiry_keeps_vehicleOk k
    · cases h; exact k
  case disagreementTimer =>
    dsimp only [exec, execDisagreementTimer] at h
    split at h
    · rw [vsr_of_finish h, disagreementExpiry_vsr]; exact k
    · cases h; exact k
  all_goals
    have e : t.vsr = s.vsr := exec_same (p := .vsr) (by simp [mayTouch, pictureParts, viewParts, offParts, exitParts]) h
    rw [e]; exact k

/-- Settles O14: the rows that may change the vehicle record end in an evaluation of the conditions or leave what they speak of; the
frame of every other row leaves the record. -/
theorem stepKeepsVehicleConditions : Obligations.StepKeepsVehicleConditions := by
  intro s t k h
  obtain ⟨-, rfl⟩ | ⟨c, rest, -, h⟩ := step_cases h
  · exact k
  · exact exec_keeps_vehicleOk (s := s.setPending rest) k h

end VehicleConditions

/-! ## What an event leaves of the notice slots

One lemma for each operation that a change of REVERSE is handed to: a slot of a kind that the operation does not raise records what it
recorded. -/

section Slots
variable {s t u : State} {k : NoticeKind} {n : Nat}

theorem slotCore_of_wai (h : t.wai = s.wai) : slotCore t n = slotCore s n := slotCore_congr (congrArg Wai.slots h)

@[simp] theorem slotCore_setClock {x : Nat} : slotCore (s.setClock x) n = slotCore s n := (rfl)
@[simp] theorem slotCore_setVsr {x : Vsr} : slotCore (s.setVsr x) n = slotCore s n := (rfl)
@[simp] theorem slotCore_setSmn {x : Smn} : slotCore (s.setSmn x) n = slotCore s n := (rfl)
@[simp] theorem slotCore_setCin {x : Cin} : slotCore (s.setCin x) n = slotCore s n := (rfl)
@[simp] theorem slotCore_setVwc {x : Vwc} : slotCore (s.setVwc x) n = slotCore s n := (rfl)
@[simp] theorem slotCore_setGlg {x : Glg} : slotCore (s.setGlg x) n = slotCore s n := (rfl)
@[simp] theorem slotCore_setFlm {x : Flm} : slotCore (s.setFlm x) n = slotCore s n := (rfl)
@[simp] theorem slotCore_setChe {x : Che} : slotCore (s.setChe x) n = slotCore s n := (rfl)
@[simp] theorem slotCore_setSto {x : Sto} : slotCore (s.setSto x) n = slotCore s n := (rfl)
@[simp] theorem slotCore_setPipe {p : PipeId} {x : Pipe} : slotCore (setPipe p x s) n = slotCore s n := (rfl)
@[simp] theorem slotCore_setFilm {st : StreamId} {x : Film} : slotCore (setFilm st x s) n = slotCore s n := (rfl)
@[simp] theorem slotCore_setVideo {st : StreamId} {x : FilmVideo} : slotCore (setVideo st x s) n = slotCore s n := (rfl)
@[simp] theorem slotCore_reach {x : Nat} : slotCore (reach x s) n = slotCore s n := (rfl)

@[simp] theorem slotCore_raise_other {j : NoticeKind} {a b : Word} (h : k ≠ j) :
    slotCore (raise j a b s) (slotNumber k) = slotCore s (slotNumber k) :=
  slotCore_raise_ne (fun e => h (slotNumber_injective e))

/-- A notice raised at `u`, which has what the slot of `s` records, seen from `s` and at a `t` that keeps what it left. -/
theorem noticeRaised_of_raise {d0 d1 : Word} (before : slotCore u (slotNumber k) = slotCore s (slotNumber k))
    (after : slotCore t (slotNumber k) = slotCore (raise k d0 d1 u) (slotNumber k)) (time : cabin u = cabin t) :
    noticeRaised k d0 d1 s t := by
  have record : ∀ {x y : Slot}, x.core = y.core →
      (if x.enable then (x.count + 1, cabin t, d0, d1, true) else x.core)
        = if y.enable then (y.count + 1, cabin t, d0, d1, true) else y.core := by
    intro x y e
    have parts := e
    simp only [Slot.core, Prod.mk.injEq] at parts
    rw [e, parts.1, parts.2.2.2.2]
  apply noticeRaised_of_core
  rw [after, slotCore_raise, time]
  unfold slotCore at before
  cases hu : u.wai.slots[slotNumber k]? <;> cases hs : s.wai.slots[slotNumber k]? <;>
    simp only [hu, hs, Option.map_none, Option.map_some, reduceCtorEq, Option.some.injEq] at before ⊢
  case some.some x y => exact record before

/-! ### The long requests and the pipe that the view starts -/

@[simp] theorem slotCore_completeRequest {q : LongReq} {st : Status} : slotCore (completeRequest q st s) n = slotCore s n := by
  unfold completeRequest; repeat' split
  all_goals simp

@[simp] theorem slotCore_completeFlush {st : StreamId} : slotCore (completeFlush st s) n = slotCore s n := by
  unfold completeFlush; simp only; split <;> simp

@[simp] theorem slotCore_retireStream {st : StreamId} : slotCore (retireStream st s) n = slotCore s n := by
  unfold retireStream examineStream completeClose; simp only; repeat' split
  all_goals simp

@[simp] theorem slotCore_handSet {p : PipeId} {a b : Bool} : slotCore (handSet p a b s) n = slotCore s n := by simp [handSet]

@[simp] theorem slotCore_startByView (h : k ≠ .pipeStateChange) :
    slotCore (startByView s) (slotNumber k) = slotCore s (slotNumber k) := by
  have hidden : ∀ v : State, slotCore (hideSlots .centre v) (slotNumber k) = slotCore v (slotNumber k) := fun v =>
    slotCore_of_wai ((same_hideSlots (p := .wai) (by decide) (by decide)).2 rfl)
  have layout : ∀ (o : PipeState) (v : State),
      slotCore (startLayout o (dropLayers v)) (slotNumber k) = slotCore v (slotNumber k) := fun o v =>
    slotCore_of_wai ((same_startLayout (p := .wai) (s := v) (by decide)).2 ((same_dropLayers (by decide)).2 rfl))
  unfold startByView enterStarting raisePipe
  simp only
  split <;> simp [h, hidden, layout]

/-! ### The chimes and the settings -/

@[simp] theorem slotCore_enqueue {r : ChimeRec} (h : k ≠ .chimeDropped) :
    slotCore (enqueue r s).1 (slotNumber k) = slotCore s (slotNumber k) := by
  unfold enqueue raiseDropped; repeat' split
  all_goals simp [h]

@[simp] theorem slotCore_startNext : slotCore (startNext s) n = slotCore s n :=
  slotCore_of_wai ((same_startNext (p := .wai) (by decide) (by decide)).2 rfl)

@[simp] theorem slotCore_arriveQueued {r : ChimeRec} (h : k ≠ .chimeDropped) :
    slotCore (arriveQueued r s).1 (slotNumber k) = slotCore s (slotNumber k) := by
  have e := slotCore_enqueue (s := s) (r := r) h
  unfold arriveQueued raiseDropped
  split <;> rename_i v hv <;> rw [hv] at e
  · simpa using e
  · split <;> simpa [h] using e

@[simp] theorem slotCore_preempt {r : ChimeRec} {p : Playing} (h : k ≠ .chimeDropped) :
    slotCore (preempt r p s) (slotNumber k) = slotCore s (slotNumber k) := by
  have e := slotCore_enqueue (s := setPlaying (some (Playing.begin r)) (s.setChe { s.che with tail := tailOf s.che }))
    (r := p.chime) h
  unfold preempt raiseDropped
  simp only
  split <;> rename_i v hv <;> rw [hv] at e <;> simpa [h] using e

@[simp] theorem slotCore_arriveInternal {m : Nat} (h : k ≠ .chimeDropped) :
    slotCore (arriveInternal m s) (slotNumber k) = slotCore s (slotNumber k) := by
  unfold arriveInternal arrive
  split
  · rfl
  · unfold arriveDef; simp only; repeat' split
    all_goals simp [h]

@[simp] theorem slotCore_evalCadence {b : Bool} (h : k ≠ .chimeDropped) :
    slotCore (evalCadence b s) (slotNumber k) = slotCore s (slotNumber k) := by
  have stopped : ∀ v : State, slotCore (stopCadence v) (slotNumber k) = slotCore v (slotNumber k) := fun v =>
    slotCore_of_wai ((same_stopCadence (p := .wai) (by decide) (by decide)).2 rfl)
  unfold evalCadence; simp only; repeat' split
  all_goals simp [h, stopped]

@[simp] theorem slotCore_applyWaiting (h : k ≠ .settingsState) :
    slotCore (applyWaiting s) (slotNumber k) = slotCore s (slotNumber k) := by
  unfold applyWaiting raiseSettings takeSettings; split <;> simp [h]

/-! ### The view and the camera -/

/-- The notices that a move of the view may raise. -/
def viewNotices : List NoticeKind := [.viewChange, .guideState, .pipeStateChange, .chimeDropped, .settingsState]

theorem not_mem_viewNotices (h : k ∉ viewNotices) :
    k ≠ .viewChange ∧ k ≠ .guideState ∧ k ≠ .pipeStateChange ∧ k ≠ .chimeDropped ∧ k ≠ .settingsState := by
  simpa [viewNotices] using h

@[simp] theorem slotCore_guideExit (h : k ≠ .guideState) : slotCore (guideExit s) (slotNumber k) = slotCore s (slotNumber k) := by
  have run : slotCore (abandonRun s) (slotNumber k) = slotCore s (slotNumber k) :=
    slotCore_of_wai ((same_abandonRun (p := .wai) (by decide) (by decide)).2 rfl)
  unfold guideExit setGuideMode
  simp only
  split <;> simp [h, run]

@[simp] theorem slotCore_openComposition : slotCore (openComposition s) n = slotCore s n :=
  slotCore_of_wai ((same_openComposition (p := .wai) (by decide) (by decide)).2 rfl)

@[simp] theorem slotCore_moveView {v : ViewState} {m : Bool} {c : ViewCause} (h : k ∉ viewNotices) :
    slotCore (moveView v m c s) (slotNumber k) = slotCore s (slotNumber k) := by
  have e := not_mem_viewNotices h
  unfold moveView enterView raiseView
  cases v <;> simp only <;> split <;> split <;> simp [e]

@[simp] theorem slotCore_viewReverseOn (h : k ∉ viewNotices) :
    slotCore (viewReverseOn s) (slotNumber k) = slotCore s (slotNumber k) := by
  have e := not_mem_viewNotices h
  unfold viewReverseOn takeOver raiseView
  split
  · simp [h]
  · simp [h]
  · split <;> simp [e]

@[simp] theorem slotCore_viewReverseOff (h : k ∉ viewNotices) :
    slotCore (viewReverseOff s) (slotNumber k) = slotCore s (slotNumber k) := by
  unfold viewReverseOff leaveReverse; repeat' split
  all_goals simp [h]

@[simp] theorem slotCore_clearFrozen (h : k ≠ .cameraFrozen) :
    slotCore (clearFrozen s) (slotNumber k) = slotCore s (slotNumber k) := by
  unfold clearFrozen; split <;> simp [h]

@[simp] theorem slotCore_changeStream {x : CamStream} {c : Nat} (h : k ∉ viewNotices) (l : k ≠ .cameraLockChange)
    (f : k ≠ .cameraFrozen) : slotCore (changeStream x c s) (slotNumber k) = slotCore s (slotNumber k) := by
  unfold changeStream viewCameraGone; simp only; split
  · split <;> simp [h, l, f]
  · simp [l]

@[simp] theorem slotCore_camReverseOn (h : k ∉ viewNotices) (l : k ≠ .cameraLockChange) (f : k ≠ .cameraFrozen)
    (e : k ≠ .cameraTestEnd) : slotCore (camReverseOn s) (slotNumber k) = slotCore s (slotNumber k) := by
  have dropped : ∀ v : State, slotCore (dropFrame (stopLine v)) (slotNumber k) = slotCore v (slotNumber k) := fun v =>
    slotCore_of_wai ((same_dropFrame (p := .wai) (s := v) (by decide)).2 ((same_stopLine (by decide)).2 rfl))
  unfold camReverseOn leaveTest switchSource
  simp only
  split
  · split <;> split <;> simp [h, l, f, e, dropped]
  · rfl

/-! ### A change of REVERSE -/

/-- R13: what a change of REVERSE is handed to raises no REVERSE_CHANGE. -/
@[simp] theorem slotCore_handReverse :
    slotCore (handReverse s) (slotNumber .reverseChange) = slotCore s (slotNumber .reverseChange) := by
  unfold handReverse chimeReverseOn
  split
  · split <;> simp [viewNotices]
  · simp [viewNotices]

/-- R13: where REVERSE keeps its value, nothing is handed on. -/
theorem evalReverse_of_unchanged (h : (lineSource s.vsr || gearSource s.vsr) = s.vsr.reverse) : evalReverse s = s := by
  simp [evalReverse, h]

/-- R13: detail word 1 of REVERSE_CHANGE. -/
theorem sourceWord_eq (v : Vsr) : sourceWord v = BitVec.ofNat 32 ((if v.debRev then 1 else 0)
    + (if v.motionFresh.st = .valid ∧ v.motion.gear = .r then 2 else 0)) := by
  simp [sourceWord, lineSource, gearSource, bit]

end Slots

/-! ## The timers and the supply -/

section Timers
variable {s : State} {due : Nat}

theorem cabin_settle (s : State) : cabin (settle s) = cabin s := by simp [cabin, now]

theorem exec_holdTimer (h : s.vsr.hold = some due) : exec .holdTimer s = .next (settle (holdExpiry (reach due s))) := by
  simp [exec, execHoldTimer, h, finish]

theorem exec_disagreementTimer (h : s.vsr.disTimer = some due) :
    exec .disagreementTimer s = .next (settle (disagreementExpiry (reach due s))) := by
  simp [exec, execDisagreementTimer, h, finish]

theorem exec_freshnessDeadline {k : VslKind} (h : (freshOf s.vsr k).deadline = some due) :
    exec (.freshnessDeadline k) s = .next (settle (freshDeadline k (reach due s))) := by
  simp [exec, execFreshnessDeadline, h, finish]

@[simp] theorem holdExpiry_clockNs (s : State) : (holdExpiry s).clockNs = s.clockNs :=
  (same_holdExpiry (p := .clock) (by decide)).2 rfl
@[simp] theorem disagreementExpiry_clockNs (s : State) : (disagreementExpiry s).clockNs = s.clockNs :=
  (same_disagreementExpiry (p := .clock) (by decide) (by decide)).2 rfl
@[simp] theorem freshDeadline_clockNs (k : VslKind) (s : State) : (freshDeadline k s).clockNs = s.clockNs :=
  (same_freshDeadline (p := .clock) (by decide)).2 rfl

/-- Settles O8, row by row. -/
theorem reverseLineIsDebounced : Obligations.ReverseLineIsDebounced := by
  refine ⟨fun level s => ⟨_, rfl, ?_⟩, fun s due h => ⟨_, exec_holdTimer h, ?_⟩, fun rev s => ⟨_, rfl, rfl, rfl, rfl⟩⟩
  · rw [settle_vsr, revEdge_vsr]
    exact ⟨rfl, rfl, rfl⟩
  · rw [settle_vsr, settle_clockNs, holdExpiry_vsr, holdExpiry_clockNs, reach_clockNs]
    exact ⟨Nat.max_eq_right, rfl, rfl, rfl⟩

/-- Settles O13: a kind that is STALE gives REVERSE, PARKED and the episode nothing. -/
theorem freshnessDeadlineMakesStale : Obligations.FreshnessDeadlineMakesStale := by
  refine ⟨fun s due h => ⟨_, exec_freshnessDeadline (k := .motion) h, ?_⟩,
    fun s due h => ⟨_, exec_freshnessDeadline (k := .parkAssist) h, ?_⟩⟩
  · rw [settle_vsr, settle_clockNs, freshDeadline_motion_vsr, freshDeadline_clockNs, reach_clockNs]
    exact ⟨rfl, rfl, rfl, rfl, rfl, rfl, rfl, Bool.or_false _, rfl, rfl⟩
  · rw [settle_vsr, settle_clockNs, freshDeadline_parkAssist_vsr, freshDeadline_clockNs, reach_clockNs]
    exact ⟨rfl, rfl, rfl, rfl, rfl, rfl, rfl⟩

end Timers

section Supply
variable {s : State}

/-- R17: what a change of the supply state is handed to leaves the clock, the supply record and the notices. -/
theorem handSupply_keeps (s : State) :
    ((handLow s).clockNs = s.clockNs ∧ (handLow s).smn = s.smn ∧ (handLow s).wai = s.wai) ∧
    ((handNormal s).clockNs = s.clockNs ∧ (handNormal s).smn = s.smn ∧ (handNormal s).wai = s.wai) := by
  have low : ∀ p : Part, p ∉ [.cmp, .fen, .flm, .mix] → p.same s (handLow s) := fun p h => by
    simp only [List.mem_cons, List.not_mem_nil, or_false, not_or] at h
    simp [h]
  have normal : ∀ p : Part, p ∉ [.fen, .flm, .sto] → p.same s (handNormal s) := fun p h => by
    simp only [List.mem_cons, List.not_mem_nil, or_false, not_or] at h
    simp [h]
  exact ⟨⟨low .clock (by decide), low .smn (by decide), low .wai (by decide)⟩,
    normal .clock (by decide), normal .smn (by decide), normal .wai (by decide)⟩

/-- R17: the supply record after a change of the supply state at a time. -/
def changedSmn (low : Bool) (t : Nat) (m : Smn) : Smn := { m with low := low, lowRun := 0, highRun := 0, entry := t }

/-- R17: a change of the supply state is one SUPPLY_CHANGE, which tells the time spent in the other state. -/
theorem changeSupply_spec (low : Bool) (s : State) :
    (changeSupply low s).clockNs = s.clockNs ∧ (changeSupply low s).smn = changedSmn low (now s) s.smn ∧
    slotCore (changeSupply low s) (slotNumber .supplyChange)
      = slotCore (raise .supplyChange (if low then 1 else 0) (msSince s.smn.entry s) (s.setSmn (changedSmn low (now s) s.smn)))
          (slotNumber .supplyChange) := by
  have handed : changeSupply low s = (if low then handLow else handNormal)
      (raise .supplyChange (if low then 1 else 0) (msSince s.smn.entry s) (s.setSmn (changedSmn low (now s) s.smn))) := by
    cases low <;> rfl
  generalize hu : raise .supplyChange _ _ (s.setSmn _) = u at *
  have clock : u.clockNs = s.clockNs := by rw [← hu]; exact raise_clockNs _ _ _ _
  have smn : u.smn = changedSmn low (now s) s.smn := by rw [← hu]; exact (same_raise (p := .smn) (by decide)).2 rfl
  obtain ⟨⟨lc, ls, lw⟩, nc, ns, nw⟩ := handSupply_keeps u
  rw [handed, ← clock, ← smn]
  cases low
  · exact ⟨nc, ns, slotCore_of_wai nw⟩
  · exact ⟨lc, ls, slotCore_of_wai lw⟩

/-- R16: the run counts that a sample of the two sense lines leaves. -/
theorem supplyRuns_eq (lo hi : Bool) (m : Smn) :
    supplyRuns (supplyLevel lo hi) m = { m with
      lowRun := if !lo && !hi then min (m.lowRun + 1) 4 else 0
      highRun := if lo && hi then min (m.highRun + 1) 4 else 0 } := by
  cases lo <;> cases hi <;> rfl

/-- R16, Table 1-7: whether a sample changes the supply state, once its runs are counted. -/
def runComplete (m : Smn) : Prop := if m.low then m.highRun = 4 else m.lowRun = 4

/-- R16, Table 1-7: a fourth sample in a row changes the supply state, and any other one only its runs. -/
theorem takeSample_eq (lo hi : Bool) (s : State) :
    (runComplete (supplyRuns (supplyLevel lo hi) s.smn) →
      takeSample lo hi s = changeSupply (!s.smn.low) (s.setSmn (supplyRuns (supplyLevel lo hi) s.smn))) ∧
    (¬ runComplete (supplyRuns (supplyLevel lo hi) s.smn) →
      takeSample lo hi s = s.setSmn (supplyRuns (supplyLevel lo hi) s.smn)) := by
  obtain ⟨low, lowRun, highRun⟩ : (supplyRuns (supplyLevel lo hi) s.smn).low = s.smn.low ∧
      (supplyRuns (supplyLevel lo hi) s.smn).lowRun ≤ 4 ∧ (supplyRuns (supplyLevel lo hi) s.smn).highRun ≤ 4 := by
    rw [supplyRuns_eq]
    exact ⟨rfl, by simp only; split <;> omega, by simp only; split <;> omega⟩
  unfold takeSample runComplete
  generalize supplyRuns (supplyLevel lo hi) s.smn = m at *
  rw [← low]
  cases h : m.low
  · by_cases k : m.lowRun = 4
    · simp [h, k]
    · simp [h, k]; omega
  · by_cases k : m.highRun = 4
    · simp [h, k]
    · simp [h, k]; omega

/-- Settles O7: the run counts of a sample, and what the fourth one in a row brings. -/
theorem supplySamplesMoveTheSupplyState : Obligations.SupplySamplesMoveTheSupplyState := by
  refine ⟨⟨rfl, rfl, rfl, rfl⟩, fun lo hi s => ⟨_, rfl, ?_⟩⟩
  generalize hu : (reach s.smn.nextSample s).setSmn
    { (reach s.smn.nextSample s).smn with nextSample := (reach s.smn.nextSample s).smn.nextSample + 2000 } = u
  have clock : u.clockNs = max s.clockNs (s.smn.nextSample * 1000) := by rw [← hu]; rfl
  have slots : slotCore u (slotNumber .supplyChange) = slotCore s (slotNumber .supplyChange) := by rw [← hu]; rfl
  have low : u.smn.low = s.smn.low := by rw [← hu]; rfl
  have runs : supplyRuns (supplyLevel lo hi) u.smn = { s.smn with
      lowRun := if !lo && !hi then min (s.smn.lowRun + 1) 4 else 0
      highRun := if lo && hi then min (s.smn.highRun + 1) 4 else 0
      nextSample := s.smn.nextSample + 2000 } := by rw [supplyRuns_eq, ← hu]; rfl
  obtain ⟨change, keep⟩ := takeSample_eq lo hi u
  rw [runs] at change keep
  by_cases h : runComplete (supplyRuns (supplyLevel lo hi) u.smn) <;> rw [runs] at h
  · rw [change h]
    generalize hv : u.setSmn _ = v at *
    have entered : v.smn.entry = s.smn.entry := by rw [← hv]; rfl
    obtain ⟨vc, vs, vn⟩ := changeSupply_spec (!u.smn.low) v
    have time : now (settle (changeSupply (!u.smn.low) v)) = now v := by simp [now, vc]
    rw [time, settle_clockNs, settle_smn, vc, vs]
    refine ⟨fun l => ?_, ?_, Eq.mpr (if_pos h) ⟨?_, rfl, rfl, rfl, ?_⟩⟩
    · rw [← hv]; exact clock.trans (Nat.max_eq_right l)
    · rw [← hv]; rfl
    · rw [low]; rfl
    · have raised := noticeRaised_of_raise (s := s) (before := by rw [← hv]; exact slots)
        (after := (slotCore_settle (by decide)).trans vn) (by rw [cabin_settle]; simp [cabin, now, vc])
      cases e : s.smn.low <;> simpa [e, low, msSince, entered] using raised
  · rw [keep h, settle_clockNs, settle_smn]
    exact ⟨fun l => clock.trans (Nat.max_eq_right l), rfl, Eq.mpr (if_neg h) ⟨rfl, rfl, rfl, rfl,
      slotKept_of_core ((slotCore_settle (by decide)).trans slots)⟩⟩

end Supply

/-! ## Frame errors and the line at rest -/

section Errors
variable {s : State} {bits : List Bool} {r : Rx}

/-- R1 to R7: a line that brings one event. -/
theorem takeBits_one {e : RxEvent} (h : rxBits bits s.vsr.rx = (r, [e])) :
    takeBits bits s = takeEvent e (s.setVsr { s.vsr with rx := r }) := by
  simp [takeBits, h]

/-- R7: a line that shows a frame error counts it, and raises one notice. -/
theorem takeBits_error {e : VslError} {hdr : Option Byte} (h : rxBits bits s.vsr.rx = (r, [.error e hdr])) :
    ∃ t, exec (.frameError bits) s = .next t ∧ t.vsr = { s.vsr with rx := r, errors := countError e s.vsr.errors } ∧
      noticeRaised .vslFrameError (BitVec.ofNat 32 (vslErrorCode e)) (headerWord hdr) s t := by
  refine ⟨_, rfl, ?_, ?_⟩
  · rw [takeBits_one h, settle_vsr]; simp [takeEvent]
  · rw [takeBits_one h]
    refine noticeRaised_of_raise (u := s.setVsr { s.vsr with rx := r, errors := countError e s.vsr.errors }) rfl
      (slotCore_settle (by decide)) ?_
    rw [cabin_settle]; simp [takeEvent, cabin, now]

/-- R2: in SKIP the ones up to the line at rest bring no event. -/
theorem rxBits_skip_rest {ins : Nat} (h : ins ≤ 5) : rxBits (List.replicate (6 - ins) true) (.skip ins) = (.hunt 6, []) := by
  interval_cases ins <;> rfl

/-- Settles O10: the bit that shows each error, and the ones that end SKIP. -/
theorem frameErrorsAndRestAreTaken : Obligations.FrameErrorsAndRestAreTaken := by
  refine ⟨fun s => ⟨fun run h l => ?_, fun h => ?_, fun h => ?_, fun got crc h => ?_, fun hdr need got crc h => ?_,
    fun hdr need got crc ins b h l n c => ?_, fun got crc ins b h l n k1 k2 => ?_⟩, fun ins s h l => ⟨_, rfl, ?_, ?_, ?_⟩⟩
  · exact takeBits_error (e := .badStart) (hdr := none) (by rw [h]; simp [rxBits, rxBit, show run + 1 < 8 by omega])
  · exact takeBits_error (e := .badStart) (hdr := none) (by rw [h]; rfl)
  · exact takeBits_error (e := .badStart) (hdr := none) (by rw [h]; rfl)
  · exact takeBits_error (e := .shortFrame) (hdr := none) (by rw [h]; rfl)
  · exact takeBits_error (e := .shortFrame) (hdr := some hdr) (by rw [h]; rfl)
  · have d : (got ++ [b]).drop need = got.drop need ++ [b] := List.drop_append_of_le_length (by omega)
    exact takeBits_error (e := .badCheck) (hdr := some hdr) (by
      rw [h]; simp [rxBits, rxBit, payloadBit, l, n, d, c])
  · have k : payloadBits (bitsByte (got ++ [b])) = none := by simp [payloadBits, k1, k2]
    exact takeBits_error (e := .unknownKind) (hdr := some (bitsByte (got ++ [b]))) (by
      rw [h]; simp [rxBits, rxBit, headerBit, l, n, k, countOnes])
  all_goals
    have e : takeBits (List.replicate (6 - ins) true) s = s.setVsr { s.vsr with rx := .hunt 6 } := by
      simp [takeBits, h, rxBits_skip_rest l]
    rw [e]
  · rw [settle_vsr]; rfl
  · exact slotKept_of_core (slotCore_settle (by decide))
  · intro p k
    simp only [List.mem_cons, List.not_mem_nil, or_false, not_or] at k
    simp [k]

end Errors

/-! ## Power-on reset -/

/-- Settles O3: the reset values meet each condition. -/
theorem invariantsHoldAtReset : Obligations.InvariantsHoldAtReset := by
  unfold Obligations.InvariantsHoldAtReset
  decide

/-- Settles O6: what POWER_ON_RESET does not keep, it gives its reset value. -/
theorem powerOnResetValues : Obligations.PowerOnResetValues := by
  intro rev s
  have pipes : ∀ p, (resetCmp.pipes.get p).st = .off ∧ (resetCmp.pipes.get p).timing = none ∧
      (resetCmp.pipes.get p).active = ⟨0xFF000000, []⟩ ∧ (resetCmp.pipes.get p).pendingScene = none := by
    intro p; cases p <;> exact ⟨rfl, rfl, rfl, rfl⟩
  have streams : ∀ st, (resetFlm.streams.get st).st = .closed := by intro st; cases st <;> rfl
  have slots : ∀ x ∈ resetWai.slots, x.count = 0 ∧ x.enable = true ∧ x.mask = true := by decide
  have blocks : resetChe.free.length = 256 := by simp [resetChe]
  refine ⟨_, rfl, rfl, ?_⟩
  -- VSR, SMN, CIN, VWC with GLG, and CMP with FLM
  refine ⟨rfl, rfl, rfl, rfl, rfl, rfl, rfl, rfl, rfl, rfl, rfl, rfl, ?_⟩
  refine ⟨rfl, rfl, rfl, rfl, rfl, rfl, rfl, rfl, rfl, rfl, rfl, rfl, rfl, rfl, rfl, pipes, streams, ?_⟩
  -- MIX, CHE, FEN, WAI, STO, and the two memories
  refine ⟨rfl, rfl, rfl, rfl, rfl, blocks, rfl, rfl, rfl, rfl, rfl, rfl, rfl, rfl, slots, rfl, rfl, rfl, rfl, rfl, rfl⟩

/-! ## The line of a frame (R1 to R4, Table 10-12)

What the receiver makes of the bits that a gateway sends. Zero insertion is undone bit by bit: a run of content bits with their
inserted zeros brings the receiver where the bare bits would, with the insertion count that the sender has. -/

section Line
variable {ins need : Nat} {got xs ys : List Bool} {crc hdr : Byte} {r : Rx}

theorem rxBits_append (xs ys : List Bool) (r : Rx) :
    rxBits (xs ++ ys) r = ((rxBits ys (rxBits xs r).1).1, (rxBits xs r).2 ++ (rxBits ys (rxBits xs r).1).2) := by
  induction xs generalizing r with
  | nil => rfl
  | cons b xs ih => simp [rxBits, ih]

/-- A string that brings no event leads on to the next. -/
theorem rxBits_quiet {q : Rx} (h : rxBits xs r = (q, [])) : rxBits (xs ++ ys) r = rxBits ys q := by
  rw [rxBits_append, h]; rfl

/-- R2: the sender's insertion count after a content bit, a fifth one being followed by its zero. -/
def sentOnes (ins : Nat) (b : Bool) : Nat := if countOnes ins b = 5 then 0 else countOnes ins b

theorem sentOnes_lt (h : ins < 5) (b : Bool) : sentOnes ins b < 5 := by
  unfold sentOnes countOnes
  cases b
  · simp
  · simp only [if_true]; split <;> omega

theorem foldl_sentOnes_lt (h : ins < 5) (bs : List Bool) : bs.foldl sentOnes ins < 5 := by
  induction bs generalizing ins with
  | nil => exact h
  | cons b bs ih => exact ih (sentOnes_lt h b)

/-- R2: the content up to its last bits is sent with every zero it needs. -/
theorem insertZerosOpen_append (xs : List Bool) (h : ys ≠ []) :
    insertZerosOpen ins (xs ++ ys) = insertZeros ins xs ++ insertZerosOpen (xs.foldl sentOnes ins) ys := by
  induction xs generalizing ins with
  | nil => rfl
  | cons b xs ih =>
    obtain ⟨c, zs, e⟩ : ∃ c zs, xs ++ ys = c :: zs := List.exists_cons_of_ne_nil (by simp [h])
    rw [List.cons_append, e, insertZerosOpen, ← e, insertZeros, List.foldl_cons, sentOnes]
    · split <;> simp [ih]
    · simp

theorem insertZeros_append (xs ys : List Bool) :
    insertZeros ins (xs ++ ys) = insertZeros ins xs ++ insertZeros (xs.foldl sentOnes ins) ys := by
  induction xs generalizing ins with
  | nil => rfl
  | cons b xs ih => simp only [List.cons_append, insertZeros, List.foldl_cons, sentOnes]; split <;> simp [ih]

/-- R1: eight ones or more, and the start pattern. -/
theorem rxBits_preamble {run ones : Nat} (h : 8 ≤ ones) :
    rxBits (List.replicate ones true ++ [false, true, false]) (.hunt run) = (.header [] 0xFF 0, []) := by
  have ones_seen : ∀ n m, rxBits (List.replicate (n + 1) true) (.hunt m) = (.hunt (min (m + n + 1) 8), []) := by
    intro n
    induction n with
    | zero => intro m; rfl
    | succ n ih =>
      intro m
      rw [List.replicate_succ, rxBits, rxBit, if_pos rfl, ih]
      simp; omega
  obtain ⟨n, rfl⟩ : ∃ n, ones = n + 1 := ⟨ones - 1, by omega⟩
  rw [rxBits_quiet (ones_seen n run), Nat.min_eq_right (by omega)]
  rfl

/-- A bit that keeps the receiver inside the frame, with the zero inserted after it. -/
theorem rxBits_insertZeros_one {f : Nat → Rx} {b : Bool} (bit : rxBit b r = (f (countOnes ins b), none))
    (zero : rxBit false (f 5) = (f 0, none)) : rxBits (insertZeros ins [b]) r = (f (sentOnes ins b), []) := by
  unfold insertZeros sentOnes
  split
  · rename_i e; simp [rxBits, insertZeros, bit, e, zero]
  · simp [rxBits, insertZeros, bit]

/-- R2, R3: the first seven bits of the header. -/
theorem rxBits_header (bs : List Bool) (h : ins < 5) (l : got.length + bs.length < 8) :
    rxBits (insertZeros ins bs) (.header got crc ins) = (.header (got ++ bs) (crcBits crc bs) (bs.foldl sentOnes ins), []) := by
  induction bs generalizing got crc ins with
  | nil => simp [insertZeros, rxBits, crcBits]
  | cons b bs ih =>
    simp only [List.length_cons] at l
    have one := rxBits_insertZeros_one (ins := ins) (b := b) (r := .header got crc ins)
      (f := fun n => .header (got ++ [b]) (crcBit crc b) n)
      (by simp [rxBit, h, headerBit]; omega) rfl
    rw [← List.singleton_append, insertZeros_append, rxBits_quiet one,
      List.foldl_cons, List.foldl_nil, ih (sentOnes_lt h b) (by simp; omega)]
    simp [crcBits]

/-- R3: the last header bit, of a kind with a payload. -/
theorem rxBits_header_last {b : Bool} (h : ins < 5) (l : got.length = 7) (k : payloadBits (bitsByte (got ++ [b])) = some need) :
    rxBits (insertZeros ins [b]) (.header got crc ins)
      = (.payload (bitsByte (got ++ [b])) need [] (crcBit crc b) (sentOnes ins b), []) :=
  rxBits_insertZeros_one (f := fun n => .payload (bitsByte (got ++ [b])) need [] (crcBit crc b) n)
    (by simp [rxBit, h, headerBit, l, k]) rfl

/-- R4: payload bits, which go through the check register, and check bits but the last, which do not. -/
theorem rxBits_payload (bs : List Bool) (h : ins < 5) (l : got.length + bs.length < need + 8) :
    rxBits (insertZeros ins bs) (.payload hdr need got crc ins)
      = (.payload hdr need (got ++ bs) (crcBits crc (bs.take (need - got.length))) (bs.foldl sentOnes ins), []) := by
  induction bs generalizing got crc ins with
  | nil => simp [insertZeros, rxBits, crcBits]
  | cons b bs ih =>
    simp only [List.length_cons] at l
    have one := rxBits_insertZeros_one (ins := ins) (b := b) (r := .payload hdr need got crc ins)
      (f := fun n => .payload hdr need (got ++ [b]) (if got.length < need then crcBit crc b else crc) n)
      (by simp [rxBit, h, payloadBit]; omega) rfl
    rw [← List.singleton_append, insertZeros_append, rxBits_quiet one,
      List.foldl_cons, List.foldl_nil, ih (sentOnes_lt h b) (by simp; omega)]
    by_cases k : got.length < need
    · obtain ⟨m, e⟩ : ∃ m, need - got.length = m + 1 := ⟨need - got.length - 1, by omega⟩
      simp [crcBits, k, e, show need - (got.length + 1) = m by omega]
    · simp [crcBits, k, show need - got.length = 0 by omega, show need - (got.length + 1) = 0 by omega]

/-- R4: the last check bit of a frame whose check byte is the register's. -/
theorem rxBits_payload_last {b : Bool} (h : ins < 5) (l : got.length = need + 7) (c : bitsByte (got.drop need ++ [b]) = crc) :
    rxBits [b] (.payload hdr need got crc ins) = (.hunt 0, [.good hdr (got.take need)]) := by
  have d : (got ++ [b]).drop need = got.drop need ++ [b] := List.drop_append_of_le_length (by omega)
  have t : (got ++ [b]).take need = got.take need := List.take_append_of_le_length (by omega)
  simp [rxBits, rxBit, h, payloadBit, l, d, t, c]

/-! ### Bytes and fields -/

theorem bitsNat_append (xs ys : List Bool) : bitsNat (xs ++ ys) = bitsNat xs * 2 ^ ys.length + bitsNat ys := by
  induction ys using List.reverseRecOn with
  | nil => simp [bitsNat]
  | append_singleton ys b ih =>
    have snoc : ∀ zs : List Bool, bitsNat (zs ++ [b]) = 2 * bitsNat zs + if b then 1 else 0 := fun zs => by simp [bitsNat]
    rw [← List.append_assoc, snoc, snoc, ih, List.length_append, List.length_singleton]
    ring

@[simp] theorem bitsNat_byteBits (b : Byte) : bitsNat (byteBits b) = b.toNat := by
  have digit : ∀ i, (if b.getLsbD i then 1 else 0) = b.toNat / 2 ^ i % 2 := fun i => by
    rw [BitVec.getLsbD, Nat.testBit_eq_decide_div_mod_eq]
    by_cases h : b.toNat / 2 ^ i % 2 = 1 <;> simp [h]; omega
  have two : ∀ i, 2 * (b.toNat / 2 ^ (i + 1)) + b.toNat / 2 ^ i % 2 = b.toNat / 2 ^ i := fun i => by
    rw [pow_succ, ← Nat.div_div_eq_div_mul]; omega
  have top : b.toNat / 2 ^ 8 = 0 := Nat.div_eq_of_lt b.isLt
  have t7 := two 7
  rw [top] at t7
  simp only [bitsNat, byteBits, List.foldl_cons, List.foldl_nil, digit]
  rw [t7, two 6, two 5, two 4, two 3, two 2, two 1, two 0, pow_zero, Nat.div_one]

@[simp] theorem bitsByte_byteBits (b : Byte) : bitsByte (byteBits b) = b := by simp [bitsByte]

@[simp] theorem length_byteBits (b : Byte) : (byteBits b).length = 8 := rfl

theorem byteBits_eq_append (b : Byte) : ∃ (xs : List Bool) (x : Bool), byteBits b = xs ++ [x] ∧ xs.length = 7 :=
  ⟨[b.getLsbD 7, b.getLsbD 6, b.getLsbD 5, b.getLsbD 4, b.getLsbD 3, b.getLsbD 2, b.getLsbD 1], b.getLsbD 0, rfl, rfl⟩

/-- A frame as the gateway sends it, of a kind whose payload has its length, is received whole (R1 to R4). -/
theorem rxBits_vslLine {run ones : Nat} {payload : List Byte} (h : 8 ≤ ones)
    (k : payloadBits hdr = some (payload.flatMap byteBits).length) :
    rxBits (vslLine ones hdr payload) (.hunt run) = (.hunt 0, [.good hdr (payload.flatMap byteBits)]) := by
  obtain ⟨hs, h0, eh, lh⟩ := byteBits_eq_append hdr
  obtain ⟨cs, c0, ec, lc⟩ := byteBits_eq_append (crcBits 0xFF (byteBits hdr ++ payload.flatMap byteBits))
  have content : frameContent hdr payload = hs ++ ([h0] ++ ((payload.flatMap byteBits ++ cs) ++ [c0])) := by
    simp only [frameContent]
    rw [ec, eh]
    simp only [List.append_assoc]
  generalize payload.flatMap byteBits = body at *
  have hdrByte : bitsByte (hs ++ [h0]) = hdr := by rw [← eh, bitsByte_byteBits]
  have register : crcBits (crcBit (crcBits 0xFF hs) h0) ((body ++ cs).take body.length) = bitsByte (cs ++ [c0]) := by
    rw [← ec, bitsByte_byteBits, eh]
    simp [crcBits]
  have inHeader := rxBits_header (got := []) (crc := 0xFF) (ins := 0) hs (by omega) (by simp [lh])
  have hs5 := foldl_sentOnes_lt (ins := 0) (by omega) hs
  have headerEnd := rxBits_header_last (crc := crcBits 0xFF hs) (b := h0) hs5 lh (by rw [hdrByte, k])
  have h05 := sentOnes_lt hs5 h0
  have inBody := rxBits_payload (hdr := hdr) (need := body.length) (got := []) (crc := crcBit (crcBits 0xFF hs) h0)
    (body ++ cs) h05 (by simp [lc])
  have last := rxBits_payload_last (hdr := hdr) (need := body.length) (got := body ++ cs) (b := c0)
    (foldl_sentOnes_lt h05 (body ++ cs)) (by simp [lc]) (by rw [List.drop_left])
  unfold vslLine
  rw [content, rxBits_quiet (rxBits_preamble h), insertZerosOpen_append _ (by simp), rxBits_quiet inHeader,
    insertZerosOpen_append _ (by simp), List.nil_append, rxBits_quiet headerEnd, insertZerosOpen_append _ (by simp),
    hdrByte, List.foldl_cons, List.foldl_nil, rxBits_quiet inBody]
  rw [List.nil_append, List.length_nil, Nat.sub_zero, register, insertZerosOpen, last, List.take_left]

end Line

/-! ## Good frames (R3 to R6, R8) -/

section GoodFrames
variable {s : State} {run ones : Nat}

/-- R8, Table 1-3: how a good frame moves the freshness of its kind. -/
def arrivalMoves (seq : BitVec 4) (f g : Freshness) : Prop :=
  match f.st with
  | .valid => g.st = .valid ∧ g.breaks = f.breaks + (if seq = f.lastSeq + 1 then 0 else 1)
  | .acquiring => g.breaks = f.breaks ∧
      (if seq = f.lastSeq + 1 then g.run = min (f.run + 1) 3 ∧ g.st = (if f.run + 1 < 3 then .acquiring else .valid)
      else g.run = 1 ∧ g.st = .acquiring)
  | _ => g.breaks = f.breaks ∧ g.st = .acquiring ∧ g.run = 1

theorem freshArrival_moves (seq : BitVec 4) (d : Nat) (f : Freshness) : arrivalMoves seq f (freshArrival seq d f) := by
  unfold arrivalMoves freshArrival
  generalize f.lastSeq + 1 = next
  cases f.st
  case none | stale => simp
  case acquiring =>
    by_cases h : seq = next
    · by_cases k : f.run + 1 < 3
      · simp [h, k]; omega
      · simp [h, k]; omega
    · simp [h]
  case valid => by_cases h : seq = next <;> simp [h]

@[simp] theorem freshArrival_lastSeq (seq : BitVec 4) (d : Nat) (f : Freshness) : (freshArrival seq d f).lastSeq = seq := by
  unfold freshArrival; simp only; repeat' split
  all_goals rfl

@[simp] theorem freshArrival_deadline (seq : BitVec 4) (d : Nat) (f : Freshness) : (freshArrival seq d f).deadline = some d := by
  unfold freshArrival; simp only; repeat' split
  all_goals rfl

/-! ### The header byte -/

theorem vslHeader_toNat (k : VslKind) (seq : BitVec 4) : (vslHeader k seq).toNat = 16 * kindCode k + seq.toNat := by
  have small : kindCode k < 3 := by cases k <;> decide
  have := seq.isLt
  rw [vslHeader, BitVec.toNat_ofNat, Nat.mod_eq_of_lt (by omega)]

theorem vslHeader_kind (k : VslKind) (seq : BitVec 4) : (vslHeader k seq).toNat / 16 = kindCode k := by
  have := seq.isLt
  rw [vslHeader_toNat]; omega

@[simp] theorem headerSeq_vslHeader (k : VslKind) (seq : BitVec 4) : headerSeq (vslHeader k seq) = seq := by
  have := seq.isLt
  apply BitVec.eq_of_toNat_eq
  rw [headerSeq, BitVec.toNat_setWidth, vslHeader_toNat]; omega

/-- A line of either kind, as the gateway sends it, brings its good frame. -/
theorem takeBits_vslLine {k : VslKind} {seq : BitVec 4} {payload : List Byte} (hr : s.vsr.rx = .hunt run) (ho : 8 ≤ ones)
    (l : payloadBits (vslHeader k seq) = some (payload.flatMap byteBits).length) :
    takeBits (vslLine ones (vslHeader k seq) payload) s
      = takeEvent (.good (vslHeader k seq) (payload.flatMap byteBits)) (s.setVsr { s.vsr with rx := .hunt 0 }) :=
  takeBits_one (by rw [hr, rxBits_vslLine ho l])

/-! ### PARK_ASSIST -/

/-- R6: a PARK_ASSIST line, received. -/
theorem takeBits_parkLine {seq : BitVec 4} (a b c d : Byte) (hr : s.vsr.rx = .hunt run) (ho : 8 ≤ ones) :
    (takeBits (vslLine ones (vslHeader .parkAssist seq) [a, b, c, d]) s).vsr = { s.vsr with
      rx := .hunt 0
      park := ⟨a, b, c, d, seq, cabin s⟩
      parkFresh := freshArrival seq (now s + 250000) s.vsr.parkFresh } := by
  have kind : (vslHeader .parkAssist seq).toNat / 16 = 2 := vslHeader_kind .parkAssist seq
  have distances : ∀ i < 4, distanceAt ([a, b, c, d].flatMap byteBits) i = [a, b, c, d].getD i 0 := by
    intro i h
    interval_cases i <;> exact bitsByte_byteBits _
  rw [takeBits_vslLine hr ho (by simp [payloadBits, kind]), takeEvent]
  simp only [kind, goodPark_vsr, headerSeq_vslHeader, parkPart, distances, Nat.reduceLT, Nat.reduceEqDiff, if_false]
  rfl

/-- Settles O12: the line is received whole, and the record and the freshness take it. -/
theorem parkAssistFrameIsDecoded : Obligations.ParkAssistFrameIsDecoded := by
  intro s run ones seq a b c d hr ho
  refine ⟨_, rfl, ?_⟩
  rw [settle_vsr, takeBits_parkLine a b c d hr ho]
  exact ⟨rfl, rfl, rfl, rfl, rfl, freshArrival_lastSeq _ _ _, freshArrival_deadline _ _ _, freshArrival_moves _ _ _, rfl, rfl⟩

/-! ### MOTION -/

/-- A 16-bit field goes over the line with its high byte first. -/
theorem bitsNat_half (h : Half) : bitsNat (byteBits (h.extractLsb' 8 8) ++ byteBits (h.extractLsb' 0 8)) = h.toNat := by
  have := h.isLt
  simp only [bitsNat_append, bitsNat_byteBits, length_byteBits, BitVec.extractLsb'_toNat, Nat.shiftRight_eq_div_pow,
    Nat.reducePow]
  omega

theorem bitsNat_singleton (b : Bool) : (bitsNat [b] == 1) = b := by cases b <;> rfl

/-- R5: the bits of a MOTION payload. -/
def motionPayload (gear flags : Byte) (speed steer : Half) : List Byte :=
  [gear, speed.extractLsb' 8 8, speed.extractLsb' 0 8, steer.extractLsb' 8 8, steer.extractLsb' 0 8, flags]

/-- R5: the fields of a MOTION payload. -/
theorem motionFields_motionPayload (gear flags : Byte) (speed steer : Half) :
    motionFields ((motionPayload gear flags speed steer).flatMap byteBits) =
      { gear := gearOfCode gear.toNat
        speed := min speed.toNat 30000
        steering := saturate (-7800) 7800 steer.toInt
        speedValid := flags.getLsbD 7
        steeringValid := flags.getLsbD 6
        adjusted := bit (5 ≤ gear.toNat) 8 + bit (30000 < speed.toNat) 9
          + bit (steer.toInt < -7800 || 7800 < steer.toInt) 10 } := by
  generalize hp : (motionPayload gear flags speed steer).flatMap byteBits = bits
  have fgear : bitField bits 0 8 = gear.toNat := by rw [← hp]; exact bitsNat_byteBits gear
  have fspeed : bitField bits 8 16 = speed.toNat := by rw [← hp]; exact bitsNat_half speed
  have fsteer : bitField bits 24 16 = steer.toNat := by rw [← hp]; exact bitsNat_half steer
  have fvalid : (bitField bits 40 1 == 1) = flags.getLsbD 7 := by rw [← hp]; exact bitsNat_singleton _
  have fsvalid : (bitField bits 41 1 == 1) = flags.getLsbD 6 := by rw [← hp]; exact bitsNat_singleton _
  simp only [motionFields, fgear, fspeed, fsteer, fvalid, fsvalid, BitVec.ofNat_toNat, BitVec.setWidth_eq]

theorem gearOfCode_toNat (gear : Byte) : gearOfCode gear.toNat =
    if gear = 0 then .p else if gear = 1 then .r else if gear = 2 then .n else if gear = 3 then .d else .unknown := by
  simp [gearOfCode, BitVec.toNat_eq]

theorem saturate_eq (v : Int) : saturate (-7800) 7800 v = max (-7800) (min v 7800) := by
  unfold saturate; split
  · omega
  · split <;> omega

/-- R5: nothing is adjusted where the three fields lie in their ranges. -/
theorem adjusted_eq_zero (g v : Nat) (a : Int) :
    bit (5 ≤ g) 8 + bit (30000 < v) 9 + bit (a < -7800 || 7800 < a) 10 = 0 ↔ g < 5 ∧ v ≤ 30000 ∧ -7800 ≤ a ∧ a ≤ 7800 := by
  simp [bit, and_assoc]

/-- R5: the MOTION part of the record after a frame. -/
def motionTaken (gear flags : Byte) (speed steer : Half) (seq : BitVec 4) (t : Dword) : MotionPart where
  gear := if gear = 0 then .p else if gear = 1 then .r else if gear = 2 then .n else if gear = 3 then .d else .unknown
  speed := min speed.toNat 30000
  steering := max (-7800) (min steer.toInt 7800)
  speedValid := flags.getLsbD 7
  steeringValid := flags.getLsbD 6
  seq := seq
  arrival := t

/-- R5: a MOTION line, received. -/
theorem takeBits_motionLine {seq : BitVec 4} (gear flags : Byte) (speed steer : Half) (hr : s.vsr.rx = .hunt run) (ho : 8 ≤ ones) :
    (takeBits (motionLine ones seq gear flags speed steer) s).vsr = evaluatedVsr (now s) { s.vsr with
      rx := .hunt 0
      errors := if gear.toNat < 5 ∧ speed.toNat ≤ 30000 ∧ -7800 ≤ steer.toInt ∧ steer.toInt ≤ 7800 then s.vsr.errors
        else { s.vsr.errors with range := s.vsr.errors.range + 1 }
      motion := motionTaken gear flags speed steer seq (cabin s)
      motionFresh := freshArrival seq (now s + 100000) s.vsr.motionFresh } := by
  have kind : (vslHeader .motion seq).toNat / 16 = 1 := vslHeader_kind .motion seq
  have line : motionLine ones seq gear flags speed steer
    = vslLine ones (vslHeader .motion seq) (motionPayload gear flags speed steer) := rfl
  rw [line, takeBits_vslLine hr ho (by simp [payloadBits, kind, motionPayload]), takeEvent]
  simp only [kind, if_true, goodMotion_vsr, headerSeq_vslHeader, motionFields_motionPayload, adjusted_eq_zero, motionPart,
    gearOfCode_toNat, saturate_eq]
  rfl

/-- Settles O11: the line is received whole, the record takes its fields, and the freshness moves. -/
theorem motionFrameIsDecoded : Obligations.MotionFrameIsDecoded := by
  intro s run ones seq gear flags speed steer hr ho
  refine ⟨_, rfl, ?_⟩
  have taken := takeBits_motionLine (seq := seq) gear flags speed steer hr ho
  unfold motionLine at taken
  rw [settle_vsr, taken]
  exact ⟨rfl, rfl, rfl, rfl, rfl, freshArrival_lastSeq _ _ _, freshArrival_deadline _ _ _, freshArrival_moves _ _ _⟩

end GoodFrames

/-! ## REVERSE_CHANGE, episodes and REVERSE_DISAGREE (R13, R14) -/

section ReverseAndEpisodes
variable {s t u : State} {due : Nat}

/-- R13: a change of REVERSE at `u`, which has what the slot of `s` records, is one REVERSE_CHANGE, seen from `s` and at a `t` that keeps
what the evaluation left. -/
theorem noticeRaised_evalReverse
    (before : slotCore u (slotNumber .reverseChange) = slotCore s (slotNumber .reverseChange))
    (after : slotCore t (slotNumber .reverseChange) = slotCore (evalReverse u) (slotNumber .reverseChange))
    (time : cabin u = cabin t) (h : (evalReverse u).vsr.reverse ≠ u.vsr.reverse) :
    noticeRaised .reverseChange (if (evalReverse u).vsr.reverse then 1 else 0)
      (BitVec.ofNat 32 ((if u.vsr.debRev then 1 else 0)
        + (if u.vsr.motionFresh.st = .valid ∧ u.vsr.motion.gear = .r then 2 else 0))) s t := by
  simp only [evalReverse_vsr] at h ⊢
  rw [← sourceWord_eq]
  refine noticeRaised_of_raise (u := u.setVsr { u.vsr with reverse := lineSource u.vsr || gearSource u.vsr }) before
    (after.trans ?_) time
  unfold evalReverse
  simp only [h, if_false, slotCore_handReverse]
  rfl

/-- R14: the two sources disagree in one of the two forms. -/
theorem disagrees_iff (v : Vsr) : disagrees v ↔ (disagreement v).isSome = true := by
  unfold disagrees disagreement
  by_cases f : v.motionFresh.st = .valid <;> cases v.debRev <;> by_cases g : v.motion.gear = .r <;> simp [f, g]

/-- R14: an evaluation of disagreement begins, keeps or ends the episode. -/
theorem episodeTaken_of_vsr {v : Vsr} {n : Nat} (h : t.vsr = episodeVsr n v) (time : n = now t) (e : v.episode = s.vsr.episode)
    (d : v.disTimer = s.vsr.disTimer) : episodeTaken s t := by
  have same : disagrees t.vsr ↔ (disagreement v).isSome = true := by rw [h]; exact disagrees_iff v
  unfold episodeTaken
  rw [same, h, ← time, ← e, ← d]
  constructor
  · intro k; simp [episodeVsr, k]
  · intro k; simp [episodeVsr, k]

/-- R14: an episode that goes on, or none that begins, leaves the vehicle record. -/
theorem episodeVsr_of_iff {v : Vsr} {n : Nat} (h : (disagreement v).isSome = true ↔ v.episode = true) : episodeVsr n v = v := by
  have timer : (if v.episode then (if v.episode then v.disTimer else some (n + 500000))
      else (if v.episode then none else v.disTimer)) = v.disTimer := by cases v.episode <;> rfl
  unfold episodeVsr
  rw [Bool.eq_iff_iff.2 h, timer]

theorem now_settle (s : State) : now (settle s) = now s := by simp [now]

/-- R12 to R14: the end of the hold, after the debounced level has taken the raw one. -/
theorem holdTimer_acts (h : s.vsr.hold = some due) : ∃ t, exec .holdTimer s = .next t ∧
    t.vsr.reverse = (s.vsr.rawRev || (s.vsr.motionFresh.st == .valid && s.vsr.motion.gear == .r)) ∧
    (t.vsr.reverse = s.vsr.reverse → OnlyTouches [.clock, .vsr, .fen, .wai] s t ∧ slotKept .reverseChange s t) ∧
    t.vsr.debRev = s.vsr.rawRev ∧ t.vsr.motion = s.vsr.motion ∧ t.vsr.motionFresh = s.vsr.motionFresh ∧ episodeTaken s t ∧
    (t.vsr.reverse ≠ s.vsr.reverse →
      noticeRaised .reverseChange (if t.vsr.reverse then 1 else 0)
        (BitVec.ofNat 32 ((if s.vsr.rawRev then 1 else 0)
          + (if s.vsr.motionFresh.st = .valid ∧ s.vsr.motion.gear = .r then 2 else 0))) s t) := by
  generalize hu : (reach due s).setVsr { s.vsr with hold := none, debRev := s.vsr.rawRev } = u
  have expiry : holdExpiry (reach due s) = (evalReverse u).setVsr (episodeVsr (now (evalReverse u)) (evalReverse u).vsr) := by
    rw [← hu, ← evalDisagreement_eq]; rfl
  have vsr := holdExpiry_vsr (reach due s)
  have time : now (holdExpiry (reach due s)) = now (reach due s) := by simp [now]
  refine ⟨_, exec_holdTimer h, ?_⟩
  rw [settle_vsr, vsr]
  refine ⟨rfl, fun k => ?_, rfl, rfl, rfl, ?_, fun k => ?_⟩
  · have kept : evalReverse u = u := evalReverse_of_unchanged (by rw [← hu]; exact k)
    rw [expiry, kept, ← hu]
    refine ⟨fun p m => ?_, slotKept_of_core (slotCore_settle (by decide))⟩
    simp only [List.mem_cons, List.not_mem_nil, or_false, not_or] at m
    simp [m]
  · exact episodeTaken_of_vsr ((settle_vsr _).trans vsr) (by rw [now_settle, time]) rfl rfl
  · have raised := noticeRaised_evalReverse (s := s) (t := settle (holdExpiry (reach due s))) (u := u) (by rw [← hu]; rfl)
      (by rw [slotCore_settle (by decide), expiry]; rfl) (by rw [cabin_settle, ← hu]; simp [cabin, now])
      (by rw [evalReverse_vsr, ← hu]; exact k)
    rw [evalReverse_vsr, ← hu] at raised
    exact raised

/-- R9, R13, R14: MOTION becomes STALE. -/
theorem motionDeadline_acts (h : s.vsr.motionFresh.deadline = some due) :
    ∃ t, exec (.freshnessDeadline .motion) s = .next t ∧
    t.vsr.reverse = s.vsr.debRev ∧ ¬ disagrees t.vsr ∧ episodeTaken s t ∧
    (if t.vsr.reverse = s.vsr.reverse then slotKept .reverseChange s t
    else noticeRaised .reverseChange (if t.vsr.reverse then 1 else 0) (if s.vsr.debRev then 1 else 0) s t) := by
  generalize hu : evalParked (moveFresh .motion (freshExpiry s.vsr.motionFresh) (reach due s)) = u
  have uvsr : u.vsr = { s.vsr with
      motionFresh := freshExpiry s.vsr.motionFresh
      parked := parkedNow { s.vsr with motionFresh := freshExpiry s.vsr.motionFresh } } := by
    rw [← hu]; simp [setFresh]
  have expiry : freshDeadline .motion (reach due s)
      = (evalReverse u).setVsr (episodeVsr (now (evalReverse u)) (evalReverse u).vsr) := by
    rw [← hu, ← evalDisagreement_eq]; rfl
  have slots : slotCore u (slotNumber .reverseChange) = slotCore s (slotNumber .reverseChange) := by
    have parked : ∀ v : State, slotCore (evalParked v) (slotNumber .reverseChange) = slotCore v (slotNumber .reverseChange) :=
      fun v => slotCore_of_wai ((same_evalParked (p := .wai) (by decide) (by decide) (by decide)).2 rfl)
    rw [← hu, parked]
    unfold moveFresh; simp only; split <;> simp
  have vsr := freshDeadline_motion_vsr (reach due s)
  have time : now (freshDeadline .motion (reach due s)) = now (reach due s) := by simp [now]
  have utime : cabin u = cabin (reach due s) := by rw [← hu]; simp [cabin, now]
  refine ⟨_, exec_freshnessDeadline (k := .motion) h, ?_⟩
  have rev : (settle (freshDeadline .motion (reach due s))).vsr.reverse = s.vsr.debRev := by
    rw [settle_vsr, vsr]; exact Bool.or_false _
  have after : slotCore (settle (freshDeadline .motion (reach due s))) (slotNumber .reverseChange)
      = slotCore (evalReverse u) (slotNumber .reverseChange) := by rw [slotCore_settle (by decide), expiry]; rfl
  have evaluated : (evalReverse u).vsr.reverse = s.vsr.debRev := by
    rw [evalReverse_vsr, uvsr]; exact Bool.or_false _
  refine ⟨rev, ?_, ?_, ?_⟩
  · rw [settle_vsr, vsr]; simp [disagrees, evaluatedVsr, episodeVsr, freshExpiry]
  · exact episodeTaken_of_vsr ((settle_vsr _).trans vsr) (by rw [now_settle, time]) rfl rfl
  · rw [rev]
    split
    · rename_i k
      have unchanged : (evalReverse u).vsr.reverse = u.vsr.reverse := evaluated.trans (by rw [uvsr]; exact k)
      have kept : evalReverse u = u := evalReverse_of_unchanged (by rw [evalReverse_vsr] at unchanged; exact unchanged)
      exact slotKept_of_core (after.trans (by rw [kept, slots]))
    · rename_i k
      have raised := noticeRaised_evalReverse slots after
        (by rw [cabin_settle, utime, cabin, cabin, time]) (by rw [evaluated, uvsr]; exact k)
      rw [evaluated, uvsr] at raised
      cases e : s.vsr.debRev <;> simpa [e, freshExpiry] using raised

/-- R13, R14: a good MOTION frame. -/
theorem motionFrame_acts {run ones : Nat} {seq : BitVec 4} (gear flags : Byte) (speed steer : Half) (hr : s.vsr.rx = .hunt run)
    (ho : 8 ≤ ones) :
    ∃ t, exec (.motionFrame (motionLine ones seq gear flags speed steer)) s = .next t ∧ t.vsr.debRev = s.vsr.debRev ∧
      (t.vsr.motion.gear = .r ↔ gear = 1) ∧
      t.vsr.reverse = (s.vsr.debRev || (t.vsr.motionFresh.st == .valid && t.vsr.motion.gear == .r)) ∧ episodeTaken s t := by
  have vsr := takeBits_motionLine (seq := seq) gear flags speed steer hr ho
  have time : now (takeBits (motionLine ones seq gear flags speed steer) s) = now s :=
    congrArg (· / 1000) ((same_takeBits (p := .clock) (s := s) (by decide)).2 rfl)
  have reading : (motionTaken gear flags speed steer seq (cabin s)).gear = .r ↔ gear = 1 := by
    simp only [motionTaken]
    by_cases h : gear = 1
    · simp [h]
    · simp only [h, if_false, iff_false]
      repeat' split
      all_goals decide
  refine ⟨_, rfl, ?_⟩
  rw [settle_vsr, vsr]
  exact ⟨rfl, reading, rfl, episodeTaken_of_vsr ((settle_vsr _).trans vsr) (by rw [now_settle, time]) rfl rfl⟩

/-- R14: the disagreement timer runs out. -/
theorem disagreementTimer_acts (h : s.vsr.disTimer = some due) : ∃ t, exec .disagreementTimer s = .next t ∧
    t.vsr = { s.vsr with disTimer := none } ∧ t.clockNs = max s.clockNs (due * 1000) ∧
    (if s.vsr.motionFresh.st = .valid ∧ s.vsr.debRev = true ∧ s.vsr.motion.gear ≠ .r then
       noticeRaised .reverseDisagree 1 (BitVec.ofNat 32 (gearCode s.vsr.motion.gear)) s t
     else if s.vsr.motionFresh.st = .valid ∧ s.vsr.debRev = false ∧ s.vsr.motion.gear = .r then
       noticeRaised .reverseDisagree 2 1 s t
     else slotKept .reverseDisagree s t) := by
  refine ⟨_, exec_disagreementTimer h, by rw [settle_vsr, disagreementExpiry_vsr]; rfl,
    by rw [settle_clockNs, disagreementExpiry_clockNs]; rfl, ?_⟩
  generalize hu : (reach due s).setVsr { s.vsr with disTimer := none } = u
  have slots : slotCore u (slotNumber .reverseDisagree) = slotCore s (slotNumber .reverseDisagree) := by rw [← hu]; rfl
  have time : cabin u = cabin (settle (disagreementExpiry (reach due s))) := by
    rw [cabin_settle, ← hu]; simp [cabin, now]
  have expiry : disagreementExpiry (reach due s) = match disagreement s.vsr with
      | some form => raise .reverseDisagree (BitVec.ofNat 32 form) (BitVec.ofNat 32 (gearCode s.vsr.motion.gear)) u
      | none => u := by rw [← hu]; rfl
  have notice : ∀ form, disagreement s.vsr = some form →
      noticeRaised .reverseDisagree (BitVec.ofNat 32 form) (BitVec.ofNat 32 (gearCode s.vsr.motion.gear)) s
        (settle (disagreementExpiry (reach due s))) := fun form k =>
    noticeRaised_of_raise slots (by rw [slotCore_settle (by decide), expiry, k]) time
  split
  · rename_i k
    exact notice 1 (by simp [disagreement, k])
  · rename_i n
    split
    · rename_i k
      have raised := notice 2 (by simp [disagreement, k])
      rw [k.2.2] at raised
      exact raised
    · rename_i k
      have agree : ¬ disagrees s.vsr := by
        rintro ⟨f, ⟨d, g⟩ | ⟨d, g⟩⟩
        · exact n ⟨f, d, g⟩
        · exact k ⟨f, d, g⟩
      have none : disagreement s.vsr = none := Option.not_isSome_iff_eq_none.1 (mt (disagrees_iff _).2 agree)
      exact slotKept_of_core (by rw [slotCore_settle (by decide), expiry, none]; exact slots)

/-- Settles O9: the events of the two sources, and the two evaluations that they run. -/
theorem holdAndDisagreementTimersAct : Obligations.HoldAndDisagreementTimersAct := by
  refine ⟨fun s due h => holdTimer_acts h, fun s due h => motionDeadline_acts h, fun s => ⟨?_, fun h => ?_, fun h => ?_⟩,
    fun s => ⟨fun h e => ?_, fun h e => ?_, fun h => ?_⟩,
    fun s run ones seq gear flags speed steer hr ho => motionFrame_acts gear flags speed steer hr ho,
    fun s due h => disagreementTimer_acts h⟩
  · rw [evalReverse_vsr]; rfl
  · exact evalReverse_of_unchanged (by rw [evalReverse_vsr] at h; exact h)
  · exact noticeRaised_evalReverse rfl rfl (by simp [cabin, now]) h
  all_goals rw [disagrees_iff] at h; rw [evalDisagreement_eq]
  · simp [episodeVsr, h, e, State.setVsr]
  · simp [episodeVsr, h, e, State.setVsr]
  · rw [episodeVsr_of_iff h]; rfl

end ReverseAndEpisodes

end Sys2Proof.Machine

/-! PROOFS. Chapter 2: the camera record, CAM_WR and the notices after each operation of the camera input, and the statements of the
camera input and of the local port. -/

namespace Sys2Proof.Machine

/-! ## The camera record after each operation

The record has two sides: the stream with its runs, its deadline and FROZEN (2.4, 2.6), and the capture: the frame, the buffers and the
counts (2.1 to 2.3, 2.5). Most operations move one of them only. -/

section CameraRecord
variable {s t : State} {c d : Cin} {n : CamStream} {k : Nat}

/-- The capture side of the record: the fields of the stream are blanked. -/
def Cin.capture (c : Cin) : Cin :=
  { c with stream := .absent, deadline := none, goodRun := 0, badRun := 0, lastSig := 0, sameRun := 0, frozen := false }

@[simp] theorem raise_cin (k : NoticeKind) (a b : Word) (s : State) : (raise k a b s).cin = s.cin :=
  (same_raise (p := .cin) (by decide)).2 rfl

section
variable (h : d.capture = c.capture)
include h

theorem capture_source : d.source = c.source := (congrArg Cin.source h :)
theorem capture_frame : d.frame = c.frame := (congrArg Cin.frame h :)
theorem capture_good : d.good = c.good := (congrArg Cin.good h :)
theorem capture_malformed : d.malformed = c.malformed := (congrArg Cin.malformed h :)
theorem capture_lastFault : d.lastFault = c.lastFault := (congrArg Cin.lastFault h :)
theorem capture_capW : d.capW = c.capW := (congrArg Cin.capW h :)
theorem capture_capH : d.capH = c.capH := (congrArg Cin.capH h :)
theorem capture_camBuf (i : Nat) : camBuf d i = camBuf c i := (congrArg (camBuf · i) h :)
theorem capture_bufCount (b : BufState) : bufCount d b = bufCount c b := (congrArg (bufCount · b) h :)
theorem capture_buffersOk : buffersOk d = buffersOk c := (congrArg buffersOk h :)

end

@[simp] theorem viewCameraGone_cin (k : ViewCause) (s : State) : (viewCameraGone k s).cin = s.cin := by
  unfold viewCameraGone
  split
  · exact (same_moveView (p := .cin) (by decide)).2 rfl
  · rfl

theorem raise_setCin_setCin (k : NoticeKind) (a b : Word) (s : State) (x y : Cin) :
    (raise k a b (s.setCin x)).setCin y = (raise k a b s).setCin y := by
  unfold raise
  rw [State.setCin_wai]
  split
  · rfl
  · split <;> rfl

/-- R32: FROZEN is clear. -/
@[simp] theorem clearFrozen_cin (s : State) : (clearFrozen s).cin = { s.cin with frozen := false } := by
  unfold clearFrozen
  split
  · simp
  · rename_i h
    have kept : s.cin = { s.cin with frozen := s.cin.frozen } := rfl
    rw [Bool.eq_false_iff.2 h] at kept
    exact kept

/-- R24, R26, R31: the record after a change of the stream state. -/
def streamChanged (new : CamStream) (c : Cin) : Cin :=
  if c.stream = .locked then { enteredStream new c with sameRun := 0, frozen := false } else enteredStream new c

@[simp] theorem changeStream_cin (new : CamStream) (k : Nat) (s : State) :
    (changeStream new k s).cin = streamChanged new s.cin := by
  unfold changeStream streamChanged
  by_cases h : s.cin.stream = .locked
  · simp [h]
  · simp [h]

theorem enteredStream_capture (new : CamStream) (c : Cin) : (enteredStream new c).capture = c.capture := by
  cases new <;> rfl

@[simp] theorem streamChanged_capture (new : CamStream) (c : Cin) : (streamChanged new c).capture = c.capture := by
  unfold streamChanged
  split
  · exact enteredStream_capture new c
  · exact enteredStream_capture new c

@[simp] theorem enteredStream_stream (new : CamStream) (c : Cin) : (enteredStream new c).stream = new := by cases new <;> rfl

@[simp] theorem streamChanged_stream (new : CamStream) (c : Cin) : (streamChanged new c).stream = new := by
  unfold streamChanged
  split
  · exact enteredStream_stream new c
  · exact enteredStream_stream new c

/-- R28, R33: the record after a frame is dropped. -/
def frameDropped (c : Cin) : Cin := { moveBufs .filling .free c with frame := none }

@[simp] theorem dropFrame_cin (s : State) : (dropFrame s).cin = frameDropped s.cin := (rfl)

/-- R21, R28: the capture side after a malformed frame: its buffer is FREE, and it is counted. -/
def frameCounted (cause : FaultCause) (c : Cin) : Cin :=
  { frameDropped c with malformed := c.malformed + 1, lastFault := some cause }

/-- R24, R25: the stream side after a malformed frame, but for the change to LOST. -/
def streamFaulted (c : Cin) : Cin :=
  { c with
    goodRun := if c.stream = .acquiring then 0 else c.goodRun
    badRun := if c.stream = .locked then c.badRun + 1 else c.badRun }

/-- R24, R25: a malformed frame; the second one in a run loses a LOCKED stream. -/
theorem faultFrame_eq (cause : FaultCause) (s : State) :
    faultFrame cause s = if s.cin.stream = .locked ∧ s.cin.badRun ≠ 0 then
        changeStream .lost (3 + 256 * faultCode (some cause)) (s.setCin (streamFaulted (frameCounted cause s.cin)))
      else s.setCin (streamFaulted (frameCounted cause s.cin)) := by
  have counted : faultFrame cause s = match (frameCounted cause s.cin).stream with
      | .acquiring => s.setCin { frameCounted cause s.cin with goodRun := 0 }
      | .locked =>
        let u := s.setCin { frameCounted cause s.cin with badRun := (frameCounted cause s.cin).badRun + 1 }
        if 2 ≤ (frameCounted cause s.cin).badRun + 1 then changeStream .lost (3 + 256 * faultCode (some cause)) u else u
      | _ => s.setCin (frameCounted cause s.cin) := rfl
  have stream : s.cin.stream = (frameCounted cause s.cin).stream := rfl
  have bad : s.cin.badRun = (frameCounted cause s.cin).badRun := rfl
  rw [counted, stream, bad]
  clear counted stream bad
  obtain ⟨_, stream, _, _, bad⟩ := frameCounted cause s.cin
  cases stream with
  | locked =>
    by_cases z : bad = 0
    · simp [streamFaulted, z]
    · simp [streamFaulted, z, show 2 ≤ bad + 1 by omega]
  | _ => rfl

@[simp] theorem faultFrame_capture (cause : FaultCause) (s : State) :
    (faultFrame cause s).cin.capture = (frameCounted cause s.cin).capture := by
  rw [faultFrame_eq]
  split
  · rw [changeStream_cin, streamChanged_capture]; rfl
  · rfl

/-- R24, R26: the stream side after a FRAME_START. -/
theorem frameStartStream_cin (s : State) :
    (frameStartStream s).cin = { (if s.cin.stream = .absent ∨ s.cin.stream = .lost then streamChanged .acquiring s.cin else s.cin) with
      deadline := some (now (frameStartStream s) + 100000) } := by
  unfold frameStartStream
  split
  · rw [← changeStream_cin .acquiring 1 s]; rfl
  · rfl

@[simp] theorem frameStartStream_capture (s : State) : (frameStartStream s).cin.capture = s.cin.capture := by
  rw [frameStartStream_cin]
  split
  · exact streamChanged_capture .acquiring s.cin
  · rfl

/-- R24, R25: the stream side after a good frame end, but for the change to LOCKED. -/
def streamGood (c : Cin) : Cin :=
  { c with
    goodRun := if c.stream = .acquiring then c.goodRun + 1 else c.goodRun
    badRun := if c.stream = .locked then 0 else c.badRun }

/-- R24, R25: a good frame end; the third one in a run locks an ACQUIRING stream. -/
theorem goodEndStream_eq (s : State) :
    goodEndStream s = if s.cin.stream = .acquiring ∧ 2 ≤ s.cin.goodRun then changeStream .locked 2 (s.setCin (streamGood s.cin))
      else s.setCin (streamGood s.cin) := by
  have whole : goodEndStream s = match s.cin.stream with
      | .acquiring =>
        let u := s.setCin { s.cin with goodRun := s.cin.goodRun + 1 }
        if 3 ≤ s.cin.goodRun + 1 then changeStream .locked 2 u else u
      | .locked => s.setCin { s.cin with badRun := 0 }
      | _ => s.setCin s.cin := rfl
  rw [whole]
  clear whole
  obtain ⟨_, stream, _, good⟩ := s.cin
  cases stream with
  | acquiring =>
    by_cases l : 2 ≤ good
    · simp [streamGood, l]
    · simp [streamGood, l]
  | _ => rfl

@[simp] theorem goodEndStream_capture (s : State) : (goodEndStream s).cin.capture = s.cin.capture := by
  rw [goodEndStream_eq]
  split
  · rw [changeStream_cin, streamChanged_capture]; rfl
  · rfl

/-- R31, R32: the record after the signature of a good frame. -/
def signatureTaken (sig : Nat) (c : Cin) : Cin :=
  if c.sameRun = 0 ∨ sig ≠ c.lastSig then { c with sameRun := 1, lastSig := sig, frozen := false }
  else { c with
    sameRun := min (c.sameRun + 1) 15, lastSig := sig
    frozen := c.frozen || (decide (14 ≤ c.sameRun) && c.stream == .locked) }

/-- R31, R32: whether the signature of a good frame sets FROZEN. -/
def freezes (sig : Nat) (c : Cin) : Prop :=
  c.sameRun ≠ 0 ∧ sig = c.lastSig ∧ 14 ≤ c.sameRun ∧ c.stream = .locked ∧ c.frozen = false

/-- R31, R32: a signature that differs clears FROZEN, and the one that completes the identical run sets it. -/
theorem takeSignature_eq (sig : Nat) (s : State) :
    (s.cin.sameRun = 0 ∨ sig ≠ s.cin.lastSig →
      takeSignature sig s = (clearFrozen s).setCin (signatureTaken sig s.cin)) ∧
    (freezes sig s.cin → takeSignature sig s = viewCameraGone .cameraFrozen
      (raise .cameraFrozen 1 (BitVec.ofNat 32 sig) (s.setCin (signatureTaken sig s.cin)))) ∧
    (¬ (s.cin.sameRun = 0 ∨ sig ≠ s.cin.lastSig) → ¬ freezes sig s.cin →
      takeSignature sig s = s.setCin (signatureTaken sig s.cin)) := by
  have run : min (s.cin.sameRun + 1) 15 = 15 ↔ 14 ≤ s.cin.sameRun := by omega
  have joins : ¬ (s.cin.sameRun = 0 ∨ sig ≠ s.cin.lastSig) → takeSignature sig s =
      if 14 ≤ s.cin.sameRun ∧ s.cin.stream = .locked ∧ s.cin.frozen = false then viewCameraGone .cameraFrozen
        (raise .cameraFrozen 1 (BitVec.ofNat 32 sig) (s.setCin { s.cin with
          sameRun := min (s.cin.sameRun + 1) 15, lastSig := sig, frozen := true }))
      else s.setCin { s.cin with sameRun := min (s.cin.sameRun + 1) 15, lastSig := sig } := by
    intro d
    unfold takeSignature
    simp only [d, if_false, State.setCin_cin, run, Bool.not_eq_true]
    rfl
  refine ⟨fun d => ?_, fun f => ?_, fun d f => ?_⟩
  · unfold takeSignature clearFrozen signatureTaken
    simp only [d, if_true, State.setCin_cin, State.setCin_setCin]
    cases s.cin.frozen
    · simp
    · simp [raise_setCin_setCin]
  · obtain ⟨run0, same, run14, locked, clear⟩ := f
    rw [joins (by simp [run0, same]), if_pos ⟨run14, locked, clear⟩]
    simp [signatureTaken, run0, same, run14, locked]
  · rw [joins d, if_neg (fun k => f ⟨by tauto, by tauto, k⟩)]
    have kept : s.cin.frozen = (s.cin.frozen || (decide (14 ≤ s.cin.sameRun) && s.cin.stream == .locked)) := by
      cases h : s.cin.frozen
      · have not : ¬ (14 ≤ s.cin.sameRun ∧ s.cin.stream = .locked) := fun k => f ⟨by tauto, by tauto, k.1, k.2, h⟩
        simpa using not
      · rfl
    unfold signatureTaken
    rw [if_neg d, ← kept]

@[simp] theorem takeSignature_cin (sig : Nat) (s : State) : (takeSignature sig s).cin = signatureTaken sig s.cin := by
  obtain ⟨differs, sets, keeps⟩ := takeSignature_eq sig s
  by_cases d : s.cin.sameRun = 0 ∨ sig ≠ s.cin.lastSig
  · simp [differs d]
  · by_cases f : freezes sig s.cin
    · simp [sets f]
    · simp [keeps d f]

@[simp] theorem signatureTaken_capture (sig : Nat) (c : Cin) : (signatureTaken sig c).capture = c.capture := by
  unfold signatureTaken
  split <;> rfl

/-- R21, R23, R28: the capture side after the good end of a frame. -/
def frameGood (f : CamFrame) (c : Cin) : Cin :=
  { moveBufs .filling .ready (moveBufs .ready .free c) with frame := none, good := c.good + 1, capW := f.w, capH := f.h }

/-- R21, R31: the good end of a frame; only one of the port joins the identical run. -/
theorem goodEnd_eq (f : CamFrame) (s : State) :
    goodEnd f s = if s.cin.source = .port then takeSignature f.sig (goodEndStream (s.setCin (frameGood f s.cin)))
      else goodEndStream (s.setCin (frameGood f s.cin)) := by
  have source : (goodEndStream (s.setCin (frameGood f s.cin))).cin.source = s.cin.source := by
    rw [capture_source (goodEndStream_capture _)]; rfl
  rw [← source]
  rfl

@[simp] theorem goodEnd_capture (f : CamFrame) (s : State) : (goodEnd f s).cin.capture = (frameGood f s.cin).capture := by
  rw [goodEnd_eq]
  split <;> simp

end CameraRecord

/-! ## The camera buffers (R28 to R30) -/

section Buffers
variable {s t : State} {c : Cin} {a b x : BufState}

/-- Whether a buffer is in a state, as it is counted. -/
def BufState.count (y x : BufState) : Nat := if y = x then 1 else 0

/-- The state of a buffer after the move of all those in one state to another. -/
def BufState.moved (y a b : BufState) : BufState := if y = a then b else y

theorem bufCount_eq (c : Cin) (x : BufState) : bufCount c x = c.buf0.st.count x + c.buf1.st.count x + c.buf2.st.count x := rfl

theorem bufCount_moveBufs_eq (c : Cin) (a b x : BufState) : bufCount (moveBufs a b c) x
    = (c.buf0.st.moved a b).count x + (c.buf1.st.moved a b).count x + (c.buf2.st.moved a b).count x := by
  have st : ∀ q : CamBuf, (if q.st = a then { q with st := b } else q).st = q.st.moved a b := fun q => by
    unfold BufState.moved; split <;> rfl
  rw [bufCount_eq, ← st, ← st, ← st]
  rfl

/-- No buffer is left in the state that they move from. -/
theorem bufCount_moveBufs_old (h : a ≠ b) : bufCount (moveBufs a b c) a = 0 := by
  have one : ∀ y : BufState, (y.moved a b).count a = 0 := fun y => by
    unfold BufState.moved BufState.count
    by_cases k : y = a <;> simp [k, h.symm]
  rw [bufCount_moveBufs_eq, one, one, one]

/-- The buffers that move join those of the state that they move to. -/
theorem bufCount_moveBufs_new (h : a ≠ b) : bufCount (moveBufs a b c) b = bufCount c a + bufCount c b := by
  have one : ∀ y : BufState, (y.moved a b).count b = y.count a + y.count b := fun y => by
    unfold BufState.moved BufState.count
    by_cases k : y = a <;> simp [k, h]
  rw [bufCount_moveBufs_eq, one, one, one, bufCount_eq, bufCount_eq]
  omega

/-- The buffers of any other state stay. -/
theorem bufCount_moveBufs_other (k : x ≠ a) (l : x ≠ b) : bufCount (moveBufs a b c) x = bufCount c x := by
  have one : ∀ y : BufState, (y.moved a b).count x = y.count x := fun y => by
    unfold BufState.moved BufState.count
    by_cases e : y = a <;> simp [e, k.symm, l.symm]
  rw [bufCount_moveBufs_eq, one, one, one, bufCount_eq]

/-- Every buffer is in one of the four states. -/
theorem bufCount_total (c : Cin) : bufCount c .free + bufCount c .filling + bufCount c .ready + bufCount c .shown = 3 := by
  have one : ∀ y : BufState, y.count .free + y.count .filling + y.count .ready + y.count .shown = 1 := fun y => by
    cases y <;> rfl
  have b0 := one c.buf0.st
  have b1 := one c.buf1.st
  have b2 := one c.buf2.st
  simp only [bufCount_eq]
  omega

theorem camBuf_moveBufs (i : Nat) :
    camBuf (moveBufs a b c) i = if (camBuf c i).st = a then { camBuf c i with st := b } else camBuf c i := by
  unfold camBuf moveBufs
  split
  · rfl
  · split <;> rfl

/-- R28 to R30, one condition each. -/
theorem buffersOk_iff : buffersOk c = true ↔ bufCount c .ready ≤ 1 ∧ bufCount c .shown ≤ 1 ∧
    (c.frame = none → bufCount c .filling = 0) ∧
    (∀ f, c.frame = some f → bufCount c .filling = 1 ∧ (camBuf c f.buf).st = .filling ∧ f.buf < 3) := by
  unfold buffersOk
  cases c.frame <;> simp [and_assoc]

/-- Two records with the same buffers and, as far as the buffers go, the same frame. -/
theorem buffersOk_of_frame {d : Cin} (h : buffersOk c = true) (b0 : d.buf0 = c.buf0) (b1 : d.buf1 = c.buf1) (b2 : d.buf2 = c.buf2)
    (f : d.frame.map (·.buf) = c.frame.map (·.buf)) : buffersOk d = true := by
  have count : ∀ x, bufCount d x = bufCount c x := fun x => by simp [bufCount, b0, b1, b2]
  have buf : ∀ i, camBuf d i = camBuf c i := fun i => by simp [camBuf, b0, b1, b2]
  rw [buffersOk_iff] at h ⊢
  obtain ⟨ready, shown, free, filling⟩ := h
  simp only [count, buf]
  refine ⟨ready, shown, fun n => free ?_, fun g k => ?_⟩
  · simpa [n] using f.symm
  · obtain ⟨g', k', e⟩ := Option.map_eq_some_iff.1 (f.symm.trans (by rw [k]; rfl))
    change g'.buf = g.buf at e
    rw [← e]
    exact filling g' k'

/-- R28: a frame that is dropped leaves no FILLING buffer. -/
theorem frameDropped_keeps_buffersOk (h : buffersOk c = true) : buffersOk (frameDropped c) = true := by
  rw [buffersOk_iff] at h ⊢
  obtain ⟨ready, shown, -, -⟩ := h
  have count : ∀ x, bufCount (frameDropped c) x = bufCount (moveBufs .filling .free c) x := fun _ => rfl
  refine ⟨?_, ?_, fun _ => ?_, fun f k => nomatch k⟩
  · rw [count, bufCount_moveBufs_other (by decide) (by decide)]; exact ready
  · rw [count, bufCount_moveBufs_other (by decide) (by decide)]; exact shown
  · rw [count, bufCount_moveBufs_old (by decide)]

/-- R28: at a good frame end the FILLING buffer alone is READY. -/
theorem bufCount_frameGood (f : CamFrame) (c : Cin) : bufCount (frameGood f c) .ready = bufCount c .filling ∧
    bufCount (frameGood f c) .filling = 0 ∧ bufCount (frameGood f c) .shown = bufCount c .shown := by
  have count : ∀ x, bufCount (frameGood f c) x = bufCount (moveBufs .filling .ready (moveBufs .ready .free c)) x := fun _ => rfl
  refine ⟨?_, ?_, ?_⟩
  · rw [count, bufCount_moveBufs_new (by decide), bufCount_moveBufs_old (by decide),
      bufCount_moveBufs_other (by decide) (by decide)]; rfl
  · rw [count, bufCount_moveBufs_old (by decide)]
  · rw [count, bufCount_moveBufs_other (by decide) (by decide),
      bufCount_moveBufs_other (by decide) (by decide)]

theorem filling_le_one (h : buffersOk c = true) : bufCount c .filling ≤ 1 := by
  obtain ⟨-, -, free, filling⟩ := buffersOk_iff.1 h
  cases e : c.frame with
  | none => rw [free e]; omega
  | some f => rw [(filling f e).1]

theorem frameGood_keeps_buffersOk (f : CamFrame) (h : buffersOk c = true) : buffersOk (frameGood f c) = true := by
  obtain ⟨ready, filling, shown⟩ := bufCount_frameGood f c
  have one := filling_le_one h
  obtain ⟨-, le, -, -⟩ := buffersOk_iff.1 h
  rw [buffersOk_iff, ready, filling, shown]
  exact ⟨one, le, fun _ => rfl, fun g k => nomatch k⟩

/-- A move between other states than FILLING keeps what the buffers are to the frame. -/
theorem moveBufs_keeps_buffersOk (ha : a ≠ .filling) (hb : b ≠ .filling) (h : buffersOk c = true)
    (ready : bufCount (moveBufs a b c) .ready ≤ 1) (shown : bufCount (moveBufs a b c) .shown ≤ 1) :
    buffersOk (moveBufs a b c) = true := by
  obtain ⟨-, -, free, filling⟩ := buffersOk_iff.1 h
  rw [buffersOk_iff, bufCount_moveBufs_other ha.symm hb.symm]
  refine ⟨ready, shown, free, fun f k => ?_⟩
  obtain ⟨one, buf, lt⟩ := filling f k
  refine ⟨one, ?_, lt⟩
  rw [camBuf_moveBufs, if_neg (by rw [buf]; exact ha.symm)]
  exact buf

theorem moveBufs_shown_keeps_buffersOk (h : buffersOk c = true) : buffersOk (moveBufs .shown .free c) = true := by
  obtain ⟨ready, -, -, -⟩ := buffersOk_iff.1 h
  refine moveBufs_keeps_buffersOk (by decide) (by decide) h ?_ ?_
  · rw [bufCount_moveBufs_other (by decide) (by decide)]; exact ready
  · rw [bufCount_moveBufs_old (by decide)]; omega

/-- R29: the READY buffer takes the place of the SHOWN one. -/
theorem bufferStep_keeps_buffersOk (displayed : Bool) (h : buffersOk c = true) : buffersOk (bufferStep displayed c) = true := by
  have freed := moveBufs_shown_keeps_buffersOk h
  have none : bufCount (moveBufs .shown .free c) .shown = 0 := bufCount_moveBufs_old (by decide)
  obtain ⟨ready, -, -, -⟩ := buffersOk_iff.1 freed
  unfold bufferStep
  split
  · split
    · refine moveBufs_keeps_buffersOk (by decide) (by decide) freed ?_ ?_
      · rw [bufCount_moveBufs_old (by decide)]; omega
      · rw [bufCount_moveBufs_new (by decide), none]; exact ready
    · exact h
  · exact freed

/-- R28: with no frame in progress a buffer is FREE, and the lowest-numbered one is taken. -/
theorem pickBuf_free (h : buffersOk c = true) (n : c.frame = none) : pickBuf c < 3 ∧ (camBuf c (pickBuf c)).st = .free := by
  obtain ⟨ready, shown, free, -⟩ := buffersOk_iff.1 h
  have some : 1 ≤ bufCount c .free := by have := bufCount_total c; have := free n; omega
  unfold pickBuf
  by_cases b0 : c.buf0.st = .free
  · simp [b0, camBuf]
  · by_cases b1 : c.buf1.st = .free
    · simp [b0, b1, camBuf]
    · have b2 : c.buf2.st = .free := by
        by_contra b2
        simp [bufCount, b0, b1, b2] at some
      simp [b0, b1, b2, camBuf]

theorem camBuf_setCamBuf {i j : Nat} (hi : i < 3) (hj : j < 3) (q : CamBuf) (c : Cin) :
    camBuf (setCamBuf i q c) j = if j = i then q else camBuf c j := by
  interval_cases i <;> interval_cases j <;> rfl

/-- A FREE buffer that takes another state leaves the counts of the others. -/
theorem bufCount_setCamBuf_of_free {i : Nat} (q : CamBuf) (hi : i < 3) (h : (camBuf c i).st = .free) (k : x ≠ .free) :
    bufCount (setCamBuf i q c) x = bufCount c x + q.st.count x := by
  have none : BufState.free.count x = 0 := by simp [BufState.count, Ne.symm k]
  have at' : ∀ d, bufCount d x = (camBuf d 0).st.count x + (camBuf d 1).st.count x + (camBuf d 2).st.count x := fun _ => rfl
  have old : (camBuf c i).st.count x = 0 := by rw [h, none]
  rw [at', at', camBuf_setCamBuf hi (by decide), camBuf_setCamBuf hi (by decide), camBuf_setCamBuf hi (by decide)]
  interval_cases i <;> simp <;> omega

/-- R22, R28: the capture side after a FRAME_START. -/
theorem beginFrame_keeps_buffersOk (h : buffersOk s.cin = true) (n : s.cin.frame = none) :
    buffersOk (beginFrame s).cin = true := by
  obtain ⟨lt, free⟩ := pickBuf_free h n
  obtain ⟨ready, shown, none, -⟩ := buffersOk_iff.1 h
  have count : ∀ x, x ≠ .free → bufCount (beginFrame s).cin x = bufCount s.cin x + BufState.filling.count x := fun x k =>
    bufCount_setCamBuf_of_free ⟨.filling, _, _⟩ lt free k
  rw [buffersOk_iff, count _ (by decide), count _ (by decide), count _ (by decide), none n]
  refine ⟨ready, shown, (nomatch ·), fun f k => ?_⟩
  obtain rfl := Option.some.inj k
  refine ⟨rfl, ?_, lt⟩
  exact congrArg CamBuf.st ((camBuf_setCamBuf lt lt ⟨.filling, _, _⟩ s.cin).trans (if_pos rfl))

end Buffers

/-! ## R28 to R30 over the operations of the camera -/

section CameraBuffers
variable {s t : State} {c d : Cin} {f : CamFrame}

theorem buffersOk_of_capture (e : d.capture = c.capture) (h : buffersOk c = true) : buffersOk d = true := by
  rw [capture_buffersOk e]; exact h

theorem faultFrame_keeps_buffersOk (cause : FaultCause) (h : buffersOk s.cin = true) :
    buffersOk (faultFrame cause s).cin = true :=
  buffersOk_of_capture (c := frameCounted cause s.cin) (faultFrame_capture cause s)
    (frameDropped_keeps_buffersOk h : buffersOk (frameDropped s.cin) = true)

@[simp] theorem faultFrame_frame (cause : FaultCause) (s : State) : (faultFrame cause s).cin.frame = none :=
  capture_frame (faultFrame_capture cause s)

theorem goodEnd_keeps_buffersOk (f : CamFrame) (h : buffersOk s.cin = true) : buffersOk (goodEnd f s).cin = true :=
  buffersOk_of_capture (goodEnd_capture f s) (frameGood_keeps_buffersOk f h)

@[simp] theorem goodEnd_frame (f : CamFrame) (s : State) : (goodEnd f s).cin.frame = none :=
  capture_frame (goodEnd_capture f s)

@[simp] theorem flushLine_cin (s : State) : (flushLine s).cin = s.cin := (same_flushLine (p := .cin) (by decide) (by decide)).2 rfl
@[simp] theorem stopLine_cin (s : State) : (stopLine s).cin = s.cin := (same_stopLine (p := .cin) (by decide)).2 rfl

/-- R23: a line that is written already needs no writing. -/
theorem finishLine_of_idle (h : s.fen.camWr.st = .idle) : finishLine s = s := by simp [finishLine, h]

/-- R23: what is left of a line of a frame whose FRAME_END has not come, or of none, is written. -/
theorem finishLine_of_open (h : s.fen.camWr.st ≠ .idle) (o : ∀ f, s.cin.frame = some f → f.ended = false) :
    finishLine s = flushLine s := by
  unfold finishLine
  rw [if_neg h]
  cases e : s.cin.frame with
  | none => simp [e]
  | some f => simp [e, o f e]

/-- R21, R23: the last line of an ended frame is written, and the good frame end takes effect. -/
theorem finishLine_of_ended (h : s.fen.camWr.st ≠ .idle) (k : s.cin.frame = some f) (e : f.ended = true) :
    finishLine s = goodEnd f (flushLine s) := by
  unfold finishLine
  simp [h, k, e]

theorem finishLine_cin_of_open (o : ∀ f, s.cin.frame = some f → f.ended = false) : (finishLine s).cin = s.cin := by
  by_cases h : s.fen.camWr.st = .idle
  · rw [finishLine_of_idle h]
  · rw [finishLine_of_open h o, flushLine_cin]

theorem finishLine_keeps_buffersOk (h : buffersOk s.cin = true) : buffersOk (finishLine s).cin = true := by
  by_cases o : ∀ f, s.cin.frame = some f → f.ended = false
  · rw [finishLine_cin_of_open o]; exact h
  · by_cases i : s.fen.camWr.st = .idle
    · rw [finishLine_of_idle i]; exact h
    · simp only [not_forall, Bool.not_eq_false] at o
      obtain ⟨f, k, e⟩ := o
      rw [finishLine_of_ended i k e]
      exact goodEnd_keeps_buffersOk f (by rw [flushLine_cin]; exact h)

/-- R23: the record after a line is handed to CAM_WR. -/
@[simp] theorem handRow_cin (f : CamFrame) (bs : List Byte) (s : State) :
    (handRow f bs s).cin = { s.cin with frame := some { f with
      lines := f.lines + 1, store := none
      sig := f.sig + lineSignature f.w f.h f.lines (storedLine f.mirror bs) } } := (rfl)

theorem handRow_keeps_buffersOk (bs : List Byte) (h : buffersOk s.cin = true) (k : s.cin.frame = some f) :
    buffersOk (handRow f bs s).cin = true :=
  buffersOk_of_frame h rfl rfl rfl (by rw [k]; rfl)

/-- R34: what the generator does, where the frame in progress is a generated one with a line left. -/
theorem nextTestRow_cases (s : State) : nextTestRow s = s ∨ ∃ f, s.cin.frame = some f ∧ s.cin.source = .test ∧ f.ended = false ∧
    f.lines < f.h ∧ nextTestRow s = handRow f (testLine f.w) s := by
  unfold nextTestRow
  split
  · split
    · split
      · rename_i source _ f frame left
        exact .inr ⟨f, frame, source, by simpa using left.1, left.2, rfl⟩
      · exact .inl rfl
    · exact .inl rfl
  · exact .inl rfl

theorem nextTestRow_keeps_buffersOk (h : buffersOk s.cin = true) : buffersOk (nextTestRow s).cin = true := by
  obtain e | ⟨f, k, -, -, -, e⟩ := nextTestRow_cases s
  · rw [e]; exact h
  · rw [e]; exact handRow_keeps_buffersOk _ h k

theorem lineWritten_keeps_buffersOk (h : buffersOk s.cin = true) : buffersOk (lineWritten s).cin = true := by
  unfold lineWritten
  split
  · split
    · exact goodEnd_keeps_buffersOk _ h
    · exact nextTestRow_keeps_buffersOk h
  · exact h

theorem endFrame_keeps_buffersOk (h : buffersOk s.cin = true) (k : s.cin.frame = some f) :
    buffersOk (endFrame f s).cin = true := by
  have ended : buffersOk { s.cin with frame := some { f with ended := true } } = true :=
    buffersOk_of_frame h rfl rfl rfl (by rw [k]; rfl)
  unfold endFrame
  simp only
  split
  · exact lineWritten_keeps_buffersOk ended
  · exact ended

/-- R21, R22, R28: a FRAME_START ends the frame in progress, if any, as CUT. -/
theorem camFrameStart_keeps_buffersOk (h : buffersOk s.cin = true) : buffersOk (camFrameStart s).cin = true := by
  have written := finishLine_keeps_buffersOk h
  unfold camFrameStart
  simp only
  generalize finishLine s = u at written ⊢
  split
  · refine beginFrame_keeps_buffersOk ?_ ?_
    · exact buffersOk_of_capture (frameStartStream_capture _) (faultFrame_keeps_buffersOk .cut written)
    · rw [capture_frame (frameStartStream_capture _), faultFrame_frame]
  · rename_i n
    refine beginFrame_keeps_buffersOk (buffersOk_of_capture (frameStartStream_capture _) written) ?_
    rw [capture_frame (frameStartStream_capture _)]
    simpa using n

/-- R21: the frame in progress on the port. -/
theorem portFrame_eq_some : portFrame s = some f ↔ onPort s f := by
  unfold portFrame onPort
  by_cases p : s.cin.source = .port
  · cases k : s.cin.frame with
    | none => simp [p]
    | some g =>
      cases e : g.ended
      · simp only [p, if_true, e, Bool.false_eq_true, if_false, Option.some.injEq, true_and]
        exact ⟨fun h => ⟨h, h ▸ e⟩, fun h => h.1⟩
      · simp only [p, if_true, e, true_and, Option.some.injEq, reduceCtorEq, false_iff, not_and]
        rintro rfl
        simp [e]
  · simp [p]

theorem portFrame_eq_none (h : s.cin.frame = none ∨ s.cin.source = .test) : portFrame s = none := by
  unfold portFrame
  obtain h | h := h <;> simp [h]

theorem camLineStart_keeps_buffersOk (h : buffersOk s.cin = true) : buffersOk (camLineStart s).cin = true := by
  unfold camLineStart
  split
  · exact h
  · rename_i f k
    obtain ⟨-, frame, -⟩ := portFrame_eq_some.1 k
    split
    · exact faultFrame_keeps_buffersOk _ h
    · split
      · exact faultFrame_keeps_buffersOk _ h
      · exact buffersOk_of_frame h rfl rfl rfl (by rw [frame]; rfl)

theorem camLineEnd_keeps_buffersOk (h : buffersOk s.cin = true) : buffersOk (camLineEnd s).cin = true := by
  unfold camLineEnd
  split
  · exact h
  · rename_i f k
    obtain ⟨-, frame, going⟩ := portFrame_eq_some.1 k
    split
    · exact faultFrame_keeps_buffersOk _ h
    · split
      · exact faultFrame_keeps_buffersOk _ h
      · refine handRow_keeps_buffersOk _ (finishLine_keeps_buffersOk h) ?_
        rw [finishLine_cin_of_open (fun g e => by obtain rfl := Option.some.inj (frame.symm.trans e); exact going), frame]

theorem camFrameEnd_keeps_buffersOk (h : buffersOk s.cin = true) : buffersOk (camFrameEnd s).cin = true := by
  unfold camFrameEnd
  split
  · exact h
  · rename_i f k
    obtain ⟨-, frame, -⟩ := portFrame_eq_some.1 k
    split
    · exact faultFrame_keeps_buffersOk _ h
    · split
      · exact faultFrame_keeps_buffersOk _ h
      · exact endFrame_keeps_buffersOk h frame

theorem camInvalid_keeps_buffersOk (h : buffersOk s.cin = true) : buffersOk (camInvalid s).cin = true := by
  unfold camInvalid
  split
  · exact h
  · exact faultFrame_keeps_buffersOk _ h

theorem camPixel_keeps_buffersOk (b : Byte) (h : buffersOk s.cin = true) : buffersOk (camPixel b s).cin = true := by
  unfold camPixel
  split
  · exact h
  · rename_i f k
    obtain ⟨-, frame, -⟩ := portFrame_eq_some.1 k
    split
    · exact faultFrame_keeps_buffersOk _ h
    · split
      · exact buffersOk_of_frame h rfl rfl rfl (by rw [frame]; rfl)
      · exact faultFrame_keeps_buffersOk _ h

theorem camDeadline_keeps_buffersOk (h : buffersOk s.cin = true) : buffersOk (camDeadline s).cin = true := by
  unfold camDeadline
  rw [changeStream_cin]
  exact buffersOk_of_capture (streamChanged_capture _ _) (frameDropped_keeps_buffersOk h)

/-- R33: the capture side after a change of the source: the frame in progress is abandoned. -/
theorem switchSource_capture (src : CamSource) (s : State) :
    (switchSource src s).cin.capture = { (if s.cin.frame.isSome then frameDropped s.cin else s.cin) with source := src }.capture := by
  have stream : ∀ u : State, (if u.cin.stream = .acquiring then u.setCin { u.cin with goodRun := 0 }
      else changeStream .acquiring 5 u).cin.capture = u.cin.capture := by
    intro u
    split
    · rfl
    · rw [changeStream_cin, streamChanged_capture]
  have deadline : ∀ (u : State) (x : Option Nat), (u.setCin { u.cin with deadline := x }).cin.capture = u.cin.capture := fun _ _ => rfl
  have run : ∀ u : State, (clearFrozen (u.setCin { u.cin with sameRun := 0 })).cin.capture = u.cin.capture := by
    intro u; rw [clearFrozen_cin]; rfl
  unfold switchSource
  simp only
  rw [deadline, run, stream]
  split
  · rw [dropFrame_cin, stopLine_cin]; rfl
  · rfl

theorem switchSource_keeps_buffersOk (src : CamSource) (h : buffersOk s.cin = true) :
    buffersOk (switchSource src s).cin = true := by
  refine buffersOk_of_capture (switchSource_capture src s) ?_
  split
  · exact frameDropped_keeps_buffersOk h
  · exact h

theorem leaveTest_keeps_buffersOk (cause : Nat) (h : buffersOk s.cin = true) : buffersOk (leaveTest cause s).cin = true := by
  unfold leaveTest
  rw [raise_cin]
  exact switchSource_keeps_buffersOk _ h

theorem camReverseOn_keeps_buffersOk (h : buffersOk s.cin = true) : buffersOk (camReverseOn s).cin = true := by
  unfold camReverseOn
  split
  · exact leaveTest_keeps_buffersOk _ h
  · exact h

theorem enterTest_keeps_buffersOk (h : buffersOk s.cin = true) : buffersOk (enterTest s).cin = true :=
  buffersOk_of_frame (switchSource_keeps_buffersOk .test h) rfl rfl rfl rfl

/-- R35: what CAMERA_TEST is taken for. -/
theorem ownCameraTest_cases (mode : Byte) (s : State) : (ownCameraTest mode s).1 = s ∨
    (ownCameraTest mode s).1 = enterTest s ∨ (ownCameraTest mode s).1 = leaveTest 1 s := by
  unfold ownCameraTest
  repeat' split
  all_goals simp

theorem ownCameraTest_keeps_buffersOk (mode : Byte) (h : buffersOk s.cin = true) :
    buffersOk (ownCameraTest mode s).1.cin = true := by
  obtain e | e | e := ownCameraTest_cases mode s <;> rw [e]
  · exact h
  · exact enterTest_keeps_buffersOk h
  · exact leaveTest_keeps_buffersOk 1 h

theorem restOfTest_keeps_buffersOk (n : Nat) (h : buffersOk s.cin = true) : buffersOk (restOfTest n s).cin = true := by
  induction n generalizing s with
  | zero => exact h
  | succ n ih => exact ih (nextTestRow_keeps_buffersOk (finishLine_keeps_buffersOk h))

theorem endTestFrame_keeps_buffersOk (h : buffersOk s.cin = true) : buffersOk (endTestFrame s).cin = true := by
  unfold endTestFrame
  split
  · exact h
  · split
    · exact h
    · have rest : ∀ n, buffersOk (restOfTest n (reach s.cin.testEnd s)).cin = true := fun n => restOfTest_keeps_buffersOk n h
      simp only
      split
      · exact endFrame_keeps_buffersOk (rest _) ‹_›
      · exact rest _

theorem startTestFrame_keeps_buffersOk (h : buffersOk s.cin = true) : buffersOk (startTestFrame s).cin = true := by
  have timed : ∀ (u : State) (x y : Nat), buffersOk u.cin = true →
      buffersOk (u.setCin { u.cin with nextTest := x, testEnd := y }).cin = true := fun u x y k =>
    buffersOk_of_frame k rfl rfl rfl rfl
  have ended := endTestFrame_keeps_buffersOk h
  unfold startTestFrame
  generalize endTestFrame s = u at ended
  exact nextTestRow_keeps_buffersOk (timed _ _ _ (camFrameStart_keeps_buffersOk ended))

end CameraBuffers

/-! ## R28 to R30 over a step -/

section StepBuffers
variable {s t u : State}

/-- R36: a change of REVERSE leaves the buffers but for the end of test mode. -/
theorem handReverse_keeps_buffersOk (h : buffersOk s.cin = true) : buffersOk (handReverse s).cin = true := by
  have cadence : ∀ (b : Bool) (u : State), (evalCadence b u).cin = u.cin := fun b u =>
    (same_evalCadence (p := .cin) (by decide) (by decide) (by decide)).2 rfl
  have chime : ∀ u : State, (chimeReverseOn u).cin = u.cin := fun u => by
    unfold chimeReverseOn
    split
    · exact (same_arriveInternal (p := .cin) (by decide) (by decide) (by decide)).2 rfl
    · rfl
  have on : ∀ u : State, (viewReverseOn u).cin = u.cin := fun u => (same_viewReverseOn (p := .cin) (by decide)).2 rfl
  have off : ∀ u : State, (viewReverseOff u).cin = u.cin := fun u => (same_viewReverseOff (p := .cin) (by decide)).2 rfl
  unfold handReverse
  split
  · rw [cadence, chime]; exact camReverseOn_keeps_buffersOk (by rw [on]; exact h)
  · rw [cadence, off]; exact h

theorem evalReverse_keeps_buffersOk (h : buffersOk s.cin = true) : buffersOk (evalReverse s).cin = true := by
  unfold evalReverse
  simp only
  split
  · exact h
  · exact handReverse_keeps_buffersOk (by rw [raise_cin]; exact h)

@[simp] theorem evalDisagreement_cin (s : State) : (evalDisagreement s).cin = s.cin :=
  (same_evalDisagreement (p := .cin) (by decide)).2 rfl
@[simp] theorem moveFresh_cin (k : VslKind) (f : Freshness) (s : State) : (moveFresh k f s).cin = s.cin :=
  (same_moveFresh (p := .cin) (by decide) (by decide)).2 rfl

theorem evalMotion_keeps_buffersOk (h : buffersOk s.cin = true) : buffersOk (evalMotion s).cin = true := by
  have parked : (evalParked s).cin = s.cin := (same_evalParked (p := .cin) (by decide) (by decide) (by decide)).2 rfl
  unfold evalMotion
  rw [evalDisagreement_cin]
  exact evalReverse_keeps_buffersOk (by rw [parked]; exact h)

theorem holdExpiry_keeps_buffersOk (h : buffersOk s.cin = true) : buffersOk (holdExpiry s).cin = true := by
  unfold holdExpiry
  rw [evalDisagreement_cin]
  exact evalReverse_keeps_buffersOk h

theorem freshDeadline_keeps_buffersOk (k : VslKind) (h : buffersOk s.cin = true) : buffersOk (freshDeadline k s).cin = true := by
  unfold freshDeadline
  cases k with
  | motion => exact evalMotion_keeps_buffersOk (by rw [moveFresh_cin]; exact h)
  | parkAssist =>
    have e : (evalCadence false (moveFresh .parkAssist (freshExpiry (freshOf s.vsr .parkAssist)) s)).cin = s.cin :=
      (same_evalCadence (p := .cin) (by decide) (by decide) (by decide)).2 (moveFresh_cin _ _ _)
    rw [e]; exact h

theorem takeEvent_keeps_buffersOk (e : RxEvent) (h : buffersOk s.cin = true) : buffersOk (takeEvent e s).cin = true := by
  have error : ∀ (e : VslError) (n : Nat) (b : Option Byte) (u : State), (frameErrorNow e n b u).cin = u.cin := fun e n b u =>
    (same_frameErrorNow (p := .cin) (by decide) (by decide)).2 rfl
  unfold takeEvent
  split
  · rw [error]; exact h
  · rename_i hdr bits
    split
    · have speed : ∀ u : State, (viewSpeed u).cin = u.cin := fun u => (same_viewSpeed (p := .cin) (by decide)).2 rfl
      unfold goodMotion freshFrame
      simp only
      rw [speed]
      refine evalMotion_keeps_buffersOk ?_
      rw [moveFresh_cin, State.setVsr_cin]
      split
      · exact h
      · rw [error]; exact h
    · have e : (goodPark hdr bits s).cin = s.cin := by
        unfold goodPark
        exact (same_evalCadence (p := .cin) (by decide) (by decide) (by decide)).2 (moveFresh_cin _ _ _)
      rw [e]; exact h

theorem takeBits_keeps_buffersOk (bits : List Bool) (h : buffersOk s.cin = true) : buffersOk (takeBits bits s).cin = true := by
  have all : ∀ (es : List RxEvent) (u : State), buffersOk u.cin = true →
      buffersOk (es.foldl (fun t e => takeEvent e t) u).cin = true := by
    intro es
    induction es with
    | nil => exact fun u k => k
    | cons e es ih => exact fun u k => ih _ (takeEvent_keeps_buffersOk e k)
  exact all _ _ h

theorem freeShown_keeps_buffersOk (h : buffersOk s.cin = true) : buffersOk (freeShown s).cin = true :=
  moveBufs_shown_keeps_buffersOk h

/-- R30, R74: a pipe that enters OFF frees the SHOWN buffer. -/
theorem enterOff_keeps_buffersOk (p : PipeId) (h : buffersOk s.cin = true) : buffersOk (enterOff p s).cin = true := by
  have slots : (stopSlots p (hideSlots p s)).cin = s.cin :=
    (same_stopSlots (p := .cin) (by decide) (by decide)).2 ((same_hideSlots (p := .cin) (by decide) (by decide)).2 rfl)
  have layers : (dropLayers (stopSlots p (hideSlots p s))).cin = s.cin := (same_dropLayers (p := .cin) (by decide)).2 slots
  have rest : ∀ (q : List LongReq) (st : Status) (a b : Bool) (old : PipeState) (y : Pipe) (u : State),
      (completeAll q st (handSet p a b (raisePipe p .off old .off (setPipe p y u)))).cin = u.cin := by
    intro q st a b old y u
    show Part.cin.same u _
    simp
  unfold enterOff
  simp only
  rw [rest]
  split
  · exact freeShown_keeps_buffersOk (by rw [layers]; exact h)
  · rw [slots]; exact h

theorem ownPipeOff_keeps_buffersOk (code : Byte) (h : buffersOk s.cin = true) : buffersOk (ownPipeOff code s).1.cin = true := by
  unfold ownPipeOff withPipe
  split
  · exact h
  · simp only
    split
    · exact h
    · split
      · exact h
      · exact enterOff_keeps_buffersOk _ h

/-- Table 8-6: of the requests PIPE_OFF and CAMERA_TEST alone reach the camera. -/
theorem ownRequest_keeps_buffersOk (q : LongReq) (r : Request) (h : buffersOk s.cin = true) :
    buffersOk (ownRequest q r s).1.cin = true := by
  have kept : ∀ u : State, Part.cin.same s u → buffersOk u.cin = true := fun u e => by rw [show u.cin = s.cin from e]; exact h
  cases r
  case pipeOff code => exact ownPipeOff_keeps_buffersOk code h
  case cameraTest mode => exact ownCameraTest_keeps_buffersOk mode h
  all_goals
    refine kept _ ?_
    simp [ownRequest, viewParts, offParts]

/-- R176: a record reaches the camera through its owner only. -/
theorem takeRecord_keeps_buffersOk {r : RecordRef} {own : LongReq → State → State × Answer}
    (o : ∀ q u, buffersOk u.cin = true → buffersOk (own q u).1.cin = true) (h : buffersOk s.cin = true) :
    buffersOk (takeRecord r own s).cin = true := by
  have entered : ∀ (a : Answer) (u : State), (enterAnswer r a u).cin = u.cin := fun a u =>
    (same_enterAnswer (p := .cin) (by decide)).2 rfl
  unfold takeRecord
  simp only
  split
  · rw [entered]; exact o _ _ h
  · exact o _ _ h

theorem takeKind_keeps_buffersOk (r : RecordRef) (bytes : List Byte) (h : buffersOk s.cin = true) :
    buffersOk (takeKind r bytes s).cin = true := by
  unfold takeKind
  refine takeRecord_keeps_buffersOk (fun q u k => ?_) h
  split
  · split
    · exact k
    · exact ownRequest_keeps_buffersOk q _ k
  · exact k

theorem takeRecords_keeps_buffersOk (n page : Nat) (seq : Word) (fill : List Byte) (pos : Nat) (h : buffersOk s.cin = true) :
    buffersOk (takeRecords n page seq fill pos s).cin = true := by
  induction n generalizing pos s with
  | zero => exact h
  | succ n ih =>
    unfold takeRecords
    simp only
    split
    · exact h
    · split
      · exact takeRecord_keeps_buffersOk (fun q u k => k) h
      · exact ih _ (takeKind_keeps_buffersOk _ _ h)

theorem recordsRead_keeps_buffersOk (page : Nat) (bytes : List Byte) (h : buffersOk s.cin = true) :
    buffersOk (recordsRead page bytes s).cin = true := by
  have ended : ∀ (r : RecordRef) (u : State), (endPage r u).cin = u.cin := fun r u => (same_endPage (p := .cin) (by decide)).2 rfl
  unfold recordsRead
  simp only
  split
  · rw [ended]; exact takeRecords_keeps_buffersOk _ _ _ _ _ h
  · exact h

/-- R150: the data of a unit reaches the camera through the records of a page only. -/
theorem handData_keeps_buffersOk (c : ChanId) (discard : Bool) (data : List Byte) (h : buffersOk s.cin = true) :
    buffersOk (handData c discard data s).cin = true := by
  have kept : ∀ u : State, Part.cin.same s u → buffersOk u.cin = true := fun u e => by rw [show u.cin = s.cin from e]; exact h
  cases c
  case work =>
    unfold handData workArrived
    simp only
    split
    · exact h
    · split
      · split
        · exact kept _ (by simp)
        · exact kept _ (by simp)
        · exact recordsRead_keeps_buffersOk _ _ h
        · exact h
      · exact h
  all_goals refine kept _ ?_
  case plane => simp only [handData]; split <;> simp
  case bulk id =>
    cases id
    case settingsIn => simp only [handData]; split <;> simp
    all_goals simp [handData]
  all_goals simp [handData]

theorem drain_keeps_buffersOk (n : Nat) (c : ChanId) (h : buffersOk s.cin = true) : buffersOk (drain n c s).cin = true := by
  induction n generalizing s with
  | zero => exact h
  | succ n ih =>
    unfold drain
    split
    · exact h
    · split
      · exact ih (handData_keeps_buffersOk _ _ _ h)
      · exact h

theorem completion_keeps_buffersOk (place : Nat) (ok : Bool) (data : List Byte) (h : buffersOk s.cin = true) :
    buffersOk (completion place ok data s).cin = true := by
  have kept : ∀ u : State, Part.cin.same s u → buffersOk u.cin = true := fun u e => by rw [show u.cin = s.cin from e]; exact h
  unfold completion
  split
  · exact h
  · split
    · split
      · exact drain_keeps_buffersOk _ _ h
      · exact kept _ (by simp [exitParts, removeUnit])
    · refine kept _ ?_
      unfold afterOrphan
      split <;> simp [removeUnit]
    · exact h

end StepBuffers
section StepBuffers
variable {s t u : State}

/-- R29: what a vblank does to the camera: the buffer step, at one of the CENTRE pipe. -/
theorem vblank_keeps_buffersOk (p : PipeId) (h : buffersOk s.cin = true) : buffersOk (vblank p s).cin = true := by
  have fixed : ∀ u : State, (fixFrame p (present p u)).cin = u.cin := fun u => by
    show Part.cin.same u _
    simp
  have active : ∀ u : State, (activateScene p (countStart p u)).cin = u.cin := fun u => by
    show Part.cin.same u _
    simp
  have centre : ∀ u : State, buffersOk u.cin = true → buffersOk (centreVblank u).cin = true := fun u k => by
    have view : (viewVblank u).cin = u.cin := (same_viewVblank (p := .cin) (by decide) (by decide) (by decide) (by decide)).2 rfl
    have guide : ∀ v : State, (guideVblank v).cin = v.cin := fun v =>
      (same_guideVblank (p := .cin) (by decide) (by decide) (by decide)).2 rfl
    unfold centreVblank
    simp only
    rw [guide, State.setCin_cin, view]
    exact bufferStep_keeps_buffersOk _ k
  have begun : ∀ (q : Pipe) (ns : Nat), buffersOk (activateScene p (countStart p (setPipe p q (reachNs ns s)))).cin = true :=
    fun q ns => by rw [active]; exact h
  unfold vblank
  simp only
  rw [fixed]
  split
  · exact centre _ (begun _ _)
  · exact begun _ _

/-- R151: a local unit reaches the camera where it is one of CAM_WR. -/
theorem localDone_keeps_buffersOk (h : buffersOk s.cin = true) : buffersOk (localDone s).cin = true := by
  have wrote : ∀ (ws : List (Nat × List Byte)) (u : State), (writePieces ws u).cin = u.cin := fun ws u =>
    (same_writePieces (p := .cin) (by decide)).2 rfl
  have moved : ∀ (q : LocalUnit) (u : State), buffersOk u.cin = true → buffersOk (localMoved q u).cin = true := by
    intro q u k
    have kept : ∀ v : State, Part.cin.same u v → buffersOk v.cin = true := fun v e => by
      rw [show v.cin = u.cin from e]; exact k
    unfold localMoved
    split
    · unfold cameraWritten
      simp only
      split
      · exact lineWritten_keeps_buffersOk k
      · exact k
    · refine kept _ ?_
      unfold guideWritten
      simp only
      split <;> simp
    · exact k
    · exact k
    · refine kept _ ?_
      unfold bankArrived
      split <;> simp
    · refine kept _ ?_
      unfold bulkWrote
      split
      · simp only; split <;> simp
      · simp
  unfold localDone
  split
  · exact h
  · simp only
    split
    · exact moved _ _ (by rw [wrote]; exact h)
    · rw [wrote]; exact h

theorem cin_of_finish (h : finish u = .next t) : t.cin = u.cin := same_of_finish (p := .cin) (by decide) (by decide) rfl h

theorem buffersOk_of_finish (h : finish u = .next t) (k : buffersOk u.cin = true) : buffersOk t.cin = true := by
  rw [cin_of_finish h]; exact k

theorem buffersOk_of_next (h : (.next s : Host.Outcome State Fault Refusal) = .next t) (k : buffersOk s.cin = true) :
    buffersOk t.cin = true := by
  cases h; exact k

theorem buffersOk_of_request {r : RecordRef} {own : LongReq → State → State × Answer}
    (o : ∀ q u, buffersOk u.cin = true → buffersOk (own q u).1.cin = true) (k : buffersOk s.cin = true)
    (h : request r own s = .next t) : buffersOk t.cin = true := by
  unfold request at h
  split at h
  · exact buffersOk_of_finish h (takeRecord_keeps_buffersOk o k)
  · exact buffersOk_of_next h k

/-- R28 to R30 over each command: the rows that may change the camera record, and the frame of all others. -/
theorem exec_keeps_buffersOk {c : Instr} (k : buffersOk s.cin = true) (h : exec c s = .next t) : buffersOk t.cin = true := by
  cases c
  case powerOnReset =>
    obtain rfl : _ = t := by simpa [exec, execPowerOnReset] using h
    rfl
  -- the vehicle line and REVERSE
  case motionFrame bits | parkAssistFrame bits | frameError bits | returnToRest bits =>
    exact buffersOk_of_finish h (takeBits_keeps_buffersOk bits k)
  case freshnessDeadline kind =>
    dsimp only [exec, execFreshnessDeadline] at h
    split at h
    · exact buffersOk_of_finish h (freshDeadline_keeps_buffersOk kind k)
    · exact buffersOk_of_next h k
  case holdTimer =>
    dsimp only [exec, execHoldTimer] at h
    split at h
    · exact buffersOk_of_finish h (holdExpiry_keeps_buffersOk k)
    · exact buffersOk_of_next h k
  -- the camera port, its deadline and test mode
  case frameStart =>
    dsimp only [exec, execFrameStart] at h
    split at h
    · exact buffersOk_of_finish h (camFrameStart_keeps_buffersOk k)
    · exact buffersOk_of_next h k
  case lineStart => exact buffersOk_of_finish h (camLineStart_keeps_buffersOk k)
  case lineEnd => exact buffersOk_of_finish h (camLineEnd_keeps_buffersOk k)
  case frameEnd => exact buffersOk_of_finish h (camFrameEnd_keeps_buffersOk k)
  case invalidCode => exact buffersOk_of_finish h (camInvalid_keeps_buffersOk k)
  case pixelByte b => exact buffersOk_of_finish h (camPixel_keeps_buffersOk b k)
  case frameStartDeadline =>
    dsimp only [exec, execFrameStartDeadline] at h
    split at h
    · exact buffersOk_of_finish h (camDeadline_keeps_buffersOk k)
    · exact buffersOk_of_next h k
  case testFrameStart =>
    dsimp only [exec, execTestFrameStart] at h
    split at h
    · exact buffersOk_of_finish h (startTestFrame_keeps_buffersOk k)
    · exact buffersOk_of_next h k
  case testFrameEnd =>
    dsimp only [exec, execTestFrameEnd] at h
    split at h
    · exact buffersOk_of_finish h (endTestFrame_keeps_buffersOk k)
    · exact buffersOk_of_next h k
  case cameraTest r mode => exact buffersOk_of_request (fun _ _ => ownCameraTest_keeps_buffersOk mode) k h
  -- the CENTRE pipe, the records and the local port
  case pipeOff r code => exact buffersOk_of_request (fun _ _ => ownPipeOff_keeps_buffersOk code) k h
  case pipeVblank p =>
    dsimp only [exec, execPipeVblank] at h
    split at h
    · exact buffersOk_of_next h k
    · exact buffersOk_of_finish h (vblank_keeps_buffersOk p k)
  case readCompletion place ok data => exact buffersOk_of_finish h (completion_keeps_buffersOk place ok data k)
  case localUnitCompletion => exact buffersOk_of_finish h (localDone_keeps_buffersOk k)
  all_goals
    have e : t.cin = s.cin := exec_same (p := .cin) (by simp [mayTouch, viewParts, offParts, exitParts]) h
    rw [e]; exact k

/-- Settles O20: each operation of the camera moves the buffers and the frame together, and the frame of every other row leaves them. -/
theorem stepKeepsCameraBuffers : Obligations.StepKeepsCameraBuffers := by
  intro s t k h
  obtain ⟨-, rfl⟩ | ⟨c, rest, -, h⟩ := step_cases h
  · exact k
  · exact exec_keeps_buffersOk (s := s.setPending rest) k h

end StepBuffers

/-! ## CAM_WR, and the local port -/

section CameraPort
variable {s t u : State} {f : CamFrame}

/-- CAM_WR with the bytes that it has still to write, and whether the local port is free. -/
def camPort (s : State) : Channel × List Byte × Bool := (s.fen.camWr, s.fen.camData, s.fen.localUnit.isNone)

theorem camWr_of_camPort (h : camPort t = camPort s) : t.fen.camWr = s.fen.camWr := (congrArg Prod.fst h :)
theorem camData_of_camPort (h : camPort t = camPort s) : t.fen.camData = s.fen.camData := (congrArg (·.2.1) h :)
theorem localUnit_of_camPort (h : camPort t = camPort s) (n : s.fen.localUnit = none) : t.fen.localUnit = none :=
  Option.isNone_iff_eq_none.1 ((congrArg (·.2.2) h :).trans (Option.isNone_iff_eq_none.2 n))

theorem camPort_of_same (h : Part.fen.same s t) : camPort t = camPort s := by
  unfold camPort
  rw [show t.fen = s.fen from h]

@[simp] theorem camPort_setClock (s : State) (x : Nat) : camPort (s.setClock x) = camPort s := (rfl)
@[simp] theorem camPort_setCin (s : State) (x : Cin) : camPort (s.setCin x) = camPort s := (rfl)
@[simp] theorem camPort_setVwc (s : State) (x : Vwc) : camPort (s.setVwc x) = camPort s := (rfl)
@[simp] theorem camPort_setGlg (s : State) (x : Glg) : camPort (s.setGlg x) = camPort s := (rfl)
@[simp] theorem camPort_setWai (s : State) (x : Wai) : camPort (s.setWai x) = camPort s := (rfl)
@[simp] theorem camPort_raise (k : NoticeKind) (a b : Word) (s : State) : camPort (raise k a b s) = camPort s :=
  camPort_of_same (by simp)

@[simp] theorem camPort_arriveInternal (n : Nat) (s : State) : camPort (arriveInternal n s) = camPort s :=
  camPort_of_same (by simp)

@[simp] theorem camPort_cutLocal (x : LocalUser) (s : State) : camPort (cutLocal x s) = camPort s := by
  unfold cutLocal
  split
  · split
    · rename_i h _; simp [camPort, h]
    · rfl
  · rfl

/-- R59, R66: the run of the guide lines is abandoned on its own channel. -/
@[simp] theorem camPort_abandonRun (s : State) : camPort (abandonRun s) = camPort s := by
  unfold abandonRun
  split
  · have stopped : ∀ v : State, camPort (stopChannel .guideWr v) = camPort v := fun v => rfl
    rw [stopped, camPort_cutLocal, camPort_setGlg]
  · rfl

@[simp] theorem camPort_setGuideMode (m : GuideMode) (s : State) : camPort (setGuideMode m s) = camPort s :=
  camPort_of_same (by simp)

@[simp] theorem camPort_guideExit (s : State) : camPort (guideExit s) = camPort s := by simp [guideExit]

@[simp] theorem camPort_settle (s : State) : camPort (settle s) = camPort s := by
  unfold camPort
  rw [settle_fen]

theorem cabin_congr (h : t.clockNs = s.clockNs) : cabin t = cabin s := by rw [cabin, cabin, now, now, h]

/-! ### The loss of the picture (R47, R54) -/

/-- R47, R54: a LIVE view moves to NO_SIGNAL: its overlay ends, VIEW_CHANGE is raised, and the camera-fault chime arrives. -/
theorem viewCameraGone_of_live (k : ViewCause) (h : s.vwc.view = .live) : viewCameraGone k s =
    arriveInternal 2 (raiseView s.vwc (movedView (now s) .noSignal s.vwc.manual s.vwc) k
      (guideExit (s.setVwc (movedView (now s) .noSignal s.vwc.manual s.vwc)))) := by
  have vwc : ∀ v : State, (guideExit v).vwc = v.vwc := fun v =>
    (same_guideExit (p := .vwc) (by decide) (by decide) (by decide)).2 rfl
  simp [viewCameraGone, h, moveView, enterView, vwc]

theorem viewCameraGone_of_not_live (k : ViewCause) (h : s.vwc.view ≠ .live) : viewCameraGone k s = s := by
  simp [viewCameraGone, h]

@[simp] theorem camPort_viewCameraGone (k : ViewCause) (s : State) : camPort (viewCameraGone k s) = camPort s := by
  by_cases h : s.vwc.view = .live
  · simp [viewCameraGone_of_live k h, raiseView]
  · rw [viewCameraGone_of_not_live k h]

@[simp] theorem viewCameraGone_clockNs (k : ViewCause) (s : State) : (viewCameraGone k s).clockNs = s.clockNs :=
  (same_viewCameraGone (p := .clock) (by decide)).2 rfl

@[simp] theorem slotCore_viewCameraGone {k : ViewCause} {n : NoticeKind} (h : n ∉ viewNotices) :
    slotCore (viewCameraGone k s) (slotNumber n) = slotCore s (slotNumber n) := by
  unfold viewCameraGone
  split
  · exact slotCore_moveView h
  · rfl

/-- R44, R47, R53: the picture is lost at `u`, which has the view and what the slot of `s` records, seen from `s` and at a `t` that keeps
what it left. -/
theorem pictureLost (k : ViewCause) (vwc : u.vwc = s.vwc)
    (before : slotCore u (slotNumber .viewChange) = slotCore s (slotNumber .viewChange))
    (after : slotCore t (slotNumber .viewChange) = slotCore (viewCameraGone k u) (slotNumber .viewChange))
    (view : t.vwc = (viewCameraGone k u).vwc) (time : cabin u = cabin t) :
    (s.vwc.view = .live → t.vwc = { s.vwc with view := .noSignal, startTimer := none, exitTimer := none } ∧
      noticeRaised .viewChange (BitVec.ofNat 32 (515 + if s.vwc.manual then 196608 else 0))
        (BitVec.ofNat 32 (viewCauseCode k)) s t) ∧
    (s.vwc.view ≠ .live → t.vwc = s.vwc) := by
  refine ⟨fun h => ?_, fun h => ?_⟩
  · rw [← vwc] at h
    rw [viewCameraGone_of_live k h] at after view
    have arrived : ∀ v : State, (arriveInternal 2 v).vwc = v.vwc := fun v =>
      (same_arriveInternal (p := .vwc) (by decide) (by decide) (by decide)).2 rfl
    have raised : ∀ (a b : Vwc) (v : State), (raiseView a b k v).vwc = v.vwc := fun a b v =>
      (same_raiseView (p := .vwc) (by decide)).2 rfl
    have ended : ∀ v : State, (guideExit v).vwc = v.vwc := fun v =>
      (same_guideExit (p := .vwc) (by decide) (by decide) (by decide)).2 rfl
    have clock : (guideExit (u.setVwc (movedView (now u) .noSignal u.vwc.manual u.vwc))).clockNs = u.clockNs :=
      (same_guideExit (p := .clock) (by decide) (by decide) (by decide)).2 rfl
    rw [arrived, raised, ended] at view
    rw [slotCore_arriveInternal (by decide)] at after
    refine ⟨by rw [view, ← vwc]; rfl, ?_⟩
    have kept : slotCore (guideExit (u.setVwc (movedView (now u) .noSignal u.vwc.manual u.vwc))) (slotNumber .viewChange)
        = slotCore s (slotNumber .viewChange) := (slotCore_guideExit (by decide)).trans before
    have notice := noticeRaised_of_raise (s := s) (t := t) kept after
      ((cabin_congr clock).trans time)
    have word : viewCode (movedView (now u) .noSignal u.vwc.manual u.vwc).view + 256 * viewCode u.vwc.view
        + bit (movedView (now u) .noSignal u.vwc.manual u.vwc).manual 16 + bit u.vwc.manual 17
        = 515 + if s.vwc.manual then 196608 else 0 := by
      rw [h, ← vwc]
      cases u.vwc.manual <;> simp [movedView, viewCode, bit]
    rw [word] at notice
    exact notice
  · rw [view, viewCameraGone_of_not_live k (by rw [vwc]; exact h), vwc]

/-! ### The stream -/

@[simp] theorem camPort_clearFrozen (s : State) : camPort (clearFrozen s) = camPort s := by
  unfold clearFrozen
  split <;> simp

@[simp] theorem clearFrozen_clockNs (s : State) : (clearFrozen s).clockNs = s.clockNs :=
  (same_clearFrozen (p := .clock) (by decide) (by decide)).2 rfl
@[simp] theorem clearFrozen_vwc (s : State) : (clearFrozen s).vwc = s.vwc :=
  (same_clearFrozen (p := .vwc) (by decide) (by decide)).2 rfl

/-- R32: FROZEN is cleared at `u`, which has FROZEN, the last signature and what the slot of `s` records, seen from `s` and at a `t` that
keeps what it left. -/
theorem frozenCleared (frozen : u.cin.frozen = s.cin.frozen) (sig : u.cin.lastSig = s.cin.lastSig)
    (before : slotCore u (slotNumber .cameraFrozen) = slotCore s (slotNumber .cameraFrozen))
    (after : slotCore t (slotNumber .cameraFrozen) = slotCore (clearFrozen u) (slotNumber .cameraFrozen))
    (time : cabin u = cabin t) :
    if s.cin.frozen then noticeRaised .cameraFrozen 0 (BitVec.ofNat 32 s.cin.lastSig) s t else slotKept .cameraFrozen s t := by
  unfold clearFrozen at after
  rw [frozen, sig] at after
  split
  · rename_i h
    rw [if_pos h] at after
    exact noticeRaised_of_raise (u := u.setCin { u.cin with frozen := false }) before after time
  · rename_i h
    rw [if_neg h] at after
    exact slotKept_of_core (after.trans before)

/-- R27: a change of the stream from a state other than LOCKED is its notice and no more. -/
theorem changeStream_of_unlocked (n : CamStream) (k : Nat) (h : s.cin.stream ≠ .locked) : changeStream n k s =
    raise .cameraLockChange (changeWord (camStreamCode n) (camStreamCode s.cin.stream)) (BitVec.ofNat 32 k)
      (s.setCin (enteredStream n s.cin)) := by
  simp [changeStream, h]

/-- The state at which FROZEN is cleared where the stream leaves LOCKED. -/
def unlocked (n : CamStream) (k : Nat) (s : State) : State :=
  let v := raise .cameraLockChange (changeWord (camStreamCode n) (camStreamCode s.cin.stream)) (BitVec.ofNat 32 k)
    (s.setCin (enteredStream n s.cin))
  v.setCin { v.cin with sameRun := 0 }

/-- R27, R31, R32, R47: leaving LOCKED clears FROZEN and takes the picture away. -/
theorem changeStream_of_locked (n : CamStream) (k : Nat) (h : s.cin.stream = .locked) :
    changeStream n k s = viewCameraGone .cameraLost (clearFrozen (unlocked n k s)) := by
  simp [changeStream, h, unlocked]

@[simp] theorem camPort_changeStream (n : CamStream) (k : Nat) (s : State) : camPort (changeStream n k s) = camPort s := by
  by_cases h : s.cin.stream = .locked
  · simp [changeStream_of_locked n k h, unlocked]
  · simp [changeStream_of_unlocked n k h]

@[simp] theorem changeStream_clockNs (n : CamStream) (k : Nat) (s : State) : (changeStream n k s).clockNs = s.clockNs :=
  (same_changeStream (p := .clock) (by decide)).2 rfl

/-- R27: a change of the stream at `u`, which has what the slot of `s` records, is one notice, seen from `s` and at a `t` that keeps what
it left. -/
theorem lockChangeRaised {n : CamStream} {k : Nat}
    (before : slotCore u (slotNumber .cameraLockChange) = slotCore s (slotNumber .cameraLockChange))
    (after : slotCore t (slotNumber .cameraLockChange) = slotCore (changeStream n k u) (slotNumber .cameraLockChange))
    (time : cabin u = cabin t) :
    noticeRaised .cameraLockChange (changeWord (camStreamCode n) (camStreamCode u.cin.stream)) (BitVec.ofNat 32 k) s t := by
  refine noticeRaised_of_raise (u := u.setCin (enteredStream n u.cin)) before (after.trans ?_) time
  by_cases h : u.cin.stream = .locked
  · rw [changeStream_of_locked n k h, slotCore_viewCameraGone (by decide), slotCore_clearFrozen (by decide)]
    rfl
  · rw [changeStream_of_unlocked n k h]

/-- R31, R32, R47: the stream leaves LOCKED at `u`, which has the view, FROZEN, the signature and what the slots of `s` record, seen from
`s` and at a `t` that keeps what it left. -/
theorem leavesLocked {n : CamStream} {k : Nat} (locked : u.cin.stream = .locked) (vwc : u.vwc = s.vwc)
    (frozen : u.cin.frozen = s.cin.frozen) (sig : u.cin.lastSig = s.cin.lastSig) (before : ∀ m, slotCore u m = slotCore s m)
    (after : ∀ m ≠ 15, slotCore t m = slotCore (changeStream n k u) m) (view : t.vwc = (changeStream n k u).vwc)
    (time : cabin u = cabin t) :
    (if s.cin.frozen then noticeRaised .cameraFrozen 0 (BitVec.ofNat 32 s.cin.lastSig) s t else slotKept .cameraFrozen s t) ∧
    (if s.vwc.view = .live then t.vwc = { s.vwc with view := .noSignal, startTimer := none, exitTimer := none } ∧
        noticeRaised .viewChange (BitVec.ofNat 32 (515 + if s.vwc.manual then 196608 else 0)) 7 s t
      else t.vwc = s.vwc) := by
  rw [changeStream_of_locked n k locked] at after view
  have entered : (enteredStream n u.cin).frozen = u.cin.frozen ∧ (enteredStream n u.cin).lastSig = u.cin.lastSig := by
    cases n <;> exact ⟨rfl, rfl⟩
  have slots : ∀ m : NoticeKind, m ≠ .cameraLockChange →
      slotCore (unlocked n k u) (slotNumber m) = slotCore s (slotNumber m) := fun m hm => by
    rw [← before]; simp [unlocked, hm]
  have clock : cabin (unlocked n k u) = cabin t := by rw [← time]; simp [unlocked, cabin, now]
  have picture := pictureLost (s := s) (t := t) (u := clearFrozen (unlocked n k u)) .cameraLost
    (by rw [clearFrozen_vwc, ← vwc]; exact (same_raise (p := .vwc) (by decide)).2 rfl)
    (by rw [slotCore_clearFrozen (by decide), slots _ (by decide)]) (after _ (by decide)) view
    (by rw [← clock]; simp [cabin, now])
  refine ⟨frozenCleared (u := unlocked n k u) ?_ ?_ (slots _ (by decide)) ?_ clock, ?_⟩
  · simp [unlocked, entered, frozen]
  · simp [unlocked, entered, sig]
  · rw [after _ (by decide), slotCore_viewCameraGone (by decide)]
  · split
    · exact picture.1 ‹_›
    · exact picture.2 ‹_›

@[simp] theorem camPort_frameStartStream (s : State) : camPort (frameStartStream s) = camPort s := by
  unfold frameStartStream
  split <;> simp

@[simp] theorem camPort_dropFrame (s : State) : camPort (dropFrame s) = camPort s := (rfl)
@[simp] theorem camPort_beginFrame (s : State) : camPort (beginFrame s) = camPort s := (rfl)

@[simp] theorem camPort_faultFrame (cause : FaultCause) (s : State) : camPort (faultFrame cause s) = camPort s := by
  rw [faultFrame_eq]
  split <;> simp

@[simp] theorem camPort_goodEndStream (s : State) : camPort (goodEndStream s) = camPort s := by
  rw [goodEndStream_eq]
  split <;> simp

@[simp] theorem camPort_takeSignature (sig : Nat) (s : State) : camPort (takeSignature sig s) = camPort s := by
  obtain ⟨differs, sets, keeps⟩ := takeSignature_eq sig s
  by_cases d : s.cin.sameRun = 0 ∨ sig ≠ s.cin.lastSig
  · simp [differs d]
  · by_cases f : freezes sig s.cin
    · simp [sets f]
    · simp [keeps d f]

@[simp] theorem camPort_goodEnd (f : CamFrame) (s : State) : camPort (goodEnd f s) = camPort s := by
  rw [goodEnd_eq]
  split <;> simp

end CameraPort

/-! ## FRAME_START and its deadline (R22, R24, R26, R28) -/

section FrameStart
variable {s t u : State} {c : Cin} {f : CamFrame}

theorem now_congr (h : t.clockNs = s.clockNs) : now t = now s := by rw [now, now, h]

theorem setCamBuf_eq (i : Nat) (b : CamBuf) (c : Cin) : setCamBuf i b c = { c with
    buf0 := if i = 0 then b else c.buf0
    buf1 := if i = 0 then c.buf1 else if i = 1 then b else c.buf1
    buf2 := if i = 0 then c.buf2 else if i = 1 then c.buf2 else b } := by
  unfold setCamBuf
  split
  · rfl
  · split <;> rfl

/-- R22, R28: what a FRAME_START makes of the record. -/
theorem beginFrame_cin (s : State) : (beginFrame s).cin =
    { setCamBuf (pickBuf s.cin) ⟨.filling, s.sto.running.camW / 2 * 2, s.sto.running.camH⟩ s.cin with
      frame := some ⟨pickBuf s.cin, s.sto.running.camW / 2 * 2, s.sto.running.camH, s.sto.running.mirror, 0, none, 0, false⟩ } := (rfl)

/-- R22: a FRAME_START leaves the stream and the counts. -/
theorem beginFrame_keeps (s : State) : (beginFrame s).cin.stream = s.cin.stream ∧ (beginFrame s).cin.goodRun = s.cin.goodRun ∧
    (beginFrame s).cin.deadline = s.cin.deadline ∧ (beginFrame s).cin.good = s.cin.good ∧
    (beginFrame s).cin.malformed = s.cin.malformed ∧ (beginFrame s).cin.lastFault = s.cin.lastFault ∧
    (beginFrame s).cin.capW = s.cin.capW ∧ (beginFrame s).cin.capH = s.cin.capH ∧ (beginFrame s).cin.source = s.cin.source ∧
    (beginFrame s).cin.nextTest = s.cin.nextTest := by
  rw [beginFrame_cin, setCamBuf_eq]
  exact ⟨rfl, rfl, rfl, rfl, rfl, rfl, rfl, rfl, rfl, rfl⟩

/-- R28: the buffer taken is the lowest-numbered FREE one. -/
theorem pickBuf_eq {i : Nat} (lt : i < 3) (free : (camBuf c i).st = .free) (lower : ∀ j < i, (camBuf c j).st ≠ .free) :
    pickBuf c = i := by
  unfold pickBuf
  match i, lt with
  | 0, _ => exact if_pos free
  | 1, _ => exact (if_neg (lower 0 (by decide))).trans (if_pos free)
  | 2, _ => exact (if_neg (lower 0 (by decide))).trans ((if_neg (lower 1 (by decide))).trans (if_pos free))

/-! ### What is left of a line -/

theorem completeCameraUnit_keeps (s : State) : (completeCameraUnit s).localMem = s.localMem ∧
    (completeCameraUnit s).fen.camWr = s.fen.camWr ∧ (completeCameraUnit s).fen.camData = s.fen.camData := by
  unfold completeCameraUnit
  split
  · split <;> exact ⟨rfl, rfl, rfl⟩
  · exact ⟨rfl, rfl, rfl⟩

theorem flushLine_localMem (s : State) : (flushLine s).localMem
    = Memory.writeBytes localSize s.localMem s.fen.camWr.nextAddress s.fen.camData := by
  rw [← (completeCameraUnit_keeps s).1]; rfl

/-- R23, R31: the good end of a frame leaves local memory. -/
@[simp] theorem goodEnd_localMem (f : CamFrame) (s : State) : (goodEnd f s).localMem = s.localMem :=
  (same_goodEnd (p := .localMem) (by decide)).2 rfl

/-- R23: what is left of a line is written, and CAM_WR is idle. -/
theorem finishLine_spec (s : State) : (finishLine s).localMem = flushedMemory s ∧
    (finishLine s).fen.camWr = (if s.fen.camWr.st = .idle then s.fen.camWr else idleChannel) ∧
    (finishLine s).fen.camData = (if s.fen.camWr.st = .idle then s.fen.camData else []) := by
  unfold flushedMemory
  by_cases i : s.fen.camWr.st = .idle
  · rw [finishLine_of_idle i, if_pos i, if_pos i, if_pos i]
    exact ⟨rfl, rfl, rfl⟩
  · rw [if_neg i, if_neg i, if_neg i, ← flushLine_localMem]
    by_cases o : ∀ f, s.cin.frame = some f → f.ended = false
    · rw [finishLine_of_open i o]
      exact ⟨rfl, rfl, rfl⟩
    · simp only [not_forall, Bool.not_eq_false] at o
      obtain ⟨f, k, e⟩ := o
      rw [finishLine_of_ended i k e]
      have port := camPort_goodEnd f (flushLine s)
      exact ⟨goodEnd_localMem f (flushLine s), camWr_of_camPort port, camData_of_camPort port⟩

theorem slotCore_finishLine_of_open (n : Nat) (o : ∀ f, s.cin.frame = some f → f.ended = false) :
    slotCore (finishLine s) n = slotCore s n := by
  by_cases i : s.fen.camWr.st = .idle
  · rw [finishLine_of_idle i]
  · rw [finishLine_of_open i o]
    exact slotCore_of_wai ((same_flushLine (p := .wai) (by decide) (by decide)).2 rfl)

@[simp] theorem finishLine_clockNs (s : State) : (finishLine s).clockNs = s.clockNs :=
  (same_finishLine (p := .clock) (by decide) (by decide)).2 rfl
@[simp] theorem finishLine_sto (s : State) : (finishLine s).sto = s.sto :=
  (same_finishLine (p := .sto) (by decide) (by decide)).2 rfl
@[simp] theorem frameStartStream_clockNs (s : State) : (frameStartStream s).clockNs = s.clockNs :=
  (same_frameStartStream (p := .clock) (by decide)).2 rfl
@[simp] theorem frameStartStream_sto (s : State) : (frameStartStream s).sto = s.sto :=
  (same_frameStartStream (p := .sto) (by decide)).2 rfl
@[simp] theorem camFrameStart_clockNs (s : State) : (camFrameStart s).clockNs = s.clockNs :=
  (same_camFrameStart (p := .clock) (by decide) (by decide)).2 rfl

/-- R24: with no frame in progress once what is left of a line is written, a FRAME_START begins one. -/
theorem camFrameStart_of_none (h : (finishLine s).cin.frame = none) :
    camFrameStart s = beginFrame (frameStartStream (finishLine s)) := by
  simp [camFrameStart, h]

/-- R21, R24: a frame in progress is CUT. -/
theorem camFrameStart_of_some (h : (finishLine s).cin.frame = some f) :
    camFrameStart s = beginFrame (frameStartStream (faultFrame .cut (finishLine s))) := by
  simp [camFrameStart, h]

/-- R23: of local memory a FRAME_START writes what is left of a line; and it leaves CAM_WR idle where it was busy. -/
theorem camFrameStart_writes (s : State) :
    (camFrameStart s).localMem = flushedMemory s ∧ camPort (camFrameStart s) = camPort (finishLine s) := by
  rw [← (finishLine_spec s).1]
  cases h : (finishLine s).cin.frame with
  | none =>
    rw [camFrameStart_of_none h]
    exact ⟨(same_frameStartStream (p := .localMem) (by decide)).2 rfl, by simp⟩
  | some f =>
    rw [camFrameStart_of_some h]
    exact ⟨(same_frameStartStream (p := .localMem) (by decide)).2 ((same_faultFrame (by decide)).2 rfl), by simp⟩

theorem exec_frameStart (h : s.cin.source = .port) : exec .frameStart s = .next (settle (camFrameStart s)) := by
  simp [exec, execFrameStart, h, finish]

theorem exec_frameStartDeadline {due : Nat} (h : s.cin.deadline = some due) :
    exec .frameStartDeadline s = .next (settle (changeStream .lost 4 (dropFrame (reach due s)))) := by
  simp [exec, execFrameStartDeadline, h, finish, camDeadline]

/-- R22, R24, R26, R28: a FRAME_START that finds no frame in progress. -/
theorem frameStart_begins {i : Nat} (none : s.cin.frame = none) (lt : i < 3) (free : (camBuf s.cin i).st = .free)
    (lower : ∀ j < i, (camBuf s.cin j).st ≠ .free) :
    let t := settle (camFrameStart s)
    t.cin.frame = some ⟨i, s.sto.running.camW / 2 * 2, s.sto.running.camH, s.sto.running.mirror, 0, Option.none, 0, false⟩ ∧
      (camBuf t.cin i).st = .filling ∧ (∀ j < 3, j ≠ i → camBuf t.cin j = camBuf s.cin j) ∧
      t.cin.deadline = some (now s + 100000) ∧ t.cin.good = s.cin.good ∧ t.cin.malformed = s.cin.malformed ∧
      (if s.cin.stream = .absent ∨ s.cin.stream = .lost then
        t.cin.stream = .acquiring ∧ t.cin.goodRun = 0 ∧
          noticeRaised .cameraLockChange (BitVec.ofNat 32 (1 + 256 * camStreamCode s.cin.stream)) 1 s t
      else t.cin.stream = s.cin.stream ∧ t.cin.goodRun = s.cin.goodRun ∧ slotKept .cameraLockChange s t) := by
  have op : ∀ f, s.cin.frame = some f → f.ended = false := fun f k => by rw [none] at k; cases k
  have cin : (finishLine s).cin = s.cin := finishLine_cin_of_open op
  generalize hu : finishLine s = u at cin
  have sto : u.sto = s.sto := by rw [← hu]; simp
  have clock : u.clockNs = s.clockNs := by rw [← hu]; simp
  have slots : ∀ n, slotCore u n = slotCore s n := fun n => by rw [← hu, slotCore_finishLine_of_open n op]
  have begun : camFrameStart s = beginFrame (frameStartStream u) := by
    rw [camFrameStart_of_none (by rw [hu, cin, none]), hu]
  have capture : (frameStartStream u).cin.capture = s.cin.capture := by rw [frameStartStream_capture, cin]
  have pick : pickBuf (frameStartStream u).cin = i :=
    (congrArg pickBuf capture :).trans (pickBuf_eq lt free lower)
  obtain ⟨stream, run, deadline, good, malformed, -⟩ := beginFrame_keeps (frameStartStream u)
  have record := frameStartStream_cin u
  have buf : ∀ j < 3, camBuf (beginFrame (frameStartStream u)).cin j
      = if j = i then ⟨.filling, s.sto.running.camW / 2 * 2, s.sto.running.camH⟩ else camBuf s.cin j := fun j hj => by
    rw [← capture_camBuf capture j, ← sto, ← frameStartStream_sto u, ← camBuf_setCamBuf lt hj, ← pick]
    rfl
  intro t
  have tcin : t.cin = (beginFrame (frameStartStream u)).cin := by rw [← begun]; exact settle_cin _
  have tslot : slotCore t (slotNumber .cameraLockChange) = slotCore (frameStartStream u) (slotNumber .cameraLockChange) := by
    rw [show t = settle (camFrameStart s) from rfl, slotCore_settle (by decide), begun]; rfl
  rw [tcin, stream, run, deadline, good, malformed, capture_good capture, capture_malformed capture, buf i lt, if_pos rfl]
  refine ⟨?_, rfl, fun j hj ne => by rw [buf j hj, if_neg ne], ?_, rfl, rfl, ?_⟩
  · rw [beginFrame_cin, pick, frameStartStream_sto, sto]
  · rw [record, now_congr ((frameStartStream_clockNs u).trans clock)]
  · rw [cin] at record
    split
    · rename_i k
      have ne : s.cin.stream ≠ .locked := by rintro e; simp [e] at k
      rw [record, if_pos k]
      refine ⟨streamChanged_stream _ _, by simp [streamChanged, ne, enteredStream], ?_⟩
      rw [← cin]
      refine lockChangeRaised (n := .acquiring) (k := 1) (slots _) (tslot.trans ?_) ?_
      · unfold frameStartStream
        rw [cin, if_pos k]
        rfl
      · exact cabin_congr (by simp [t, clock])
    · rename_i k
      rw [record, if_neg k]
      refine ⟨rfl, rfl, slotKept_of_core (tslot.trans ?_)⟩
      unfold frameStartStream
      rw [cin, if_neg k]
      exact slots _

/-- R26, R27, R31, R32, R47: the frame start deadline passes. -/
theorem deadline_loses {due : Nat} (t : State) (ht : t = settle (changeStream .lost 4 (dropFrame (reach due s)))) :
    t.clockNs = max s.clockNs (due * 1000) ∧ t.cin.stream = .lost ∧ t.cin.deadline = none ∧ t.cin.frame = none ∧
    bufCount t.cin .filling = 0 ∧ bufCount t.cin .ready = bufCount s.cin .ready ∧
    bufCount t.cin .shown = bufCount s.cin .shown ∧ t.cin.malformed = s.cin.malformed ∧ t.cin.good = s.cin.good ∧
    t.cin.lastFault = s.cin.lastFault ∧
    noticeRaised .cameraLockChange (BitVec.ofNat 32 (3 + 256 * camStreamCode s.cin.stream)) 4 s t ∧
    (s.cin.stream = .locked → t.cin.frozen = false ∧ t.cin.sameRun = 0 ∧
      (if s.cin.frozen then noticeRaised .cameraFrozen 0 (BitVec.ofNat 32 s.cin.lastSig) s t else slotKept .cameraFrozen s t) ∧
      (if s.vwc.view = .live then t.vwc = { s.vwc with view := .noSignal, startTimer := none, exitTimer := none } ∧
        noticeRaised .viewChange (BitVec.ofNat 32 (515 + if s.vwc.manual then 196608 else 0)) 7 s t
      else t.vwc = s.vwc)) := by
  have record : t.cin = streamChanged .lost (frameDropped s.cin) := by rw [ht, settle_cin, changeStream_cin]; rfl
  have capture : t.cin.capture = (frameDropped s.cin).capture := by rw [record, streamChanged_capture]
  have count : ∀ b, bufCount t.cin b = bufCount (moveBufs .filling .free s.cin) b := fun b => capture_bufCount capture b
  have lost : t.cin.deadline = none := by rw [record]; unfold streamChanged; split <;> rfl
  have clock : (dropFrame (reach due s)).clockNs = t.clockNs := by rw [ht]; simp
  refine ⟨clock.symm, ?_, lost, capture_frame capture, ?_, ?_, ?_, by rw [capture_malformed capture]; rfl,
    by rw [capture_good capture]; rfl, by rw [capture_lastFault capture]; rfl, ?_, fun locked => ⟨?_, ?_, ?_⟩⟩
  · rw [record, streamChanged_stream]
  · rw [count, bufCount_moveBufs_old (by decide)]
  · rw [count, bufCount_moveBufs_other (by decide) (by decide)]
  · rw [count, bufCount_moveBufs_other (by decide) (by decide)]
  · exact lockChangeRaised (u := dropFrame (reach due s)) (n := .lost) (k := 4) rfl (by rw [ht, slotCore_settle (by decide)])
      (cabin_congr clock)
  · rw [record]; simp [streamChanged, frameDropped, moveBufs, locked]
  · rw [record]; simp [streamChanged, frameDropped, moveBufs, locked]
  · exact leavesLocked (u := dropFrame (reach due s)) (n := .lost) (k := 4) locked rfl rfl rfl (fun _ => rfl)
      (fun m h => by rw [ht, slotCore_settle h]) (by rw [ht, settle_vwc]) (cabin_congr clock)

/-- Settles O15. -/
theorem frameStartsAndTheirDeadline : Obligations.FrameStartsAndTheirDeadline := by
  refine ⟨fun s i port none lt free lower => ⟨_, exec_frameStart port, frameStart_begins none lt free lower⟩,
    fun s f ⟨port, frame, going⟩ => ⟨_, exec_frameStart port, ?_⟩, fun s test => ?_, fun s port => ⟨_, exec_frameStart port, ?_⟩,
    fun s due h => ⟨_, exec_frameStartDeadline h, deadline_loses _ rfl⟩⟩
  · have cin : (finishLine s).cin = s.cin :=
      finishLine_cin_of_open (fun g k => by obtain rfl := Option.some.inj (frame.symm.trans k); exact going)
    obtain ⟨-, -, -, -, malformed, fault, -⟩ := beginFrame_keeps (frameStartStream (faultFrame .cut (finishLine s)))
    have capture := (frameStartStream_capture (faultFrame .cut (finishLine s))).trans (faultFrame_capture .cut (finishLine s))
    rw [settle_cin, camFrameStart_of_some (f := f) (by rw [cin, frame]), malformed, fault, capture_malformed capture,
      capture_lastFault capture, cin]
    exact ⟨rfl, rfl, _, rfl, rfl, rfl, rfl⟩
  · simp [exec, execFrameStart, test]
  · obtain ⟨mem, camPort⟩ := camFrameStart_writes s
    refine ⟨by rw [settle_localMem, mem], ?_, fun f frame ended busy => ?_⟩
    · rw [camWr_of_camPort (camPort_settle _), camWr_of_camPort camPort, (finishLine_spec s).2.1]
    · have finished := finishLine_of_ended busy frame ended
      obtain ⟨-, -, -, good, malformed, -, capW, capH, -⟩ := beginFrame_keeps (frameStartStream (finishLine s))
      have capture : (frameStartStream (finishLine s)).cin.capture = (frameGood f s.cin).capture := by
        rw [frameStartStream_capture, finished, goodEnd_capture, flushLine_cin]
      rw [settle_cin, camFrameStart_of_none (by rw [finished, goodEnd_frame]), good, malformed, capW, capH,
        capture_good capture, capture_malformed capture, capture_capW capture, capture_capH capture]
      exact ⟨rfl, rfl, rfl, rfl⟩

end FrameStart

/-! ## Faults of a frame (R21, R24, R25, Table 2-2) -/

section Faults
variable {s t : State} {f : CamFrame} {c : Instr} {cause : FaultCause}

/-- Table 2-2: the command that shows a fault makes the frame malformed. -/
theorem exec_cameraFault (p : onPort s f) (h : CameraFault f c cause) : exec c s = .next (settle (faultFrame cause s)) := by
  have port := portFrame_eq_some.2 p
  cases h with
  | shortLine bs store short => simp [exec, execLineEnd, camLineEnd, port, store, short, finish]
  | longLine b bs store long => simp [exec, execPixelByte, camPixel, port, store, Nat.not_lt.2 long, finish]
  | extraLine store full => simp [exec, execLineStart, camLineStart, port, store, full, finish]
  | missingLine store few => simp [exec, execFrameEnd, camFrameEnd, port, store, few, finish]
  | badCode code => simp [exec, execInvalidCode, camInvalid, port, finish]
  | startInLine bs store => simp [exec, execLineStart, camLineStart, port, store, finish]
  | endOutsideLine store => simp [exec, execLineEnd, camLineEnd, port, store, finish]
  | byteOutsideLine b store => simp [exec, execPixelByte, camPixel, port, store, finish]
  | frameEndInLine bs store => simp [exec, execFrameEnd, camFrameEnd, port, store, finish]

/-- R20, R33: with no frame in progress on the port its codes and bytes are passed over. -/
theorem exec_passedOver {b : Byte} (none : s.cin.frame = none ∨ s.cin.source = .test)
    (h : c ∈ [Instr.lineStart, .lineEnd, .frameEnd, .invalidCode b, .pixelByte b]) : exec c s = .next (settle s) := by
  have port := portFrame_eq_none none
  simp only [List.mem_cons, List.not_mem_nil, or_false] at h
  obtain rfl | rfl | rfl | rfl | rfl := h
  · simp [exec, execLineStart, camLineStart, port, finish]
  · simp [exec, execLineEnd, camLineEnd, port, finish]
  · simp [exec, execFrameEnd, camFrameEnd, port, finish]
  · simp [exec, execInvalidCode, camInvalid, port, finish]
  · simp [exec, execPixelByte, camPixel, port, finish]

/-- R170: the end of a command touches the interface and WORK's list only. -/
theorem settle_onlyTouches (s : State) : OnlyTouches [.fen, .wai] s (settle s) := fun p h => by
  simp only [List.mem_cons, List.not_mem_nil, or_false, not_or] at h
  simp [h]

/-- R24, R25: a malformed frame loses a LOCKED stream at the second one in a run. -/
theorem faultFrame_locked (locked : s.cin.stream = .locked) (t : State) (ht : t = settle (faultFrame cause s)) :
    if s.cin.badRun = 0 then t.cin.stream = .locked ∧ t.cin.badRun = 1 ∧
        t.cin.frozen = s.cin.frozen ∧ t.cin.sameRun = s.cin.sameRun ∧ slotKept .cameraFrozen s t ∧ t.vwc = s.vwc
      else t.cin.stream = .lost ∧ t.cin.deadline = none ∧ t.cin.frozen = false ∧ t.cin.sameRun = 0 ∧
        noticeRaised .cameraLockChange 515 (BitVec.ofNat 32 (3 + 256 * faultCode (some cause))) s t ∧
        (if s.cin.frozen then noticeRaised .cameraFrozen 0 (BitVec.ofNat 32 s.cin.lastSig) s t else slotKept .cameraFrozen s t) ∧
        (if s.vwc.view = .live then t.vwc = { s.vwc with view := .noSignal, startTimer := none, exitTimer := none } ∧
          noticeRaised .viewChange (BitVec.ofNat 32 (515 + if s.vwc.manual then 196608 else 0)) 7 s t
        else t.vwc = s.vwc) := by
  generalize hu : s.setCin (streamFaulted (frameCounted cause s.cin)) = u
  have stream : u.cin.stream = .locked := by rw [← hu]; exact locked
  rw [faultFrame_eq, hu] at ht
  split
  · rename_i z
    rw [if_neg (by simp [z])] at ht
    rw [ht, settle_cin, settle_vwc]
    refine ⟨stream, ?_, ?_, ?_, slotKept_of_core ((slotCore_settle (by decide)).trans ?_), ?_⟩
    · rw [← hu]
      exact (if_pos locked).trans (by rw [show (frameCounted cause s.cin).badRun = s.cin.badRun from rfl, z])
    all_goals rw [← hu]; rfl
  · rename_i z
    rw [if_pos ⟨locked, z⟩] at ht
    have record : t.cin = streamChanged .lost u.cin := by rw [ht, settle_cin, changeStream_cin]
    have time : cabin u = cabin t := cabin_congr (by rw [ht]; simp)
    have after : ∀ m ≠ 15, slotCore t m =
        slotCore (changeStream .lost (3 + 256 * faultCode (some cause)) u) m := fun m h => by rw [ht, slotCore_settle h]
    have notice := lockChangeRaised (s := s) (t := t) (u := u) (n := .lost) (k := 3 + 256 * faultCode (some cause))
      (by rw [← hu]; rfl) (after _ (by decide)) time
    rw [stream] at notice
    refine ⟨by rw [record, streamChanged_stream], ?_, ?_, ?_, notice, leavesLocked (u := u) stream ?_ ?_ ?_ ?_ after ?_ time⟩
    · rw [record, streamChanged, if_pos stream]; rfl
    · rw [record, streamChanged, if_pos stream]
    · rw [record, streamChanged, if_pos stream]
    · rw [← hu]; rfl
    · rw [← hu]; rfl
    · rw [← hu]; rfl
    · intro m; rw [← hu]; rfl
    · rw [ht, settle_vwc]

/-- Settles O18: each fault of Table 2-2 drops its frame, and the stream takes it. -/
theorem cameraFaultsMakeMalformedFrames : Obligations.CameraFaultsMakeMalformedFrames := by
  refine ⟨fun s f c cause port fault => ⟨_, exec_cameraFault port fault, ?_⟩,
    fun s b none c h => ⟨_, exec_passedOver none h, settle_onlyTouches s⟩⟩
  have capture := faultFrame_capture cause s
  have count : ∀ b, bufCount (faultFrame cause s).cin b = bufCount (moveBufs .filling .free s.cin) b := fun b =>
    capture_bufCount capture b
  refine ⟨?_, ?_, ?_, ?_, ?_, ?_, ?_, fun acquiring => ?_, fun locked => faultFrame_locked locked _ rfl⟩
  all_goals rw [settle_cin]
  · exact faultFrame_frame cause s
  · rw [count, bufCount_moveBufs_old (by decide)]
  · rw [count, bufCount_moveBufs_other (by decide) (by decide)]
  · rw [count, bufCount_moveBufs_other (by decide) (by decide)]
  · rw [capture_malformed capture]; rfl
  · rw [capture_lastFault capture]; rfl
  · rw [capture_good capture]; rfl
  · rw [faultFrame_eq, if_neg (by simp [acquiring])]
    exact ⟨acquiring, if_pos acquiring⟩

end Faults

/-! ## Lines (R21, R23, R31) -/

section Lines
variable {s t : State} {f : CamFrame} {bs acc : List Byte} {b : Byte}

/-- A line of whole pairs keeps its length. -/
theorem mirrorPairs_length (n : Nat) (bs acc : List Byte) (h : bs.length = 4 * n) :
    (mirrorPairs acc bs).length = acc.length + 4 * n := by
  induction n generalizing bs acc with
  | zero =>
    obtain rfl := List.eq_nil_of_length_eq_zero h
    rfl
  | succ n ih =>
    match bs, h with
    | cb :: y0 :: cr :: y1 :: rest, h =>
      simp only [List.length_cons] at h
      rw [mirrorPairs, ih rest _ (by omega)]
      simp only [List.length_cons]
      omega

/-- R23: the pairs that are taken already follow those still to take. -/
theorem mirrorPairs_append (bs acc : List Byte) : mirrorPairs acc bs = mirrorPairs [] bs ++ acc := by
  have all : ∀ (bs acc xs : List Byte), mirrorPairs (acc ++ xs) bs = mirrorPairs acc bs ++ xs := by
    intro bs acc
    induction acc, bs using mirrorPairs.induct with
    | case1 acc cb y0 cr y1 rest ih => exact fun xs => ih xs
    | case2 bs acc short => intro xs; rw [mirrorPairs, mirrorPairs] <;> assumption
  exact all bs [] acc

/-- R23: a pair and its mirror image: the luma samples, the second and the fourth byte, are exchanged. -/
theorem mirrorPairs_getElem? (n p k : Nat) (bs : List Byte) (len : bs.length = 4 * n) (hp : p < n) (hk : k < 4) :
    (mirrorPairs [] bs)[4 * (n - 1 - p) + k]? = bs[4 * p + (if k = 1 then 3 else if k = 3 then 1 else k)]? := by
  induction n generalizing bs p with
  | zero => omega
  | succ n ih =>
    match bs, len with
    | cb :: y0 :: cr :: y1 :: rest, len =>
      have left : rest.length = 4 * n := by simp only [List.length_cons] at len; omega
      have whole := mirrorPairs_length n rest [] left
      rw [mirrorPairs, mirrorPairs_append]
      cases p with
      | zero =>
        rw [List.getElem?_append_right (by simp at whole; omega)]
        have at' : 4 * (n + 1 - 1 - 0) + k - (mirrorPairs [] rest).length = k := by simp at whole; omega
        rw [at']
        interval_cases k <;> rfl
      | succ p =>
        rw [List.getElem?_append_left (by simp at whole; omega)]
        rw [show n + 1 - 1 - (p + 1) = n - 1 - p by omega, ih p rest left (by omega),
          show 4 * (p + 1) + (if k = 1 then 3 else if k = 3 then 1 else k)
            = 4 * p + (if k = 1 then 3 else if k = 3 then 1 else k) + 4 by omega]
        rfl

theorem exec_lineEnd_whole (p : onPort s f) (store : f.store = some bs) (whole : bs.length = 2 * f.w) :
    exec .lineEnd s = .next (settle (handRow f bs (finishLine s))) := by
  simp [exec, execLineEnd, camLineEnd, portFrame_eq_some.2 p, store, whole, finish]

/-- R31: what a stored line of a frame adds to its signature. -/
theorem lineSignature_eq (w h row : Nat) (bs : List Byte) : lineSignature w h row bs =
    if ∃ j < 8, (2 * j + 1) * h / 16 = row then
      ((List.range 8).map (fun i => (bs[2 * ((2 * i + 1) * w / 16) + 1]?.getD 0).toNat)).sum else 0 := by
  have sampled : (List.range 8).any (fun j => sampleAt h j == row) = true ↔ ∃ j < 8, (2 * j + 1) * h / 16 = row := by
    simp [sampleAt]
  unfold lineSignature
  exact if_congr sampled rfl rfl

/-- R23: a line handed to CAM_WR is the transfer of its row. -/
theorem handRow_fen (f : CamFrame) (bs : List Byte) (s : State) :
    (handRow f bs s).fen.camWr = Channel.started [⟨2048000 * f.buf + f.lines * (2 * f.w), 2 * f.w⟩] .write ∧
    (handRow f bs s).fen.camData = storedLine f.mirror bs := ⟨rfl, rfl⟩

/-- R21: a LINE_END that completes no line leaves local memory and CAM_WR. -/
theorem lineEnd_keeps (h : ∀ f bs, onPort s f → f.store = some bs → bs.length < 2 * f.w) :
    (camLineEnd s).localMem = s.localMem ∧ camPort (camLineEnd s) = camPort s := by
  have fault : ∀ cause, (faultFrame cause s).localMem = s.localMem ∧ camPort (faultFrame cause s) = camPort s := fun cause =>
    ⟨(same_faultFrame (p := .localMem) (by decide)).2 rfl, camPort_faultFrame cause s⟩
  unfold camLineEnd
  split
  · exact ⟨rfl, rfl⟩
  · rename_i f k
    split
    · exact fault _
    · rename_i bs store
      rw [if_pos (h f bs (portFrame_eq_some.1 k) store)]
      exact fault _

theorem onPort_open (p : onPort s f) : ∀ g, s.cin.frame = some g → g.ended = false := by
  obtain ⟨-, frame, going⟩ := p
  intro g k
  obtain rfl := Option.some.inj (frame.symm.trans k)
  exact going

/-- R21, R23, R31: a line of the correct length is complete. -/
theorem lineEnd_captures (p : onPort s f) (even : f.w % 2 = 0) (whole : bs.length = 2 * f.w) (t : State)
    (ht : t = settle (handRow f bs (finishLine s))) :
      (let luma (column : Nat) : Nat := (t.fen.camData[2 * column + 1]?.getD 0).toNat
       t.cin = { s.cin with frame := some { f with
        lines := f.lines + 1
        store := none
        sig := f.sig + (if ∃ j < 8, (2 * j + 1) * f.h / 16 = f.lines then
          ((List.range 8).map (fun i => luma ((2 * i + 1) * f.w / 16))).sum else 0) } }) ∧
      t.localMem = flushedMemory s ∧
      t.fen.camWr = Channel.started [⟨2048000 * f.buf + f.lines * (2 * f.w), 2 * f.w⟩] .write ∧
      t.fen.camData.length = 2 * f.w ∧
      (f.mirror = false → t.fen.camData = bs) ∧
      (f.mirror = true → ∀ p < f.w / 2, ∀ k < 4,
        t.fen.camData[4 * (f.w / 2 - 1 - p) + k]? = bs[4 * p + (if k = 1 then 3 else if k = 3 then 1 else k)]?) := by
  obtain ⟨channel, data⟩ := handRow_fen f bs (finishLine s)
  have camData : t.fen.camData = storedLine f.mirror bs := by rw [ht, camData_of_camPort (camPort_settle _), data]
  have camWr := camWr_of_camPort (camPort_settle (handRow f bs (finishLine s)))
  rw [camData]
  refine ⟨?_, ?_, by rw [ht, camWr, channel], ?_, fun m => by rw [m]; rfl, fun m q hq k hk => ?_⟩
  · rw [ht, settle_cin, handRow_cin, finishLine_cin_of_open (onPort_open p), lineSignature_eq]
  · rw [ht, settle_localMem, ← (finishLine_spec s).1]; rfl
  · unfold storedLine
    split
    · rw [mirrorPairs_length (f.w / 2) bs [] (by omega), List.length_nil]; omega
    · exact whole
  · rw [m]
    exact mirrorPairs_getElem? (f.w / 2) q k bs (by omega) hq hk

/-- Settles O16. -/
theorem cameraLinesAreCaptured : Obligations.CameraLinesAreCaptured := by
  refine ⟨fun s f p store few => ?_, fun s f bs b p store short => ?_,
    fun s f bs p store whole even _ => ⟨_, exec_lineEnd_whole p store whole, lineEnd_captures p even whole _ rfl⟩,
    fun s h => ⟨_, rfl, ?_⟩⟩
  · exact ⟨_, rfl, by simp [camLineStart, portFrame_eq_some.2 p, store, Nat.not_le.2 few]⟩
  · exact ⟨_, rfl, by simp [camPixel, portFrame_eq_some.2 p, store, short]⟩
  · obtain ⟨mem, port⟩ := lineEnd_keeps h
    have after := (camPort_settle (camLineEnd s)).trans port
    exact ⟨(settle_localMem _).trans mem, camWr_of_camPort after, camData_of_camPort after⟩

end Lines

/-! ## Good frame ends (R21, R24, R25, R28, R31, R32) -/

section GoodEnd
variable {s t u v : State} {f : CamFrame} {sig : Nat}

/-- R54: the loss of the picture of a LIVE view at `u`, which has the chimes and what the slot of `s` records, brings the camera-fault
chime, seen from `s` and at a `t` that keeps what it left. -/
theorem pictureLost_chime (k : ViewCause) (live : u.vwc.view = .live) (che : u.che = s.che)
    (before : slotCore u (slotNumber .chimeDropped) = slotCore s (slotNumber .chimeDropped))
    (after : slotCore t (slotNumber .chimeDropped) = slotCore (viewCameraGone k u) (slotNumber .chimeDropped))
    (arrived : t.che = (viewCameraGone k u).che) (time : cabin t = cabin (viewCameraGone k u)) : internalArrival 2 s t := by
  rw [viewCameraGone_of_live k live] at after arrived time
  have left : ∀ w : State, (guideExit w).che = w.che := fun w =>
    (same_guideExit (p := .che) (by decide) (by decide) (by decide)).2 rfl
  refine internalArrival_arrive (b := s.che.cadence) ?_ ?_ arrived after time
  · exact (raise_che.trans (left _)).trans che
  · unfold raiseView
    rw [slotCore_raise_other (by decide), slotCore_guideExit (by decide)]
    exact before

/-- R24, R25: a good frame end moves the stream, and raises no notice but that of a change into LOCKED. -/
theorem goodEndStream_keeps (s : State) : (goodEndStream s).cin.sameRun = s.cin.sameRun ∧
    (goodEndStream s).cin.frozen = s.cin.frozen ∧ (goodEndStream s).cin.lastSig = s.cin.lastSig ∧
    (goodEndStream s).vwc = s.vwc ∧ (goodEndStream s).che = s.che ∧ (goodEndStream s).clockNs = s.clockNs ∧
    ∀ k ≠ NoticeKind.cameraLockChange, slotCore (goodEndStream s) (slotNumber k) = slotCore s (slotNumber k) := by
  rw [goodEndStream_eq]
  split
  · rename_i k
    rw [changeStream_of_unlocked .locked 2 (show (s.setCin (streamGood s.cin)).cin.stream ≠ .locked by
      simp [streamGood, k.1])]
    refine ⟨?_, ?_, ?_, (same_raise (p := .vwc) (by decide)).2 rfl, raise_che, raise_clockNs _ _ _ _, fun k h => ?_⟩
    · rw [raise_cin]; rfl
    · rw [raise_cin]; rfl
    · rw [raise_cin]; rfl
    · rw [slotCore_raise_other h]; rfl
  · exact ⟨rfl, rfl, rfl, rfl, rfl, rfl, fun _ _ => rfl⟩

/-- R24, R25: three good frames in a row lock an ACQUIRING stream, and a good one ends the bad run of a LOCKED stream. -/
theorem goodEndStream_stream (s : State) :
    (s.cin.stream = .acquiring → if s.cin.goodRun < 2 then
        (goodEndStream s).cin.stream = .acquiring ∧ (goodEndStream s).cin.goodRun = s.cin.goodRun + 1
      else (goodEndStream s).cin.stream = .locked ∧ (goodEndStream s).cin.badRun = 0) ∧
    (s.cin.stream = .locked → (goodEndStream s).cin.stream = .locked ∧ (goodEndStream s).cin.badRun = 0) := by
  rw [goodEndStream_eq]
  refine ⟨fun acquiring => ?_, fun locked => ?_⟩
  · split
    · rename_i few
      rw [if_neg (by omega)]
      exact ⟨acquiring, if_pos acquiring⟩
    · rename_i enough
      rw [if_pos ⟨acquiring, by omega⟩, changeStream_cin]
      have unlocked : (s.setCin (streamGood s.cin)).cin.stream ≠ .locked := by simp [streamGood, acquiring]
      exact ⟨streamChanged_stream _ _, by rw [streamChanged, if_neg unlocked]; rfl⟩
  · rw [if_neg (by simp [locked])]
    exact ⟨locked, if_pos locked⟩

theorem signatureTaken_keeps (sig : Nat) (c : Cin) : (signatureTaken sig c).stream = c.stream ∧
    (signatureTaken sig c).goodRun = c.goodRun ∧ (signatureTaken sig c).badRun = c.badRun ∧
    (signatureTaken sig c).lastSig = sig := by
  unfold signatureTaken
  split <;> exact ⟨rfl, rfl, rfl, rfl⟩

/-- R31, R32, R47, R54: the signature of a good frame at `v`, which has the view, the chimes, the identical run and what the slots of `s`
record, seen from `s` and at the end of the command. -/
theorem signatureJoins (run : v.cin.sameRun = s.cin.sameRun) (frozen : v.cin.frozen = s.cin.frozen)
    (last : v.cin.lastSig = s.cin.lastSig) (vwc : v.vwc = s.vwc) (che : v.che = s.che)
    (slots : ∀ k ≠ NoticeKind.cameraLockChange, slotCore v (slotNumber k) = slotCore s (slotNumber k))
    (ht : t = settle (takeSignature sig v)) :
    let same : Bool := s.cin.sameRun != 0 && sig == s.cin.lastSig
    let sets : Prop := same = true ∧ 14 ≤ s.cin.sameRun ∧ t.cin.stream = .locked ∧ s.cin.frozen = false
    t.cin.sameRun = (if same then min (s.cin.sameRun + 1) 15 else 1) ∧
    (sets → t.cin.frozen = true ∧ noticeRaised .cameraFrozen 1 (BitVec.ofNat 32 sig) s t ∧
      (s.vwc.view = .live → t.vwc = { s.vwc with view := .noSignal, startTimer := none, exitTimer := none } ∧
        noticeRaised .viewChange (BitVec.ofNat 32 (515 + if s.vwc.manual then 196608 else 0)) 8 s t ∧ internalArrival 2 s t) ∧
      (s.vwc.view ≠ .live → t.vwc = s.vwc)) ∧
    (same = true → ¬ sets → t.cin.frozen = s.cin.frozen ∧ slotKept .cameraFrozen s t ∧ t.vwc = s.vwc) ∧
    (same = false → t.cin.frozen = false ∧ t.vwc = s.vwc ∧
      if s.cin.frozen then noticeRaised .cameraFrozen 0 (BitVec.ofNat 32 s.cin.lastSig) s t else slotKept .cameraFrozen s t) := by
  intro same sets
  have record : t.cin = signatureTaken sig v.cin := by rw [ht, settle_cin, takeSignature_cin]
  have stream : t.cin.stream = v.cin.stream := by rw [record, (signatureTaken_keeps sig v.cin).1]
  have clock : t.clockNs = v.clockNs := by
    rw [ht, settle_clockNs]; exact (same_takeSignature (p := .clock) (by decide)).2 rfl
  have after : ∀ k ≠ NoticeKind.pendingDone, slotCore t (slotNumber k) = slotCore (takeSignature sig v) (slotNumber k) :=
    fun k h => by rw [ht, slotCore_settle (fun e => h (slotNumber_injective e))]
  have view : t.vwc = (takeSignature sig v).vwc := by rw [ht, settle_vwc]
  have differs : same = false ↔ v.cin.sameRun = 0 ∨ sig ≠ v.cin.lastSig := by
    rw [run, last]; simp [same]; tauto
  have equal : same = true ↔ ¬ (v.cin.sameRun = 0 ∨ sig ≠ v.cin.lastSig) := by rw [← differs]; simp
  have freeze : sets ↔ freezes sig v.cin := by
    simp only [sets, equal, freezes, stream, run, frozen]; tauto
  obtain ⟨clears, set, keeps⟩ := takeSignature_eq sig v
  refine ⟨?_, fun k => ?_, fun e n => ?_, fun d => ?_⟩
  · rw [record, signatureTaken, ← run]
    cases h : same
    · rw [if_pos (differs.1 h)]; rfl
    · rw [if_neg (equal.1 h)]; rfl
  · have eq := set (freeze.1 k)
    generalize hw : v.setCin (signatureTaken sig v.cin) = w at eq
    have ws : ∀ m, slotCore w m = slotCore v m := fun m => by rw [← hw]; rfl
    have wc : w.clockNs = v.clockNs := by rw [← hw]; rfl
    generalize hx : raise .cameraFrozen 1 (BitVec.ofNat 32 sig) w = x at eq
    have xv : x.vwc = s.vwc := by rw [← hx, ← vwc, ← hw]; exact (same_raise (p := .vwc) (by decide)).2 rfl
    have xc : x.che = s.che := by rw [← hx, ← che, ← hw]; exact raise_che
    have xs : ∀ m ≠ NoticeKind.cameraLockChange, m ≠ .cameraFrozen → slotCore x (slotNumber m) = slotCore s (slotNumber m) :=
      fun m hm hn => by rw [← hx, slotCore_raise_other hn, ws, slots m hm]
    have xt : x.clockNs = t.clockNs := by rw [clock, ← wc, ← hx]; exact raise_clockNs _ _ _ _
    rw [eq] at after view
    obtain ⟨live, other⟩ := pictureLost (s := s) (t := t) (u := x) .cameraFrozen xv (xs _ (by decide) (by decide))
      (after _ (by decide)) view (cabin_congr xt)
    refine ⟨?_, noticeRaised_of_raise (u := w) ((ws _).trans (slots _ (by decide))) ?_ (cabin_congr (wc.trans clock.symm)),
      fun l => ⟨(live l).1, (live l).2, ?_⟩, other⟩
    · obtain ⟨run0, same, run14, locked, -⟩ := freeze.1 k
      rw [record]
      simp [signatureTaken, run0, same, run14, locked]
    · rw [after _ (by decide), slotCore_viewCameraGone (by decide), hx]
    · refine pictureLost_chime (u := x) .cameraFrozen (by rw [xv]; exact l) xc (xs _ (by decide) (by decide)) (after _ (by decide))
        ?_ (cabin_congr ?_)
      · rw [ht, settle_che, eq]
      · rw [viewCameraGone_clockNs, xt]
  · have eq := keeps (equal.1 e) (fun k => n (freeze.2 k))
    rw [eq] at after view
    refine ⟨?_, slotKept_of_core ((after _ (by decide)).trans (slots _ (by decide))), view.trans vwc⟩
    have off : ¬ (v.cin.frozen = false ∧ 14 ≤ v.cin.sameRun ∧ v.cin.stream = .locked) := fun k =>
      n ⟨e, by rw [← run]; exact k.2.1, by rw [stream]; exact k.2.2, by rw [← frozen]; exact k.1⟩
    rw [record, signatureTaken, if_neg (equal.1 e), ← frozen]
    cases fz : v.cin.frozen
    · simp only [fz, true_and] at off
      simpa using off
    · rfl
  · have eq := clears (differs.1 d)
    rw [eq] at after view
    refine ⟨by rw [record, signatureTaken, if_pos (differs.1 d)], by rw [view, ← vwc]; exact clearFrozen_vwc v, ?_⟩
    exact frozenCleared (u := v) frozen last (slots _ (by decide)) (after _ (by decide)) (cabin_congr clock.symm)

/-- The good frame end of a frame, as `Obligations.GoodFrameEnd` states it: the buffers and the counts, the identical run, and the stream. -/
def GoodEndTaken (s : State) (f : CamFrame) (t : State) : Prop :=
  t.cin.frame = none ∧ (camBuf t.cin f.buf).st = .ready ∧ bufCount t.cin .ready = 1 ∧ bufCount t.cin .filling = 0 ∧
  bufCount t.cin .shown = bufCount s.cin .shown ∧
  t.cin.good = s.cin.good + 1 ∧ t.cin.malformed = s.cin.malformed ∧ t.cin.capW = f.w ∧ t.cin.capH = f.h ∧
  t.cin.lastSig = f.sig ∧
  (let same : Bool := s.cin.sameRun != 0 && f.sig == s.cin.lastSig
   let sets : Prop := same = true ∧ 14 ≤ s.cin.sameRun ∧ t.cin.stream = .locked ∧ s.cin.frozen = false
   t.cin.sameRun = (if same then min (s.cin.sameRun + 1) 15 else 1) ∧
   (sets → t.cin.frozen = true ∧ noticeRaised .cameraFrozen 1 (BitVec.ofNat 32 f.sig) s t ∧
     (s.vwc.view = .live → t.vwc = { s.vwc with view := .noSignal, startTimer := none, exitTimer := none } ∧
       noticeRaised .viewChange (BitVec.ofNat 32 (515 + if s.vwc.manual then 196608 else 0)) 8 s t ∧ internalArrival 2 s t) ∧
     (s.vwc.view ≠ .live → t.vwc = s.vwc)) ∧
   (same = true → ¬ sets → t.cin.frozen = s.cin.frozen ∧ slotKept .cameraFrozen s t ∧ t.vwc = s.vwc) ∧
   (same = false → t.cin.frozen = false ∧ t.vwc = s.vwc ∧
     if s.cin.frozen then noticeRaised .cameraFrozen 0 (BitVec.ofNat 32 s.cin.lastSig) s t else slotKept .cameraFrozen s t)) ∧
  (s.cin.stream = .acquiring → if s.cin.goodRun < 2 then t.cin.stream = .acquiring ∧ t.cin.goodRun = s.cin.goodRun + 1
    else t.cin.stream = .locked ∧ t.cin.badRun = 0) ∧
  (s.cin.stream = .locked → t.cin.stream = .locked ∧ t.cin.badRun = 0)

/-- R21, R23 to R25, R28, R31: a command that ends in the good end of a frame of the port, at a `u` that has the records of `s`. -/
theorem goodEndTaken_settle (frame : s.cin.frame = some f) (port : s.cin.source = .port) (ok : buffersOk s.cin = true)
    (cin : u.cin = s.cin) (vwc : u.vwc = s.vwc) (che : u.che = s.che) (wai : u.wai = s.wai) :
    GoodEndTaken s f (settle (goodEnd f u)) := by
  obtain ⟨-, -, -, filling⟩ := buffersOk_iff.1 ok
  obtain ⟨one, buf, -⟩ := filling f frame
  obtain ⟨ready, none, shown⟩ := bufCount_frameGood f s.cin
  generalize ht : settle (goodEnd f u) = t
  have capture : t.cin.capture = (frameGood f s.cin).capture := by rw [← ht, settle_cin, goodEnd_capture, cin]
  generalize hw : u.setCin (frameGood f s.cin) = w
  have eq : goodEnd f u = takeSignature f.sig (goodEndStream w) := by rw [goodEnd_eq, cin, if_pos port, hw]
  obtain ⟨run, frozen, last, view, chimes, -, slots⟩ := goodEndStream_keeps w
  have record : t.cin = signatureTaken f.sig (goodEndStream w).cin := by rw [← ht, settle_cin, eq, takeSignature_cin]
  obtain ⟨stream, goodRun, badRun, sig⟩ := signatureTaken_keeps f.sig (goodEndStream w).cin
  have moved := goodEndStream_stream w
  unfold GoodEndTaken
  refine ⟨capture_frame capture, ?_, ?_, ?_, ?_, ?_, ?_, ?_, ?_, by rw [record, sig], ?_, ?_⟩
  · rw [capture_camBuf capture]
    change (camBuf (moveBufs .filling .ready (moveBufs .ready .free s.cin)) f.buf).st = .ready
    simp [camBuf_moveBufs, buf]
  · rw [capture_bufCount capture, ready, one]
  · rw [capture_bufCount capture, none]
  · rw [capture_bufCount capture, shown]
  · rw [capture_good capture]; rfl
  · rw [capture_malformed capture]; rfl
  · rw [capture_capW capture]; rfl
  · rw [capture_capH capture]; rfl
  · refine signatureJoins (v := goodEndStream w) (run.trans ?_) (frozen.trans ?_) (last.trans ?_) (view.trans ?_)
      (chimes.trans ?_) (fun k h => (slots k h).trans ?_) (by rw [← ht, eq])
    · rw [← hw]; rfl
    · rw [← hw]; rfl
    · rw [← hw]; rfl
    · rw [← hw]; exact vwc
    · rw [← hw]; exact che
    · rw [← hw]; exact slotCore_of_wai wai
  · rw [record, stream, goodRun, badRun]
    rw [← hw] at moved ⊢
    exact moved

theorem exec_frameEnd_whole (p : onPort s f) (store : f.store = none) (lines : f.lines = f.h) :
    exec .frameEnd s = .next (settle (endFrame f s)) := by
  simp [exec, execFrameEnd, camFrameEnd, portFrame_eq_some.2 p, store, lines, finish]

/-- R21: the FRAME_END of a frame that is written is its good end. -/
theorem endFrame_of_idle (f : CamFrame) (h : s.fen.camWr.st = .idle) : endFrame f s = goodEnd f s := by
  unfold endFrame lineWritten
  simp only [State.setCin_fen, h, if_true, State.setCin_cin]
  rfl

/-- R21: the FRAME_END of a frame whose last line is still being written. -/
theorem endFrame_of_busy (f : CamFrame) (h : s.fen.camWr.st ≠ .idle) :
    endFrame f s = s.setCin { s.cin with frame := some { f with ended := true } } := by
  simp [endFrame, h]

theorem exec_localUnitCompletion (s : State) : exec .localUnitCompletion s = .next (settle (localDone s)) := rfl

/-- R151: the state at which the user of a unit goes on: the port is free, and what the unit writes is in local memory. -/
def unitWritten (q : LocalUnit) (s : State) : State :=
  (s.setFen { s.fen with localUnit := none }).setLocalMem
    (q.writes.foldl (fun m w => Memory.writeBytes localSize m w.1 w.2) s.localMem)

/-- R151: the unit completes, and its user goes on where it still wants it. -/
theorem localDone_of_unit {q : LocalUnit} (h : s.fen.localUnit = some q) :
    localDone s = if q.live then localMoved q (unitWritten q s) else unitWritten q s := by
  have pieces : ∀ (ws : List (Nat × List Byte)) (u : State), writePieces ws u = u.setLocalMem (writePieces ws u).localMem := by
    intro ws
    induction ws with
    | nil => exact fun u => rfl
    | cons w ws ih => exact fun u => ih _
  have written : writePieces q.writes (s.setFen { s.fen with localUnit := none }) = unitWritten q s := by
    rw [pieces, writePieces_localMem]; rfl
  simp only [localDone, h, written]

/-- R144: the last bytes of the last range end the transfer. -/
theorem moved_of_le {c : Channel} {r : Range} {n : Nat} (h : c.toMove = [r]) (le : r.len ≤ n) : c.moved n = idleChannel := by
  simp [Channel.moved, h, advance, le]

/-- R144: some bytes of the last range leave the rest of it. -/
theorem moved_of_lt {c : Channel} {r : Range} {n : Nat} (h : c.toMove = [r]) (lt : n < r.len) :
    c.moved n = { c with toMove := [⟨r.addr + n, r.len - n⟩] } := by
  simp [Channel.moved, h, advance, Nat.not_le.2 lt]

/-- R21, R151: CAM_WR's last unit of a line, written at `s`. -/
theorem cameraWritten_of_le {q : LocalUnit} {r : Range} (h : s.fen.camWr.toMove = [r]) (le : r.len ≤ q.len) :
    cameraWritten q s = lineWritten (s.setFen { s.fen with camWr := idleChannel, camData := s.fen.camData.drop q.len }) := by
  unfold cameraWritten
  rw [moved_of_le h le]
  rfl

/-- Settles O17. -/
theorem goodFrameEnd : Obligations.GoodFrameEnd := by
  refine ⟨fun s f p store lines idle ok => ⟨_, exec_frameEnd_whole p store lines, ?_⟩,
    fun s f p store lines busy => ⟨_, exec_frameEnd_whole p store lines, ?_⟩,
    fun s f q r port frame ended ok unit user live toMove le => ⟨_, exec_localUnitCompletion s, ?_⟩⟩
  · rw [endFrame_of_idle f idle]
    exact goodEndTaken_settle p.2.1 p.1 ok rfl rfl rfl rfl
  · rw [endFrame_of_busy f busy]
    refine ⟨settle_cin _, camWr_of_camPort (camPort_settle _), fun x h => ?_⟩
    simp only [List.mem_cons, List.not_mem_nil, or_false, not_or] at h
    simp [h]
  · have done : localDone s = goodEnd f ((unitWritten q s).setFen
        { (unitWritten q s).fen with camWr := idleChannel, camData := s.fen.camData.drop q.len }) := by
      rw [localDone_of_unit unit, if_pos live, localMoved, user]
      simp only
      rw [cameraWritten_of_le (r := r) (by exact toMove) le]
      unfold lineWritten
      simp only [State.setFen_cin, show (unitWritten q s).cin = s.cin from rfl, frame, ended, if_true]
      rfl
    rw [done]
    refine ⟨?_, goodEndTaken_settle frame port ok rfl rfl rfl rfl⟩
    rw [camWr_of_camPort (camPort_settle _), camWr_of_camPort (camPort_goodEnd _ _)]
    rfl

end GoodEnd

/-! ## Test mode (R33 to R36) -/

section Source
variable {s t u : State} {r : RecordRef} {src : CamSource} {n : NoticeKind}

/-- R176: the record's answer is placed in the scan before its owner takes it. -/
def answerPlaced (r : RecordRef) (s : State) : State :=
  s.setWai { s.wai with scanQueue := insertAnswer (.answer r answerPending.status 0 false false) s.wai.scanQueue }

/-- R176: a record that WAI can take reaches its owner, and its answer is entered. -/
theorem request_of_canTake {own : LongReq → State → State × Answer} (h : canTake r s = true) : request r own s =
    .next (settle (enterAnswer r (own ⟨some r⟩ (answerPlaced r s)).2 (own ⟨some r⟩ (answerPlaced r s)).1)) := by
  simp only [canTake, Bool.and_eq_true, beq_iff_eq] at h
  simp [request, h.1, takeRecord, h.2, finish, answerPlaced]

theorem slotCore_enterAnswer (a : Answer) (n : Nat) : slotCore (enterAnswer r a s) n = slotCore s n := (rfl)
theorem enterAnswer_cin (a : Answer) : (enterAnswer r a s).cin = s.cin := (rfl)
theorem enterAnswer_clockNs (a : Answer) : (enterAnswer r a s).clockNs = s.clockNs := (rfl)

/-- R33: the frame in progress is abandoned, and the source changes. -/
def sourceTaken (src : CamSource) (s : State) : State :=
  let v := if s.cin.frame.isSome then dropFrame (stopLine s) else s
  v.setCin { v.cin with source := src }

/-- R26, R33: the stream starts over. -/
def streamRestarted (s : State) : State :=
  if s.cin.stream = .acquiring then s.setCin { s.cin with goodRun := 0 } else changeStream .acquiring 5 s

theorem switchSource_eq (src : CamSource) (s : State) : switchSource src s =
    let v := streamRestarted (sourceTaken src s)
    let w := clearFrozen (v.setCin { v.cin with sameRun := 0 })
    w.setCin { w.cin with deadline := some (now w + 100000) } := (rfl)

/-- R33: what is abandoned with the frame leaves the stream, and the notice slots. -/
theorem sourceTaken_keeps (src : CamSource) (s : State) : (sourceTaken src s).cin.stream = s.cin.stream ∧
    (sourceTaken src s).cin.frozen = s.cin.frozen ∧ (sourceTaken src s).cin.lastSig = s.cin.lastSig ∧
    (sourceTaken src s).clockNs = s.clockNs ∧ ∀ m, slotCore (sourceTaken src s) m = slotCore s m := by
  have stopped : (stopLine s).wai = s.wai := (same_stopLine (p := .wai) (by decide)).2 rfl
  have clock : (stopLine s).clockNs = s.clockNs := (same_stopLine (p := .clock) (by decide)).2 rfl
  unfold sourceTaken
  split
  · have dropped : (dropFrame (stopLine s)).cin = frameDropped s.cin := by rw [dropFrame_cin, stopLine_cin]
    simp only [State.setCin_cin, dropped]
    exact ⟨rfl, rfl, rfl, clock, fun m => slotCore_of_wai stopped⟩
  · exact ⟨rfl, rfl, rfl, rfl, fun _ => rfl⟩

@[simp] theorem streamRestarted_clockNs (s : State) : (streamRestarted s).clockNs = s.clockNs := by
  unfold streamRestarted
  split <;> simp

/-- R33: the stream is ACQUIRING, with no run and FROZEN clear. -/
theorem switchSource_stream (src : CamSource) (s : State) : (switchSource src s).cin.stream = .acquiring ∧
    (switchSource src s).cin.goodRun = 0 ∧ (switchSource src s).cin.sameRun = 0 ∧ (switchSource src s).cin.frozen = false ∧
    (switchSource src s).cin.deadline = some (now s + 100000) ∧ (switchSource src s).clockNs = s.clockNs := by
  obtain ⟨-, -, -, clock, -⟩ := sourceTaken_keeps src s
  rw [switchSource_eq]
  generalize sourceTaken src s = u at clock
  have restarted : (streamRestarted u).cin.stream = .acquiring ∧ (streamRestarted u).cin.goodRun = 0 := by
    unfold streamRestarted
    split
    · exact ⟨‹_›, rfl⟩
    · rw [changeStream_cin]
      exact ⟨streamChanged_stream _ _, by unfold streamChanged; split <;> rfl⟩
  simp [restarted, now, clock]

/-- R32, R33: FROZEN is cleared once at a change of the source at `u`, which has FROZEN, the last signature and what the slot of `s` records,
seen from `s` and at a `t` that keeps what it left. -/
theorem switchSource_frozen (frozen : u.cin.frozen = s.cin.frozen) (sig : u.cin.lastSig = s.cin.lastSig)
    (before : ∀ m, slotCore u m = slotCore s m)
    (after : slotCore t (slotNumber .cameraFrozen) = slotCore (switchSource src u) (slotNumber .cameraFrozen))
    (time : cabin u = cabin t) :
    if s.cin.frozen then noticeRaised .cameraFrozen 0 (BitVec.ofNat 32 s.cin.lastSig) s t else slotKept .cameraFrozen s t := by
  obtain ⟨-, f, l, clock, slots⟩ := sourceTaken_keeps src u
  rw [switchSource_eq] at after
  generalize sourceTaken src u = v at f l clock slots after
  replace f := f.trans frozen
  replace l := l.trans sig
  replace slots := fun m => (slots m).trans (before m)
  replace clock := (cabin_congr clock).trans time
  simp only [slotCore_setCin] at after
  by_cases locked : v.cin.stream = .locked
  · -- leaving LOCKED has cleared it already
    have entered : (enteredStream .acquiring v.cin).frozen = s.cin.frozen ∧
        (enteredStream .acquiring v.cin).lastSig = s.cin.lastSig := ⟨f, l⟩
    have clear : (streamRestarted v).cin.frozen = false := by
      rw [streamRestarted, if_neg (by simp [locked]), changeStream_cin, streamChanged, if_pos locked]
    have idle : ∀ w : State, w.cin.frozen = false → clearFrozen w = w := fun w h => by simp [clearFrozen, h]
    rw [idle _ (by exact clear), slotCore_setCin, streamRestarted, if_neg (by simp [locked]),
      changeStream_of_locked _ _ locked, slotCore_viewCameraGone (by decide)] at after
    refine frozenCleared (u := unlocked .acquiring 5 v) ?_ ?_ ?_ after ?_
    · simp [unlocked, entered]
    · simp [unlocked, entered]
    · simp [unlocked, slots]
    · rw [← clock]; simp [unlocked, cabin, now]
  · refine frozenCleared (u := (streamRestarted v).setCin { (streamRestarted v).cin with sameRun := 0 }) ?_ ?_ ?_ after ?_
    all_goals unfold streamRestarted
    · split
      · exact f
      · rw [changeStream_of_unlocked _ _ locked]; simp [enteredStream, f]
    · split
      · exact l
      · rw [changeStream_of_unlocked _ _ locked]; simp [enteredStream, l]
    · split
      · exact slots _
      · rw [changeStream_of_unlocked _ _ locked]; simp [slots]
    · rw [← clock]
      exact cabin_congr (streamRestarted_clockNs v)

/-- R33: a change of the source raises the notices of the stream, of FROZEN and of the view only. -/
theorem slotCore_switchSource (h : n ∉ viewNotices) (l : n ≠ .cameraLockChange) (f : n ≠ .cameraFrozen) :
    slotCore (switchSource src s) (slotNumber n) = slotCore s (slotNumber n) := by
  obtain ⟨-, -, -, -, slots⟩ := sourceTaken_keeps src s
  rw [switchSource_eq]
  simp only [slotCore_setCin, slotCore_clearFrozen f]
  rw [← slots]
  unfold streamRestarted
  split
  · rfl
  · exact slotCore_changeStream h l f

theorem exec_cameraTest (h : canTake r s = true) (mode : Byte) : exec (.cameraTest r mode) s =
    .next (settle (enterAnswer r (ownCameraTest mode (answerPlaced r s)).2 (ownCameraTest mode (answerPlaced r s)).1)) :=
  request_of_canTake h

/-- R33, R35: the capture side after a change of the source. -/
theorem switchSource_frame (src : CamSource) (s : State) : (switchSource src s).cin.frame = none ∧
    (switchSource src s).cin.source = src ∧ bufCount (switchSource src s).cin .ready = bufCount s.cin .ready := by
  have capture := switchSource_capture src s
  refine ⟨?_, capture_source capture, ?_⟩
  · rw [capture_frame capture]
    cases h : s.cin.frame with
    | none => exact h
    | some f => rfl
  · rw [capture_bufCount capture]
    split
    · exact bufCount_moveBufs_other (by decide) (by decide)
    · rfl

/-- R33 to R35: mode 1 enters test mode. -/
theorem cameraTest_enters (take : canTake r s = true) (view : s.vwc.view = .off) (reverse : s.vsr.reverse = false)
    (port : s.cin.source = .port) : ∃ t, exec (.cameraTest r 1) s = .next t ∧ t.cin.source = .test ∧ t.cin.stream = .acquiring ∧
      t.cin.goodRun = 0 ∧ t.cin.frame = none ∧ t.cin.deadline = some (now s + 100000) ∧ t.cin.sameRun = 0 ∧ t.cin.frozen = false ∧
      t.cin.testEntry = now s ∧ t.cin.nextTest = now s ∧ bufCount t.cin .ready = bufCount s.cin .ready ∧
      (if s.cin.frozen then noticeRaised .cameraFrozen 0 (BitVec.ofNat 32 s.cin.lastSig) s t else slotKept .cameraFrozen s t) := by
  have entered : ownCameraTest 1 (answerPlaced r s) = (enterTest (answerPlaced r s), answerDone) := by
    simp [ownCameraTest, answerPlaced, view, reverse, port]
  refine ⟨_, exec_cameraTest take 1, ?_⟩
  rw [entered]
  generalize ht : settle (enterAnswer r answerDone (enterTest (answerPlaced r s))) = t
  obtain ⟨stream, goodRun, sameRun, frozen, deadline, clock⟩ := switchSource_stream .test (answerPlaced r s)
  obtain ⟨frame, source, ready⟩ := switchSource_frame .test (answerPlaced r s)
  have record : t.cin = { (switchSource .test (answerPlaced r s)).cin with
      testEntry := now (switchSource .test (answerPlaced r s)), nextTest := now (switchSource .test (answerPlaced r s)) } := by
    rw [← ht, settle_cin]; rfl
  have time : now (switchSource .test (answerPlaced r s)) = now s := now_congr clock
  rw [time] at record
  rw [record]
  refine ⟨source, stream, goodRun, frame, deadline, sameRun, frozen, rfl, rfl, ready, ?_⟩
  refine switchSource_frozen (src := .test) (u := answerPlaced r s) rfl rfl (fun _ => rfl) ?_ ?_
  · rw [← ht, slotCore_settle (by decide), slotCore_enterAnswer]; exact slotCore_of_wai rfl
  · exact (cabin_congr (by rw [← ht, settle_clockNs, enterAnswer_clockNs]; exact clock)).symm

/-- R33, R35, R36: mode 0 leaves test mode. -/
theorem cameraTest_leaves (take : canTake r s = true) (test : s.cin.source = .test) :
    ∃ t, exec (.cameraTest r 0) s = .next t ∧ t.cin.source = .port ∧ t.cin.stream = .acquiring ∧ t.cin.frame = none ∧
      noticeRaised .cameraTestEnd 1 (BitVec.ofNat 32 (min ((now s - s.cin.testEntry) / 1000) 0xFFFFFFFF)) s t := by
  have left : ownCameraTest 0 (answerPlaced r s) = (leaveTest 1 (answerPlaced r s), answerDone) := by
    simp [ownCameraTest, answerPlaced, test]
  refine ⟨_, exec_cameraTest take 0, ?_⟩
  rw [left]
  generalize ht : settle (enterAnswer r answerDone (leaveTest 1 (answerPlaced r s))) = t
  obtain ⟨stream, -, -, -, -, clock⟩ := switchSource_stream .port (answerPlaced r s)
  obtain ⟨frame, source, -⟩ := switchSource_frame .port (answerPlaced r s)
  have record : t.cin = (switchSource .port (answerPlaced r s)).cin := by
    rw [← ht, settle_cin, enterAnswer_cin]; exact raise_cin _ _ _ _
  have time : now (switchSource .port (answerPlaced r s)) = now s := now_congr clock
  rw [record, ← time]
  refine ⟨source, stream, frame, noticeRaised_of_raise (u := switchSource .port (answerPlaced r s)) ?_ ?_ ?_⟩
  · exact slotCore_switchSource (by decide) (by decide) (by decide)
  · rw [← ht, slotCore_settle (by decide), slotCore_enterAnswer]; rfl
  · refine (cabin_congr ?_).symm
    rw [← ht, settle_clockNs, enterAnswer_clockNs]
    exact raise_clockNs _ _ _ _

end Source

/-! ### The generator (R34) -/

section Generator
variable {s t u : State} {f : CamFrame} {n : Nat}

/-- R34: the generator hands the next line of a frame with a line left. -/
theorem nextTestRow_of_open (test : s.cin.source = .test) (frame : s.cin.frame = some f) (going : f.ended = false)
    (left : f.lines < f.h) : nextTestRow s = handRow f (testLine f.w) s := by
  simp [nextTestRow, test, frame, going, left]

theorem nextTestRow_of_port (port : s.cin.source = .port) : nextTestRow s = s := by
  simp [nextTestRow, port]

/-- R145: a transfer of one range of some bytes. -/
theorem started_one {a len : Nat} {d : Direction} (h : 0 < len) :
    (Channel.started [⟨a, len⟩] d).st = .active ∧ (Channel.started [⟨a, len⟩] d).nextAddress = a := by
  simp [Channel.started, Channel.nextAddress, h]

/-- R23, R34: local memory after the next `n` lines of a generated frame, each at its row. -/
def generatedRows (f : CamFrame) (n : Nat) (m : Memory) : Memory :=
  (List.range n).foldl (fun m k => Memory.writeBytes localSize m
    (2048000 * f.buf + (f.lines + k) * (2 * f.w)) (storedLine f.mirror (testLine f.w))) m

/-- The first of the rows, and the others as those of the frame with that line taken. -/
theorem generatedRows_succ (f : CamFrame) (sig n : Nat) (m : Memory) :
    generatedRows f (n + 1) m = generatedRows { f with lines := f.lines + 1, store := none, sig := sig } n
      (Memory.writeBytes localSize m (2048000 * f.buf + f.lines * (2 * f.w)) (storedLine f.mirror (testLine f.w))) := by
  unfold generatedRows
  rw [List.range_succ_eq_map, List.foldl_cons, List.foldl_map]
  congr 1
  funext m k
  rw [Nat.succ_eq_add_one, show f.lines + (k + 1) = f.lines + 1 + k by omega]

/-- R23, R34: the lines that are left are handed one after another, each written before the next; the last one is on its way. -/
theorem restOfTest_rows (n : Nat) (test : s.cin.source = .test) (frame : s.cin.frame = some f) (going : f.ended = false)
    (wide : 0 < f.w) (left : f.lines + (n + 1) ≤ f.h) :
    (∃ g, (restOfTest (n + 1) s).cin = { s.cin with frame := some { f with lines := f.lines + (n + 1), store := none, sig := g } }) ∧
    (restOfTest (n + 1) s).fen.camWr = Channel.started [⟨2048000 * f.buf + (f.lines + n) * (2 * f.w), 2 * f.w⟩] .write ∧
    (restOfTest (n + 1) s).fen.camData = storedLine f.mirror (testLine f.w) ∧
    (restOfTest (n + 1) s).localMem = generatedRows f n (flushedMemory s) := by
  have cin : (finishLine s).cin = s.cin := finishLine_cin_of_open (fun g k => by
    obtain rfl := Option.some.inj (frame.symm.trans k); exact going)
  have handed : nextTestRow (finishLine s) = handRow f (testLine f.w) (finishLine s) :=
    nextTestRow_of_open (by rw [cin, test]) (by rw [cin, frame]) going (by omega)
  obtain ⟨channel, data⟩ := handRow_fen f (testLine f.w) (finishLine s)
  have mem : (handRow f (testLine f.w) (finishLine s)).localMem = flushedMemory s := (finishLine_spec s).1
  have record := handRow_cin f (testLine f.w) (finishLine s)
  rw [cin] at record
  induction n generalizing s f with
  | zero =>
    rw [restOfTest, restOfTest, handed, record]
    exact ⟨⟨_, rfl⟩, channel, data, mem⟩
  | succ n ih =>
    generalize hg : ({ f with
      lines := f.lines + 1, store := none
      sig := f.sig + lineSignature f.w f.h f.lines (storedLine f.mirror (testLine f.w)) } : CamFrame) = g at record
    generalize hv : handRow f (testLine f.w) (finishLine s) = v at *
    have gf : g = { f with lines := f.lines + 1, store := none, sig := g.sig } := by rw [← hg]
    have vopen : ∀ x, v.cin.frame = some x → x.ended = false := fun x k => by
      rw [record] at k; obtain rfl := Option.some.inj k; rw [gf]; exact going
    have vtest : v.cin.source = .test := by rw [record]; exact test
    have vframe : v.cin.frame = some g := by rw [record]
    have glines : g.lines = f.lines + 1 := by rw [gf]
    have gh : g.h = f.h := by rw [gf]
    have gw : g.w = f.w := by rw [gf]
    have gopen : g.ended = false := by rw [gf]; exact going
    have vcin := finishLine_cin_of_open vopen
    obtain ⟨busy, address⟩ := started_one (a := 2048000 * f.buf + f.lines * (2 * f.w)) (len := 2 * f.w) (d := .write) (by omega)
    have flushed : flushedMemory v = Memory.writeBytes localSize (flushedMemory s) (2048000 * f.buf + f.lines * (2 * f.w))
        (storedLine f.mirror (testLine f.w)) := by
      unfold flushedMemory at mem ⊢
      rw [if_neg (by rw [channel, busy]; decide), mem, channel, address, data]
    obtain ⟨⟨sig, cin'⟩, camWr, camData, memory⟩ := ih vtest vframe gopen (by rw [gw]; exact wide) (by rw [glines, gh]; omega) vcin
      (nextTestRow_of_open (by rw [vcin, vtest]) (by rw [vcin, vframe]) gopen (by rw [glines, gh]; omega))
      (handRow_fen g _ _).1 (handRow_fen g _ _).2 (finishLine_spec v).1 (by rw [handRow_cin, vcin])
    rw [restOfTest, handed]
    refine ⟨⟨sig, ?_⟩, ?_, ?_, ?_⟩
    · rw [cin', record, gf]
      simp only [Nat.add_assoc, Nat.add_comm 1]
    · rw [camWr, gf]
      simp only [Nat.add_assoc, Nat.add_comm 1]
    · rw [camData, gf]
    · rw [memory, flushed, generatedRows_succ f g.sig, ← gf]

theorem exec_testFrameEnd (test : s.cin.source = .test) : exec .testFrameEnd s = .next (settle (endTestFrame s)) := by
  simp [exec, execTestFrameEnd, test, finish]

theorem exec_testFrameStart (test : s.cin.source = .test) : exec .testFrameStart s = .next (settle (startTestFrame s)) := by
  simp [exec, execTestFrameStart, test, finish]

/-- R34: with no generated frame whose end has not been sent there is nothing to end. -/
theorem endTestFrame_of_ended (h : ∀ f, s.cin.frame = some f → f.ended = true) : endTestFrame s = s := by
  unfold endTestFrame
  cases k : s.cin.frame with
  | none => rfl
  | some f => simp [h f k]

/-- R34: a generated frame with lines left ends with its last one on its way. -/
theorem endTestFrame_of_left (test : s.cin.source = .test) (frame : s.cin.frame = some f) (going : f.ended = false)
    (wide : 0 < f.w) (left : f.lines < f.h) :
    (∃ g, (endTestFrame s).cin.frame = some { f with lines := f.h, store := none, sig := g, ended := true }) ∧
    (endTestFrame s).fen.camWr = Channel.started [⟨2048000 * f.buf + (f.h - 1) * (2 * f.w), 2 * f.w⟩] .write ∧
    (endTestFrame s).fen.camData = storedLine f.mirror (testLine f.w) ∧
    (endTestFrame s).localMem = generatedRows f (f.h - 1 - f.lines) (flushedMemory s) ∧
    (endTestFrame s).clockNs = max s.clockNs (s.cin.testEnd * 1000) := by
  obtain ⟨n, hn⟩ : ∃ n, f.h - f.lines = n + 1 := ⟨f.h - f.lines - 1, by omega⟩
  obtain ⟨⟨g, cin⟩, camWr, camData, mem⟩ := restOfTest_rows (s := reach s.cin.testEnd s) n test frame going wide (by omega)
  have clock : (restOfTest (n + 1) (reach s.cin.testEnd s)).clockNs = max s.clockNs (s.cin.testEnd * 1000) :=
    (same_restOfTest (p := .clock) (s := reach s.cin.testEnd s) (by decide) (by decide)).2 rfl
  have busy : (restOfTest (n + 1) (reach s.cin.testEnd s)).fen.camWr.st ≠ .idle := by
    rw [camWr, (started_one (by omega)).1]; decide
  have ended : endTestFrame s = endFrame { f with lines := f.lines + (n + 1), store := none, sig := g }
      (restOfTest (n + 1) (reach s.cin.testEnd s)) := by
    simp [endTestFrame, frame, going, hn, cin]
  rw [ended, endFrame_of_busy _ busy]
  have row : f.lines + n = f.h - 1 := by omega
  have count : f.h - 1 - f.lines = n := by omega
  refine ⟨⟨g, ?_⟩, ?_, camData, ?_, clock⟩
  · rw [State.setCin_cin, show f.lines + (n + 1) = f.h by omega]
  · rw [State.setCin_fen, camWr, row]
  · rw [State.setCin_localMem, mem, count]; rfl

/-- R34: a generated frame whose lines are all handed. -/
theorem endTestFrame_of_full (frame : s.cin.frame = some f) (going : f.ended = false) (full : f.h ≤ f.lines) :
    endTestFrame s = endFrame f (reach s.cin.testEnd s) := by
  have none : f.h - f.lines = 0 := by omega
  have kept : (reach s.cin.testEnd s).cin.frame = some f := frame
  simp [endTestFrame, frame, going, none, restOfTest, kept]

/-- R34: once a generated frame is ended, none is in progress whose end has not been sent. -/
theorem endTestFrame_ends (s : State) : ∀ f, (endTestFrame s).cin.frame = some f → f.ended = true := by
  have last : ∀ (g : CamFrame) (u : State) (f : CamFrame), (endFrame g u).cin.frame = some f → f.ended = true := by
    intro g u f h
    by_cases i : u.fen.camWr.st = .idle
    · rw [endFrame_of_idle g i, goodEnd_frame] at h; cases h
    · rw [endFrame_of_busy g i] at h
      obtain rfl := Option.some.inj h
      rfl
  intro f h
  unfold endTestFrame at h
  split at h
  · rename_i k; rw [k] at h; cases h
  · rename_i x k
    split at h
    · rw [k] at h
      obtain rfl := Option.some.inj h
      assumption
    · simp only at h
      split at h
      · exact last _ _ _ h
      · rename_i k; rw [k] at h; cases h

theorem finishLine_source (s : State) : (finishLine s).cin.source = s.cin.source := by
  by_cases o : ∀ f, s.cin.frame = some f → f.ended = false
  · rw [finishLine_cin_of_open o]
  · by_cases i : s.fen.camWr.st = .idle
    · rw [finishLine_of_idle i]
    · simp only [not_forall, Bool.not_eq_false] at o
      obtain ⟨f, k, e⟩ := o
      rw [finishLine_of_ended i k e, capture_source (goodEnd_capture _ _), ← flushLine_cin s]
      rfl

theorem nextTestRow_source (s : State) : (nextTestRow s).cin.source = s.cin.source := by
  obtain e | ⟨f, -, -, -, -, e⟩ := nextTestRow_cases s
  · rw [e]
  · rw [e]; rfl

/-- R34: a generated frame that ends leaves the source. -/
theorem endTestFrame_source (s : State) : (endTestFrame s).cin.source = s.cin.source := by
  have rest : ∀ (n : Nat) (u : State), (restOfTest n u).cin.source = u.cin.source := by
    intro n
    induction n with
    | zero => exact fun u => rfl
    | succ n ih => exact fun u => by rw [restOfTest, ih, nextTestRow_source, finishLine_source]
  have last : ∀ (g : CamFrame) (u : State), (endFrame g u).cin.source = u.cin.source := fun g u => by
    by_cases i : u.fen.camWr.st = .idle
    · rw [endFrame_of_idle g i, capture_source (goodEnd_capture _ _)]; rfl
    · rw [endFrame_of_busy g i]; rfl
  unfold endTestFrame
  split
  · rfl
  · split
    · rfl
    · simp only
      split
      · rw [last, rest]; rfl
      · rw [rest]; rfl

/-- R34: the state at which the generator hands a frame's first line. -/
def testFrameBegun (s : State) : State :=
  let v := camFrameStart (reach s.cin.nextTest s)
  v.setCin { v.cin with nextTest := s.cin.nextTest + 33333, testEnd := s.cin.nextTest + 30000 }

theorem startTestFrame_eq (s : State) : startTestFrame s = nextTestRow (testFrameBegun (endTestFrame s)) := (rfl)

/-- R23, R34: of local memory the start of a generated frame writes what is left of a line, once the frame before it has ended. -/
theorem startTestFrame_localMem (s : State) : (startTestFrame s).localMem = flushedMemory (endTestFrame s) := by
  have row : ∀ u : State, (nextTestRow u).localMem = u.localMem := fun u =>
    (same_nextTestRow (p := .localMem) (by decide) (by decide)).2 rfl
  rw [startTestFrame_eq, row]
  exact (camFrameStart_writes (reach (endTestFrame s).cin.nextTest (endTestFrame s))).1

theorem flushedMemory_settle (s : State) : flushedMemory (settle s) = flushedMemory s := by
  have port := camPort_settle s
  unfold flushedMemory
  rw [settle_localMem, camWr_of_camPort port, camData_of_camPort port]

/-- R22, R34: the generator starts a frame, and hands its first line. -/
theorem testFrameStart_begins (test : s.cin.source = .test) (none : s.cin.frame = none) (t : State)
    (ht : t = settle (startTestFrame s)) :
    t.clockNs = max s.clockNs (s.cin.nextTest * 1000) ∧ t.cin.nextTest = s.cin.nextTest + 33333 ∧
    t.cin.testEnd = s.cin.nextTest + 30000 ∧ t.cin.deadline = some (now t + 100000) ∧
    ∃ f, t.cin.frame = some f ∧ f.w = s.sto.running.camW / 2 * 2 ∧ f.h = s.sto.running.camH ∧ f.lines = min 1 f.h ∧
      f.ended = false ∧ (0 < f.h → t.fen.camWr = Channel.started [⟨2048000 * f.buf, 2 * f.w⟩] .write ∧
        t.fen.camData = storedLine f.mirror (testLine f.w)) := by
  have noFrame : ∀ {p : CamFrame → Prop} f, s.cin.frame = some f → p f := fun f k => by rw [none] at k; cases k
  have cin : (finishLine (reach s.cin.nextTest s)).cin = s.cin := finishLine_cin_of_open (s := reach s.cin.nextTest s) noFrame
  generalize hv : frameStartStream (finishLine (reach s.cin.nextTest s)) = v
  have begun : camFrameStart (reach s.cin.nextTest s) = beginFrame v := by
    rw [camFrameStart_of_none (by rw [cin, none]), hv]
  have clock : v.clockNs = max s.clockNs (s.cin.nextTest * 1000) := by rw [← hv]; simp
  have sto : v.sto = s.sto := by rw [← hv]; simp [reach, reachNs]
  have capture : v.cin.capture = s.cin.capture := by rw [← hv, frameStartStream_capture, cin]
  have deadline : v.cin.deadline = some (now v + 100000) := by rw [← hv]; exact congrArg Cin.deadline (frameStartStream_cin _)
  obtain ⟨-, -, dl, -, -, -, -, -, source, -⟩ := beginFrame_keeps v
  generalize hb : testFrameBegun s = b
  have bcin : b.cin = { (beginFrame v).cin with
      nextTest := s.cin.nextTest + 33333, testEnd := s.cin.nextTest + 30000 } := by rw [← hb, testFrameBegun, begun]; rfl
  have bclock : b.clockNs = v.clockNs := by rw [← hb, testFrameBegun, begun]; rfl
  obtain ⟨f, frame, wide, high, lines, going⟩ : ∃ f, b.cin.frame = some f ∧ f.w = s.sto.running.camW / 2 * 2 ∧
      f.h = s.sto.running.camH ∧ f.lines = 0 ∧ f.ended = false := by
    rw [bcin, ← sto]; exact ⟨_, rfl, rfl, rfl, rfl, rfl⟩
  have btest : b.cin.source = .test := by
    rw [bcin]; exact source.trans ((capture_source capture).trans test)
  have bdeadline : b.cin.deadline = some (now v + 100000) := by rw [bcin]; exact dl.trans deadline
  have started : startTestFrame s = nextTestRow b := by rw [startTestFrame_eq, endTestFrame_of_ended noFrame, hb]
  rw [started] at ht
  have tclock : t.clockNs = v.clockNs := by
    rw [ht, settle_clockNs, ← bclock]; exact (same_nextTestRow (p := .clock) (by decide) (by decide)).2 rfl
  rw [tclock, now_congr tclock]
  by_cases rows : 0 < f.h
  · obtain ⟨channel, data⟩ := handRow_fen f (testLine f.w) b
    rw [nextTestRow_of_open btest frame going (by omega)] at ht
    have record : t.cin = (handRow f (testLine f.w) b).cin := by rw [ht, settle_cin]
    rw [record, handRow_cin, bcin]
    refine ⟨clock, rfl, rfl, by rw [← bdeadline, bcin], _, rfl, wide, high, (show f.lines + 1 = min 1 f.h by omega), going, fun _ => ?_⟩
    rw [ht, camWr_of_camPort (camPort_settle _), camData_of_camPort (camPort_settle _), channel, data, lines]
    exact ⟨by simp, rfl⟩
  · have same : nextTestRow b = b := by simp [nextTestRow, frame, show ¬ f.lines < f.h by omega]
    rw [same] at ht
    have record : t.cin = b.cin := by rw [ht, settle_cin]
    rw [record]
    exact ⟨clock, by rw [bcin], by rw [bcin], bdeadline, f, frame, wide, high, by omega, going, fun k => absurd k rows⟩

/-- R34, R23: a generated frame ends. -/
theorem testFrameEnd_ends (test : s.cin.source = .test) (frame : s.cin.frame = some f) (going : f.ended = false)
    (wide : 0 < f.w) (t : State) (ht : t = settle (endTestFrame s)) :
    t.clockNs = max s.clockNs (s.cin.testEnd * 1000) ∧
      (f.lines < f.h →
        (∃ g, t.cin.frame = some { f with lines := f.h, store := none, sig := g, ended := true }) ∧
        t.fen.camWr = Channel.started [⟨2048000 * f.buf + (f.h - 1) * (2 * f.w), 2 * f.w⟩] .write ∧
        t.fen.camData = storedLine f.mirror (testLine f.w)) ∧
      (f.lines = f.h → s.fen.camWr.st ≠ .idle →
        t.cin = { s.cin with frame := some { f with ended := true } } ∧ t.fen.camWr = s.fen.camWr ∧ t.fen.camData = s.fen.camData) ∧
      (f.lines = f.h → s.fen.camWr.st = .idle →
        t.cin.frame = none ∧ t.cin.good = s.cin.good + 1 ∧ t.cin.malformed = s.cin.malformed ∧ t.cin.capW = f.w ∧ t.cin.capH = f.h) ∧
      t.localMem = (if f.lines < f.h then generatedRows f (f.h - 1 - f.lines) (flushedMemory s) else s.localMem) := by
  have port := camPort_settle (endTestFrame s)
  rw [ht, settle_cin, settle_clockNs, settle_localMem, camWr_of_camPort port, camData_of_camPort port]
  by_cases left : f.lines < f.h
  · obtain ⟨cin, camWr, camData, mem, clock⟩ := endTestFrame_of_left test frame going wide left
    rw [if_pos left]
    exact ⟨clock, fun _ => ⟨cin, camWr, camData⟩, fun e => absurd e (by omega), fun e => absurd e (by omega), mem⟩
  · have full := endTestFrame_of_full frame going (Nat.not_lt.1 left)
    have clock : (endTestFrame s).clockNs = max s.clockNs (s.cin.testEnd * 1000) := by
      rw [full]; exact (same_endFrame (p := .clock) (s := reach s.cin.testEnd s) (by decide)).2 rfl
    have mem : (endTestFrame s).localMem = s.localMem := by
      rw [full]; exact (same_endFrame (p := .localMem) (s := reach s.cin.testEnd s) (by decide)).2 rfl
    refine ⟨clock, fun k => absurd k left, fun _ busy => ?_, fun _ idle => ?_, by rw [if_neg left, mem]⟩
    · rw [full, endFrame_of_busy (s := reach s.cin.testEnd s) f busy]
      exact ⟨rfl, rfl, rfl⟩
    · have capture := goodEnd_capture f (reach s.cin.testEnd s)
      rw [full, endFrame_of_idle (s := reach s.cin.testEnd s) f idle, goodEnd_frame, capture_good capture,
        capture_malformed capture, capture_capW capture, capture_capH capture]
      exact ⟨rfl, rfl, rfl, rfl, rfl⟩

/-- Settles O19: the two ends of test mode, and the two ends of a generated frame. -/
theorem testModeGeneratesFrames : Obligations.TestModeGeneratesFrames := by
  refine ⟨fun s r take view reverse port => cameraTest_enters take view reverse port,
    fun s r take test _ => cameraTest_leaves take test,
    fun s test none => ⟨_, exec_testFrameStart test, testFrameStart_begins test none _ rfl⟩,
    fun s f test frame going wide => ⟨_, exec_testFrameEnd test, testFrameEnd_ends test frame going wide _ rfl⟩,
    fun s test ended => ⟨⟨_, exec_testFrameEnd test, ?_⟩, _, exec_testFrameStart test, ?_⟩,
    fun s f test frame going => ⟨_, settle (endTestFrame s), _, exec_testFrameStart test, exec_testFrameEnd test,
      exec_testFrameStart (by rw [settle_cin, endTestFrame_source, test]), ?_⟩, fun s port => ⟨?_, ?_⟩⟩
  · rw [endTestFrame_of_ended ended]; exact settle_onlyTouches s
  · rw [settle_localMem, startTestFrame_localMem, endTestFrame_of_ended ended]
  · rw [settle_localMem, settle_localMem, startTestFrame_localMem, startTestFrame_localMem,
      endTestFrame_of_ended (s := settle (endTestFrame s)) (by rw [settle_cin]; exact endTestFrame_ends s), flushedMemory_settle]
  · simp [exec, execTestFrameStart, port]
  · simp [exec, execTestFrameEnd, port]

end Generator

/-! ## The local port (R145, R151) -/

section LocalPort
variable {s : State} {q : LocalUnit} {r : Range}

/-- R151: the free port takes the unit it chooses. -/
theorem localGrant_of_choice (free : s.fen.localUnit = none) (h : localChoice s = some q) :
    localGrant s = s.setFen { localRequested q s.fen with localUnit := some q } := by
  simp [localGrant, free, h]

theorem localGrant_localUnit (free : s.fen.localUnit = none) : (localGrant s).fen.localUnit = localChoice s := by
  cases h : localChoice s with
  | some q => rw [localGrant_of_choice free h]; rfl
  | none => simp [localGrant, free, h]

theorem localGrant_of_busy (h : s.fen.localUnit = some q) : localGrant s = s := by simp [localGrant, h]

theorem localGrant_onlyTouches (s : State) : OnlyTouches [.fen, .wai] s (settle (localGrant s)) := fun p h => by
  simp only [List.mem_cons, List.not_mem_nil, or_false, not_or] at h
  simp [h]

/-- R145: the next unit of an ACTIVE transfer. -/
theorem localRange_of_active {c : Channel} {rest : List Range} (active : c.st = .active) (h : c.toReq = r :: rest) :
    localRange c = some ⟨r.addr, min 512 r.len⟩ := by
  simp [localRange, active, h]

/-- R145, R151: CAM_WR comes first, … -/
theorem localChoice_camWr (h : localRange s.fen.camWr = some r) :
    localChoice s = some ⟨.camWr, r.addr, r.len, cameraWrites s.fen r, true⟩ := by
  simp [localChoice, h, localUnitOf, firstOf]

/-- … then the layer readers, … -/
theorem localChoice_layer (cam : localRange s.fen.camWr = none) (h : layerChoice s.fen = some q) : localChoice s = some q := by
  simp [localChoice, cam, h, localUnitOf, firstOf]

theorem layerChoice_none (cam : layerRange s.fen.camRead = none) (ovl : layerRange s.fen.ovlRead = none) :
    layerChoice s.fen = none := by
  simp [layerChoice, cam, ovl, localUnitOf, firstOf]

/-- … then GUIDE_WR, … -/
theorem localChoice_guideWr (cam : localRange s.fen.camWr = none) (layers : layerChoice s.fen = none)
    (h : localRange s.fen.guideWr = some r) :
    localChoice s = some ⟨.guideWr, r.addr, r.len, guideWrites s.glg r, true⟩ := by
  simp [localChoice, cam, layers, h, localUnitOf, firstOf]

/-- … then the bank reader, … -/
theorem localChoice_bank (cam : localRange s.fen.camWr = none) (layers : layerChoice s.fen = none)
    (guide : localRange s.fen.guideWr = none) (h : bankRange s.che = some r) :
    localChoice s = some ⟨.bank, r.addr, r.len, [], true⟩ := by
  simp [localChoice, cam, layers, guide, h, localUnitOf, firstOf, noWrites]

/-- … and BULK last. -/
theorem localChoice_bulk (cam : localRange s.fen.camWr = none) (layers : layerChoice s.fen = none)
    (guide : localRange s.fen.guideWr = none) (bank : bankRange s.che = none) : localChoice s = bulkWrite s := by
  simp [localChoice, cam, layers, guide, bank, localUnitOf, firstOf]

/-- R151: where both layer readers ask, they take turns. -/
theorem layerChoice_both {x : Range} (cam : layerRange s.fen.camRead = some r) (ovl : layerRange s.fen.ovlRead = some x) :
    layerChoice s.fen = if s.fen.ovlTurn then some ⟨.ovlRead, x.addr, x.len, [], true⟩
      else some ⟨.camRead, r.addr, r.len, [], true⟩ := by
  simp [layerChoice, cam, ovl, localUnitOf, firstOf, noWrites]

/-! What a completed unit's user does leaves the port free, and the memory as the unit wrote it. -/

/-- The port is free, and local memory is as at `s`. -/
def PortLeft (s t : State) : Prop := t.fen.localUnit = none ∧ t.localMem = s.localMem

theorem portLeft_lineWritten (free : s.fen.localUnit = none) : PortLeft s (lineWritten s) := by
  unfold lineWritten
  split
  · split
    · exact ⟨localUnit_of_camPort (camPort_goodEnd _ _) free, goodEnd_localMem _ _⟩
    · obtain e | ⟨f, -, -, -, -, e⟩ := nextTestRow_cases s
      · rw [e]; exact ⟨free, rfl⟩
      · rw [e]; exact ⟨free, rfl⟩
  · exact ⟨free, rfl⟩

theorem portLeft_cameraWritten (q : LocalUnit) (free : s.fen.localUnit = none) : PortLeft s (cameraWritten q s) := by
  unfold cameraWritten
  simp only
  split
  · exact portLeft_lineWritten free
  · exact ⟨free, rfl⟩

theorem portLeft_guideWritten (q : LocalUnit) (free : s.fen.localUnit = none) : PortLeft s (guideWritten q s) := by
  unfold guideWritten guideDone
  simp only
  split
  · split <;> exact ⟨free, rfl⟩
  · exact ⟨free, rfl⟩

theorem cutLocal_of_free (user : LocalUser) (free : s.fen.localUnit = none) : cutLocal user s = s := by
  simp [cutLocal, free]

@[simp] theorem completeRequest_fen (x : LongReq) (st : Status) (s : State) : (completeRequest x st s).fen = s.fen :=
  (same_completeRequest (p := .fen) (by decide)).2 rfl

@[simp] theorem completeRequest_che (x : LongReq) (st : Status) (s : State) : (completeRequest x st s).che = s.che := by
  unfold completeRequest
  repeat' split
  all_goals rfl

@[simp] theorem completeRequest_localMem (x : LongReq) (st : Status) (s : State) :
    (completeRequest x st s).localMem = s.localMem :=
  (same_completeRequest (p := .localMem) (by decide)).2 rfl

/-- R139: the sound bank, the copies and the data store after the last byte of a load. -/
theorem finishLoad_spec (n : Nat) (free : s.fen.localUnit = none) :
    (finishLoad n s).che = { s.che with
      bank := s.che.bank.set n { soundOf s.che n with st := .loaded, load := none }
      loads := s.che.loads - 1 } ∧
    (finishLoad n s).fen = { s.fen with
      units := orphanUnits (.bulk (.sound n)) s.fen.units
      bulk := s.fen.bulk.filter (fun b => b.id != .sound n)
      store := s.fen.store.filter (fun d => d.1 != .sound n) } ∧
    (finishLoad n s).localMem = s.localMem := by
  unfold finishLoad dropBulk
  simp only
  rw [cutLocal_of_free _ (by exact free)]
  split
  · rw [completeRequest_che, completeRequest_fen, completeRequest_localMem]; exact ⟨rfl, rfl, rfl⟩
  · exact ⟨rfl, rfl, rfl⟩

theorem portLeft_bulkWrote (id : BulkId) (q : LocalUnit) (free : s.fen.localUnit = none) : PortLeft s (bulkWrote id q s) := by
  unfold bulkWrote
  split
  · rename_i n
    simp only
    split
    · generalize hu : s.setFen _ = u
      have left : PortLeft s u := by rw [← hu]; exact ⟨free, rfl⟩
      obtain ⟨-, fen, memory⟩ := finishLoad_spec n left.1
      exact ⟨by rw [fen]; exact left.1, memory.trans left.2⟩
    · exact ⟨free, rfl⟩
  · exact ⟨free, rfl⟩

theorem portLeft_bankArrived (q : LocalUnit) (free : s.fen.localUnit = none) : PortLeft s (bankArrived q s) := by
  unfold bankArrived
  split <;> exact ⟨free, rfl⟩

theorem portLeft_localMoved (q : LocalUnit) (free : s.fen.localUnit = none) : PortLeft s (localMoved q s) := by
  unfold localMoved
  cases q.user with
  | camWr => exact portLeft_cameraWritten q free
  | guideWr => exact portLeft_guideWritten q free
  | camRead => exact ⟨free, rfl⟩
  | ovlRead => exact ⟨free, rfl⟩
  | bank => exact portLeft_bankArrived q free
  | bulk id => exact portLeft_bulkWrote id q free

/-- R151: after a completion the port is free, and local memory holds what the unit wrote. -/
theorem portLeft_localDone (h : s.fen.localUnit = some q) : PortLeft (unitWritten q s) (localDone s) := by
  rw [localDone_of_unit h]
  split
  · exact portLeft_localMoved q rfl
  · exact ⟨rfl, rfl⟩

/-- R151: a unit that its user no longer wants only writes. -/
theorem localDone_of_dead (h : s.fen.localUnit = some q) (dead : q.live = false) : localDone s = unitWritten q s := by
  rw [localDone_of_unit h, dead]; rfl

theorem localDone_of_live (h : s.fen.localUnit = some q) (live : q.live = true) :
    localDone s = localMoved q (unitWritten q s) := by
  rw [localDone_of_unit h, live]; rfl

/-- A reader's unit leaves local memory. -/
theorem unitWritten_of_reader (h : q.writes = []) : unitWritten q s = s.setFen { s.fen with localUnit := none } := by
  unfold unitWritten
  rw [h]
  rfl

theorem unitWritten_onlyTouches (q : LocalUnit) (s : State) : OnlyTouches [.localMem, .fen, .wai] s (settle (unitWritten q s)) :=
  fun p h => by
    simp only [List.mem_cons, List.not_mem_nil, or_false, not_or] at h
    simp [unitWritten, h]

/-! Each user of the port at a unit's completion. -/

/-- R23: a unit inside a line of CAM_WR. -/
theorem cameraWritten_of_lt (h : s.fen.camWr.toMove = [r]) (lt : q.len < r.len) :
    cameraWritten q s = s.setFen { s.fen with
      camWr := { s.fen.camWr with toMove := [⟨r.addr + q.len, r.len - q.len⟩] }, camData := s.fen.camData.drop q.len } := by
  unfold cameraWritten
  rw [moved_of_lt h lt]
  rfl

/-- A line of the port's source is written: the generator hands none. -/
theorem camPort_lineWritten_of_port (port : s.cin.source = .port) : camPort (lineWritten s) = camPort s := by
  unfold lineWritten
  split
  · split
    · exact camPort_goodEnd _ _
    · rw [nextTestRow_of_port port]
  · rfl

/-- R34: a generated line is written, and another one is left: the generator hands it. -/
theorem lineWritten_of_test {f : CamFrame} (test : s.cin.source = .test) (frame : s.cin.frame = some f)
    (going : f.ended = false) (left : f.lines < f.h) : lineWritten s = handRow f (testLine f.w) s := by
  rw [← nextTestRow_of_open test frame going left]
  simp [lineWritten, frame, going]

/-- R59: a unit inside GUIDE_WR's transfer. -/
theorem guideWritten_of_lt (h : s.fen.guideWr.toMove = [r]) (lt : q.len < r.len) :
    guideWritten q s = s.setFen { s.fen with
      guideWr := { s.fen.guideWr with toMove := [⟨r.addr + q.len, r.len - q.len⟩] } } := by
  unfold guideWritten
  rw [moved_of_lt h lt]
  rfl

/-- R59: GUIDE_WR's last unit completes the run. -/
theorem guideWritten_of_le {x : GuideRun} (h : s.fen.guideWr.toMove = [r]) (le : r.len ≤ q.len) (run : s.glg.run = some x) :
    guideWritten q s = completeRun x.mode (s.setFen { s.fen with guideWr := idleChannel }) := by
  unfold guideWritten
  rw [moved_of_le h le]
  simp [guideDone, run, idleChannel]

/-- R59: the run's overlay buffer, which is not the front one, takes the tag of its mode. -/
theorem completeRun_glg (m : GuideMode) (s : State) : (completeRun m s).glg = { s.glg with
    run := none, backDone := true
    tag0 := if s.glg.front1 then tagOf m else s.glg.tag0
    tag1 := if s.glg.front1 then s.glg.tag1 else tagOf m } := by
  unfold completeRun tagBack
  split <;> simp [*]

/-- R151: samples that continue those held, of a voice that has passed none of them, are held too. -/
theorem uiArrive_of_next {v : UiVoice} (xs : List Half) (h : v.pos ≤ v.fetched - v.held.length) :
    uiArrive v.fetched xs v = { v with fetched := v.fetched + xs.length, held := v.held ++ xs } := by
  have none : v.pos - (v.fetched + xs.length - (v.held ++ xs).length) = 0 := by
    rw [List.length_append]; omega
  unfold uiArrive
  simp only [if_true, none, List.drop_zero]

theorem bankArrived_of_next {v : UiVoice} (voice : s.che.ui = some v) (addr : q.addr = v.fetched)
    (h : v.pos ≤ v.fetched - v.held.length) : bankArrived q s = s.setChe { s.che with ui := some { v with
      fetched := v.fetched + q.len / 2
      held := v.held ++ (List.range (q.len / 2)).map (fun k =>
        u16At (readLocal s (bankByte (soundOf s.che v.entry) (2 * q.addr)) q.len) (2 * k)) } } := by
  simp only [bankArrived, voice]
  rw [addr, uiArrive_of_next _ h, List.length_map, List.length_range]

/-- R151: bytes of a row join it, and a whole row is held where the pipe has not passed it. -/
theorem layerArrived_spec (data : List Byte) (cy : Int) (outLine : Nat) (l : LayerReader) :
    if (l.got ++ data).length < l.rowLen then layerArrived data cy outLine l = { l with got := l.got ++ data }
    else layerArrived data cy outLine l = { l with
      next := l.next + 1, got := []
      lines := if (l.next : Int) + cy < outLine then l.lines else l.lines ++ [(l.next, l.got ++ data)] } := by
  unfold layerArrived
  split
  · rename_i part; exact if_pos part
  · rename_i whole; exact if_neg whole

theorem layersMoved_onlyTouches (s : State) (cam ovl : LayerReader) : OnlyTouches [.fen, .wai] s
    (settle (s.setFen { s.fen with localUnit := none, camRead := cam, ovlRead := ovl })) := fun p h => by
  simp only [List.mem_cons, List.not_mem_nil, or_false, not_or] at h
  simp [h]

theorem dropFirst_eq_eraseP {α : Type} (f : α → Bool) (l : List α) : dropFirst f l = l.eraseP f := by
  induction l with
  | nil => rfl
  | cons x l ih =>
    rw [dropFirst, List.eraseP_cons, ih]
    cases f x <;> rfl

/-- R139, R149: a BULK write of a sound, not its last one. -/
theorem bulkWrote_of_lt {n : Nat} (h : ¬ 2 * (soundOf s.che n).len ≤ q.addr + q.len) : bulkWrote (.sound n) q s = s.setFen { s.fen with
    store := s.fen.store.eraseP (fun d => d.1 == .sound n)
    bulk := s.fen.bulk.map (fun b => if b.id = .sound n then { b with written := b.written + q.len } else b) } := by
  simp [bulkWrote, h, dropFirst_eq_eraseP]

/-- R139, R149: the last BULK write of a sound ends its load. -/
theorem bulkWrote_of_le {n : Nat} (free : s.fen.localUnit = none) (h : 2 * (soundOf s.che n).len ≤ q.addr + q.len) :
    (bulkWrote (.sound n) q s).che = { s.che with
      bank := s.che.bank.set n { soundOf s.che n with st := .loaded, load := none }
      loads := s.che.loads - 1 } ∧
    (bulkWrote (.sound n) q s).fen.store =
      (s.fen.store.eraseP (fun d => d.1 == .sound n)).filter (fun d => d.1 ≠ .sound n) ∧
    ∀ b ∈ (bulkWrote (.sound n) q s).fen.bulk, b.id ≠ .sound n := by
  unfold bulkWrote
  simp only
  rw [if_pos (by exact h)]
  generalize hu : s.setFen _ = u
  have left : u.fen.localUnit = none := by rw [← hu]; exact free
  obtain ⟨che, fen, -⟩ := finishLoad_spec n left
  rw [che, fen]
  refine ⟨by rw [← hu]; rfl, ?_, fun b mem => by simpa using (List.mem_filter.1 mem).2⟩
  rw [← dropFirst_eq_eraseP, ← hu]
  exact List.filter_congr fun d _ => Bool.eq_iff_iff.2 (by simp)

/-- R145: BULK's write of a sound's data. -/
theorem bulkWrite_of_sound {n : Nat} {data : List Byte} (h : storeHead s.fen = some (.sound n, data)) :
    bulkWrite s = some ⟨.bulk (.sound n), bulkWritten s.fen (.sound n), data.length,
      bankWrites (soundOf s.che n) (bulkWritten s.fen (.sound n)) data, true⟩ := by
  simp [bulkWrite, h, bulkWrites]

/-- Settles O52: the port's order at a grant, and each user's step at the completion of its unit. -/
theorem localPortMovesOneUnit : Obligations.LocalPortMovesOneUnit := by
  refine ⟨fun s free => ⟨_, rfl, localGrant_onlyTouches s, ?_, fun r rest active toReq => ?_, fun noCam r x cam ovl => ?_,
      fun noCam noCamRead noOvl => ⟨fun r rest x active toReq run => ?_, fun noGuide => ⟨fun r bank => ?_, fun n data noBank head => ?_⟩⟩⟩,
    fun s q busy => ⟨_, rfl, localGrant_onlyTouches s, ?_⟩, fun s q unit => ⟨_, exec_localUnitCompletion s, ?_⟩⟩
  · rw [settle_fen]; exact localGrant_localUnit free
  · rw [settle_fen, localGrant_of_choice free (localChoice_camWr (localRange_of_active active toReq)), ← toReq]
    exact ⟨rfl, rfl⟩
  · have choice := layerChoice_both cam ovl
    rw [settle_fen]
    split
    · rename_i turn
      rw [if_pos turn] at choice
      rw [localGrant_of_choice free (localChoice_layer noCam choice)]
      exact ⟨rfl, rfl⟩
    · rename_i turn
      rw [if_neg turn] at choice
      rw [localGrant_of_choice free (localChoice_layer noCam choice)]
      exact ⟨rfl, rfl⟩
  · have choice := localChoice_guideWr noCam (layerChoice_none noCamRead noOvl) (localRange_of_active active toReq)
    simp only [guideWrites, run] at choice
    rw [settle_fen, localGrant_of_choice free choice, ← toReq]
    exact ⟨rfl, rfl⟩
  · rw [settle_fen, localGrant_of_choice free (localChoice_bank noCam (layerChoice_none noCamRead noOvl) noGuide bank)]; rfl
  · have choice := localChoice_bulk noCam (layerChoice_none noCamRead noOvl) noGuide noBank
    rw [bulkWrite_of_sound head] at choice
    rw [settle_fen, localGrant_of_choice free choice]; rfl
  · rw [settle_fen, localGrant_of_busy busy]; exact busy
  · obtain ⟨free, memory⟩ := portLeft_localDone unit
    have moved := localDone_of_live unit
    refine ⟨by rw [settle_fen]; exact free, by rw [settle_localMem, memory]; rfl, fun dead => ?_, fun r live user toMove => ⟨?_, ?_, ?_⟩,
      fun r x live user toMove run => ⟨?_, ?_⟩, ⟨fun live user writes => ?_, fun live user writes => ?_⟩,
      fun v live user writes voice addr held => ?_, fun n live user => ?_⟩
    · rw [localDone_of_dead unit dead]
      refine ⟨unitWritten_onlyTouches q s, ?_⟩
      rw [settle_fen]
      exact ⟨rfl, rfl, rfl, rfl, rfl, rfl, rfl⟩
    all_goals
      have moved := moved live
      rw [localMoved, user] at moved
      simp only at moved
    -- CAM_WR: inside a line, and at a line's end from the port and from the generator
    · intro lt
      rw [settle_fen, settle_cin, moved, cameraWritten_of_lt (by exact toMove) lt]
      exact ⟨rfl, rfl, rfl⟩
    · intro whole port
      rw [cameraWritten_of_le (r := r) (by exact toMove) (by omega)] at moved
      have camera := camPort_lineWritten_of_port (s := (unitWritten q s).setFen { (unitWritten q s).fen with
        camWr := idleChannel, camData := (unitWritten q s).fen.camData.drop q.len }) (by exact port)
      rw [← moved, ← camPort_settle (localDone s)] at camera
      exact ⟨camWr_of_camPort camera, camData_of_camPort camera⟩
    · intro f whole test frame going left
      rw [cameraWritten_of_le (r := r) (by exact toMove) (by omega),
        lineWritten_of_test (by exact test) (by exact frame) going left] at moved
      rw [settle_fen, settle_cin, moved]
      exact ⟨rfl, rfl, _, rfl⟩
    -- GUIDE_WR: inside its transfer, and at its end
    · intro lt
      rw [settle_fen, settle_glg, moved, guideWritten_of_lt (by exact toMove) lt]
      exact ⟨rfl, rfl⟩
    · intro whole
      rw [settle_fen, settle_glg, moved, guideWritten_of_le (r := r) (by exact toMove) (by omega) (by exact run),
        completeRun_glg]
      refine ⟨rfl, ?_⟩
      cases x.mode <;> rfl
    -- the layer readers, the bank reader and a sound load
    · rw [unitWritten_of_reader writes] at moved
      rw [settle_fen, moved]
      exact ⟨layerArrived_spec _ _ _ s.fen.camRead, layersMoved_onlyTouches s _ s.fen.ovlRead⟩
    · rw [unitWritten_of_reader writes] at moved
      rw [settle_fen, moved]
      exact ⟨layerArrived_spec _ _ _ s.fen.ovlRead, layersMoved_onlyTouches s s.fen.camRead _⟩
    · rw [unitWritten_of_reader writes] at moved
      rw [settle_che, moved, bankArrived_of_next (by exact voice) addr held]
      rfl
    · split
      · rename_i last
        obtain ⟨che, store, bulk⟩ := bulkWrote_of_le (s := unitWritten q s) (q := q) rfl last
        rw [settle_fen, settle_che, moved]
        exact ⟨che, store, bulk⟩
      · rename_i more
        rw [settle_fen, settle_che, moved, bulkWrote_of_lt (by exact more)]
        exact ⟨rfl, rfl, rfl⟩

end LocalPort

end Sys2Proof.Machine

/-! PROOFS. Chapter 3: the view record, the notices and the picture after each operation of the view, the view over a step, and the
statements of the reversing view, of a vblank and of what the two bring to the chimes. -/

namespace Sys2Proof.Machine

/-! ## A move of the view

What `moveView` does, field by field: the record first, then what the state that is left and the state that is entered bring. -/

section MoveView
variable {p : Part} {s t u : State} {new : ViewState} {manual : Bool} {cause : ViewCause}

@[simp] theorem raise_vwc (k : NoticeKind) (a b : Word) (s : State) : (raise k a b s).vwc = s.vwc :=
  (same_raise (p := .vwc) (by decide)).2 rfl
@[simp] theorem raise_glg (k : NoticeKind) (a b : Word) (s : State) : (raise k a b s).glg = s.glg :=
  (same_raise (p := .glg) (by decide)).2 rfl
@[simp] theorem raise_cmp (k : NoticeKind) (a b : Word) (s : State) : (raise k a b s).cmp = s.cmp :=
  (same_raise (p := .cmp) (by decide)).2 rfl
@[simp] theorem raise_mix (k : NoticeKind) (a b : Word) (s : State) : (raise k a b s).mix = s.mix :=
  (same_raise (p := .mix) (by decide)).2 rfl
@[simp] theorem raise_sto (k : NoticeKind) (a b : Word) (s : State) : (raise k a b s).sto = s.sto :=
  (same_raise (p := .sto) (by decide)).2 rfl
@[simp] theorem pipeOf_raise (k : NoticeKind) (a b : Word) (s : State) (q : PipeId) : pipeOf (raise k a b s) q = pipeOf s q := by
  rw [pipeOf, raise_cmp]; rfl

/-- R193: of the view record the waiting image replaces the policy only. -/
theorem applyWaiting_vwc (s : State) :
    (applyWaiting s).vwc = { s.vwc with policy := (s.sto.waiting.map imagePolicy).getD s.vwc.policy } := by
  unfold applyWaiting
  cases h : s.sto.waiting with
  | none => rfl
  | some img => simp [raiseSettings, takeSettings, settleDefs, imageSettings]

theorem applyWaiting_of_none (h : s.sto.waiting = none) : applyWaiting s = s := by simp [applyWaiting, h]

/-- The state in which a move of the view raises its notice: the record has moved, the overlay of a LIVE view has ended (R66), and the
composition of a view that was OFF has taken the screen (R83). -/
def viewMoved (new : ViewState) (manual : Bool) (s : State) : State :=
  let u := s.setVwc (movedView (now s) new manual s.vwc)
  let u := if s.vwc.view = .live then guideExit u else u
  if s.vwc.view = .off then openComposition u else u

/-- Of the parts besides the record itself, the overlay and the screen alone can have changed. -/
theorem same_viewMoved (v : p ≠ .vwc) (o : p ≠ .policy) (g : p ≠ .glg) (f : p ≠ .fen) (w : p ≠ .wai) (c : p ≠ .cmp) :
    p.same s (viewMoved new manual s) := by
  unfold viewMoved
  simp only
  split <;> split <;> simp [v, o, g, f, w, c]

@[simp] theorem viewMoved_vwc : (viewMoved new manual s).vwc = movedView (now s) new manual s.vwc := by
  have left : ∀ x : State, (guideExit x).vwc = x.vwc := fun x =>
    (same_guideExit (p := .vwc) (by decide) (by decide) (by decide)).2 rfl
  have opened : ∀ x : State, (openComposition x).vwc = x.vwc := fun x =>
    (same_openComposition (p := .vwc) (by decide) (by decide)).2 rfl
  unfold viewMoved
  simp only
  split <;> split <;> simp [left, opened]

theorem moveView_eq (new : ViewState) (manual : Bool) (cause : ViewCause) (s : State) : moveView new manual cause s =
    enterView new (raiseView s.vwc (movedView (now s) new manual s.vwc) cause (viewMoved new manual s)) := by
  conv_rhs => rw [← viewMoved_vwc]
  rfl

/-- R39, R44, R48, R52: the record after a move into a state other than OFF. -/
theorem moveView_vwc (h : new ≠ .off) : (moveView new manual cause s).vwc = movedView (now s) new manual s.vwc := by
  have raised : (raiseView s.vwc (movedView (now s) new manual s.vwc) cause (viewMoved new manual s)).vwc
      = movedView (now s) new manual s.vwc := by rw [raiseView, raise_vwc, viewMoved_vwc]
  rw [moveView_eq]
  cases new with
  | off => exact absurd rfl h
  | starting =>
    exact ((same_startByView (p := .vwc) (by decide) (by decide) (by decide) (by decide) (by decide)).2 rfl).trans raised
  | noSignal => exact ((same_arriveInternal (p := .vwc) (by decide) (by decide) (by decide)).2 rfl).trans raised
  | live | exitHold => exact raised

/-- R52, R193: the record after a move into OFF, where the waiting image's policy is taken. -/
theorem moveView_off_vwc : (moveView .off manual cause s).vwc = { movedView (now s) .off manual s.vwc with
    policy := (s.sto.waiting.map imagePolicy).getD s.vwc.policy } := by
  have sto : (viewMoved .off manual s).sto = s.sto :=
    same_viewMoved (p := .sto) (by decide) (by decide) (by decide) (by decide) (by decide) (by decide)
  rw [moveView_eq, enterView, applyWaiting_vwc]
  simp [raiseView, sto, movedView]

@[simp] theorem moveView_vsr : (moveView new manual cause s).vsr = s.vsr := (same_moveView (p := .vsr) (by decide)).2 rfl
@[simp] theorem moveView_clockNs : (moveView new manual cause s).clockNs = s.clockNs :=
  (same_moveView (p := .clock) (by decide)).2 rfl

end MoveView

/-! ## The moves of the view over a step (R39 to R51)

Every operation moves REVERSE and the view record by the moves of `ViewMove`, so that a condition on the two that each of these keeps is
kept by every command. -/

section ViewMoves
variable {s t u : State}

/-- Table 3-1: a view that shows its screen, in STARTING, LIVE or NO_SIGNAL. -/
def ViewState.shows (v : ViewState) : Prop := v = .starting ∨ v = .live ∨ v = .noSignal

/-- How an operation moves REVERSE and the view record together. -/
inductive ViewMove : Bool × Vwc → Bool × Vwc → Prop where
  /-- R41, R189: the policy is replaced. -/
  | policy (r : Bool) (v : Vwc) (p : Policy) : ViewMove (r, v) (r, { v with policy := p })
  /-- R49 to R51: an EXIT_HOLD and a manual view end in OFF. -/
  | closed (n : Nat) (r : Bool) (v : Vwc) (h : v.view = .exitHold ∨ v.manual = true) : ViewMove (r, v) (r, movedView n .off false v)
  /-- R43: a request opens the view from OFF while REVERSE is false. -/
  | requested (n : Nat) (v : Vwc) (h : v.view = .off) : ViewMove (false, v) (false, movedView n .starting true v)
  /-- R43: a request opens the view from EXIT_HOLD. -/
  | resumed (n : Nat) (r : Bool) (v : Vwc) (new : ViewState) (h : v.view = .exitHold) (k : new = .live ∨ new = .noSignal) :
      ViewMove (r, v) (r, movedView n new true v)
  /-- R45 to R47: the picture comes or is lost. -/
  | pictured (n : Nat) (r : Bool) (v : Vwc) (new : ViewState) (h : v.view.shows) (k : new = .live ∨ new = .noSignal) :
      ViewMove (r, v) (r, movedView n new v.manual v)
  /-- R42: REVERSE opens the view from OFF. -/
  | reverseOpens (n : Nat) (v : Vwc) (h : v.view = .off) : ViewMove (false, v) (true, movedView n .starting false v)
  /-- R42: REVERSE takes a view in EXIT_HOLD. -/
  | reverseResumes (n : Nat) (v : Vwc) (new : ViewState) (h : v.view = .exitHold) (k : new = .live ∨ new = .noSignal) :
      ViewMove (false, v) (true, movedView n new v.manual v)
  /-- R42: REVERSE takes over a manual view. -/
  | reverseTakes (v : Vwc) (h : v.view.shows) : ViewMove (false, v) (true, { v with manual := false })
  /-- R48: REVERSE becomes false, and holds no view open. -/
  | reverseStays (v : Vwc) (h : v.view.shows → v.manual = true) : ViewMove (true, v) (false, v)
  /-- R48: REVERSE leaves the view that it holds open. -/
  | reverseLeaves (n : Nat) (v : Vwc) (new : ViewState) (h : v.view.shows) (k : new = .off ∨ new = .exitHold) :
      ViewMove (true, v) (false, movedView n new false v)
  /-- A start timer that runs in another state is stopped. -/
  | startStopped (r : Bool) (v : Vwc) (h : v.view ≠ .starting) : ViewMove (r, v) (r, { v with startTimer := none })
  /-- An exit timer that runs in another state is stopped. -/
  | exitStopped (r : Bool) (v : Vwc) (h : v.view ≠ .exitHold) : ViewMove (r, v) (r, { v with exitTimer := none })

/-- REVERSE with the view record. -/
def viewCourse (s : State) : Bool × Vwc := (s.vsr.reverse, s.vwc)

/-- REVERSE and the view come from one state to another by the moves of the view. -/
def ViewPath (s t : State) : Prop := Relation.ReflTransGen ViewMove (viewCourse s) (viewCourse t)

theorem ViewPath.refl (s : State) : ViewPath s s := Relation.ReflTransGen.refl

theorem ViewPath.trans (h : ViewPath s t) (k : ViewPath t u) : ViewPath s u := Relation.ReflTransGen.trans h k

theorem viewPath_of_eq (r : t.vsr.reverse = s.vsr.reverse) (v : t.vwc = s.vwc) : ViewPath s t := by
  unfold ViewPath viewCourse
  rw [r, v]

theorem viewPath_of_same (r : Part.vsr.same s t) (v : Part.vwc.same s t) : ViewPath s t := viewPath_of_eq (congrArg Vsr.reverse r) v

theorem viewPath_of_move (h : ViewMove (viewCourse s) (viewCourse t)) : ViewPath s t := Relation.ReflTransGen.single h

/-- A condition that each move keeps is kept along the way. -/
theorem ViewPath.keeps {C : Bool × Vwc → Prop} (moves : ∀ a b, ViewMove a b → C a → C b) (h : ViewPath s t) (k : C (viewCourse s)) :
    C (viewCourse t) := by
  unfold ViewPath at h
  generalize viewCourse t = b at h
  induction h with
  | refl => exact k
  | tail _ move ih => exact moves _ _ move ih

/-! ### The operations of the view -/

section Operations
variable {new : ViewState} {manual : Bool} {cause : ViewCause}

/-- A move of the view makes the move of its record, and in OFF takes the waiting policy. -/
theorem viewPath_moveView (h : ViewMove (viewCourse u) (s.vsr.reverse, movedView (now s) new manual s.vwc)) :
    ViewPath u (moveView new manual cause s) := by
  refine Relation.ReflTransGen.head h ?_
  unfold viewCourse
  rw [moveView_vsr]
  by_cases off : new = .off
  · subst off
    rw [moveView_off_vwc]
    exact .single (.policy _ _ _)
  · rw [moveView_vwc off]

theorem pictureState_cases (s : State) : pictureState s = .live ∨ pictureState s = .noSignal := by
  unfold pictureState; split <;> simp

/-- A view that is neither OFF nor in EXIT_HOLD shows its screen. -/
theorem shows_iff (v : ViewState) : v.shows ↔ v ≠ .off ∧ v ≠ .exitHold := by
  unfold ViewState.shows; cases v <;> simp

theorem viewReverseOn_viewPath (was : u.vsr.reverse = false) (same : u.vwc = s.vwc) (is : s.vsr.reverse = true) :
    ViewPath u (viewReverseOn s) := by
  have course : viewCourse u = (false, s.vwc) := by rw [viewCourse, was, same]
  unfold viewReverseOn
  split
  · rename_i off
    exact viewPath_moveView (by rw [course, is]; exact .reverseOpens _ _ off)
  · rename_i hold
    exact viewPath_moveView (by rw [course, is]; exact .reverseResumes _ _ _ hold (pictureState_cases s))
  · rename_i off hold
    refine viewPath_of_move ?_
    have shows := (shows_iff _).2 ⟨off, hold⟩
    rw [course]
    split
    · rw [viewCourse, takeOver, raiseView, raise_vsr, raise_vwc, State.setVwc_vsr, is, State.setVwc_vwc]
      exact .reverseTakes _ shows
    · rename_i clear
      have kept : s.vwc = { s.vwc with manual := s.vwc.manual } := rfl
      rw [Bool.eq_false_iff.2 clear] at kept
      rw [viewCourse, is]
      conv in (true, s.vwc) => rw [kept]
      exact .reverseTakes _ shows

theorem viewReverseOff_viewPath (was : u.vsr.reverse = true) (same : u.vwc = s.vwc) (is : s.vsr.reverse = false) :
    ViewPath u (viewReverseOff s) := by
  have course : viewCourse u = (true, s.vwc) := by rw [viewCourse, was, same]
  have stays : (s.vwc.view.shows → s.vwc.manual = true) → ViewPath u s := fun h =>
    viewPath_of_move (by rw [course, viewCourse, is]; exact .reverseStays _ h)
  have leaves : ∀ new cause, s.vwc.view.shows → new = .off ∨ new = .exitHold → ViewPath u (moveView new false cause s) :=
    fun new cause h k => viewPath_moveView (by rw [course, is]; exact .reverseLeaves _ _ _ h k)
  unfold viewReverseOff
  split
  · rename_i off
    exact stays (fun h => absurd off ((shows_iff _).1 h).1)
  · rename_i hold
    exact stays (fun h => absurd hold ((shows_iff _).1 h).2)
  · rename_i off hold
    have shows := (shows_iff _).2 ⟨off, hold⟩
    split
    · rename_i manual
      exact stays (fun _ => manual)
    · unfold leaveReverse
      split
      · exact leaves _ _ shows (.inl rfl)
      · split
        · exact leaves _ _ shows (.inl rfl)
        · exact leaves _ _ shows (.inr rfl)

theorem viewVblank_viewPath (s : State) : ViewPath s (viewVblank s) := by
  unfold viewVblank
  split
  · rename_i h
    exact viewPath_moveView (.pictured _ _ _ _ (by unfold ViewState.shows; tauto) (.inl rfl))
  · exact .refl s

theorem viewStartTimeout_viewPath (s : State) : ViewPath s (viewStartTimeout s) := by
  unfold viewStartTimeout
  split
  · rename_i h
    exact viewPath_moveView (.pictured _ _ _ _ (.inl h) (.inr rfl))
  · rename_i h
    exact viewPath_of_move (.startStopped _ _ h)

theorem viewCameraGone_viewPath (cause : ViewCause) (s : State) : ViewPath s (viewCameraGone cause s) := by
  unfold viewCameraGone
  split
  · rename_i h
    exact viewPath_moveView (.pictured _ _ _ _ (.inr (.inl h)) (.inr rfl))
  · exact .refl s

theorem viewExitTimeout_viewPath (s : State) : ViewPath s (viewExitTimeout s) := by
  unfold viewExitTimeout
  split
  · rename_i h
    exact viewPath_moveView (.closed _ _ _ (.inl h))
  · rename_i h
    exact viewPath_of_move (.exitStopped _ _ h)

theorem viewSpeed_viewPath (s : State) : ViewPath s (viewSpeed s) := by
  unfold viewSpeed
  split
  · exact .refl s
  · rename_i h
    split
    · exact viewPath_moveView (.closed _ _ _ (.inl h))
    · exact .refl s
  · split
    · rename_i h
      exact viewPath_moveView (.closed _ _ _ (.inr h.1))
    · exact .refl s

theorem ownViewRequest_viewPath (mode : Byte) (s : State) : ViewPath s (ownViewRequest mode s).1 := by
  unfold ownViewRequest
  split
  · unfold viewOn
    split
    · rename_i off
      split
      · rename_i h
        exact viewPath_moveView (by rw [viewCourse, Bool.eq_false_iff.2 h.1]; exact .requested _ _ off)
      · exact .refl s
    · rename_i hold
      split
      · exact viewPath_moveView (.resumed _ _ _ _ hold (pictureState_cases s))
      · exact .refl s
    · exact .refl s
  · split
    · unfold viewOff
      split
      · exact .refl s
      · rename_i hold
        exact viewPath_moveView (.closed _ _ _ (.inl hold))
      · split
        · rename_i manual
          exact viewPath_moveView (.closed _ _ _ (.inr manual))
        · exact .refl s
    · exact .refl s

theorem ownSetViewPolicy_viewPath (p : PolicyParams) (s : State) : ViewPath s (ownSetViewPolicy p s).1 := by
  unfold ownSetViewPolicy
  split
  · exact viewPath_of_move (.policy _ _ _)
  · exact .refl s

end Operations

end ViewMoves

section ViewSteps
variable {s t u : State}

/-! ### The camera -/

theorem changeStream_viewPath (new : CamStream) (k : Nat) (s : State) : ViewPath s (changeStream new k s) := by
  by_cases h : s.cin.stream = .locked
  · rw [changeStream_of_locked new k h]
    exact (viewPath_of_same (by simp [unlocked]) (by simp [unlocked])).trans (viewCameraGone_viewPath _ _)
  · rw [changeStream_of_unlocked new k h]
    exact viewPath_of_same (by simp) (by simp)

theorem viewPath_setCin (s : State) (x : Cin) : ViewPath s (s.setCin x) := viewPath_of_eq rfl rfl
theorem viewPath_setFen (s : State) (x : Fen) : ViewPath s (s.setFen x) := viewPath_of_eq rfl rfl
theorem viewPath_setWai (s : State) (x : Wai) : ViewPath s (s.setWai x) := viewPath_of_eq rfl rfl
theorem reachNs_viewPath (n : Nat) (s : State) : ViewPath s (reachNs n s) := viewPath_of_eq rfl rfl
theorem reach_viewPath (n : Nat) (s : State) : ViewPath s (reach n s) := viewPath_of_eq rfl rfl
theorem raise_viewPath (k : NoticeKind) (a b : Word) (s : State) : ViewPath s (raise k a b s) := viewPath_of_same (by simp) (by simp)

theorem frameStartStream_viewPath (s : State) : ViewPath s (frameStartStream s) := by
  unfold frameStartStream
  simp only
  split
  · exact (changeStream_viewPath _ _ _).trans (viewPath_setCin _ _)
  · exact viewPath_setCin _ _

theorem faultFrame_viewPath (cause : FaultCause) (s : State) : ViewPath s (faultFrame cause s) := by
  rw [faultFrame_eq]
  split
  · exact (viewPath_setCin _ _).trans (changeStream_viewPath _ _ _)
  · exact viewPath_setCin _ _

theorem goodEnd_viewPath (f : CamFrame) (s : State) : ViewPath s (goodEnd f s) := by
  have stream : ∀ u : State, ViewPath u (goodEndStream u) := fun u => by
    rw [goodEndStream_eq]
    split
    · exact (viewPath_setCin _ _).trans (changeStream_viewPath _ _ _)
    · exact viewPath_setCin _ _
  have signature : ∀ (sig : Nat) (u : State), ViewPath u (takeSignature sig u) := fun sig u => by
    obtain ⟨differs, sets, keeps⟩ := takeSignature_eq sig u
    by_cases d : u.cin.sameRun = 0 ∨ sig ≠ u.cin.lastSig
    · rw [differs d]
      exact viewPath_of_same (by simp) (by simp)
    · by_cases f : freezes sig u.cin
      · rw [sets f]
        exact (viewPath_of_same (by simp) (by simp)).trans (viewCameraGone_viewPath _ _)
      · rw [keeps d f]
        exact viewPath_setCin _ _
  rw [goodEnd_eq]
  split
  · exact (viewPath_setCin _ _).trans ((stream _).trans (signature _ _))
  · exact (viewPath_setCin _ _).trans (stream _)

theorem flushLine_viewPath (s : State) : ViewPath s (flushLine s) := viewPath_of_same (by simp) (by simp)

theorem finishLine_viewPath (s : State) : ViewPath s (finishLine s) := by
  by_cases i : s.fen.camWr.st = .idle
  · rw [finishLine_of_idle i]
    exact .refl s
  · by_cases o : ∀ f, s.cin.frame = some f → f.ended = false
    · rw [finishLine_of_open i o]
      exact flushLine_viewPath s
    · simp only [not_forall, Bool.not_eq_false] at o
      obtain ⟨f, k, e⟩ := o
      rw [finishLine_of_ended i k e]
      exact (flushLine_viewPath s).trans (goodEnd_viewPath f _)

theorem nextTestRow_viewPath (s : State) : ViewPath s (nextTestRow s) := viewPath_of_same (by simp) (by simp)

theorem lineWritten_viewPath (s : State) : ViewPath s (lineWritten s) := by
  unfold lineWritten
  split
  · split
    · exact goodEnd_viewPath _ s
    · exact nextTestRow_viewPath s
  · exact .refl s

theorem endFrame_viewPath (f : CamFrame) (s : State) : ViewPath s (endFrame f s) := by
  unfold endFrame
  simp only
  split
  · exact (viewPath_setCin _ _).trans (lineWritten_viewPath _)
  · exact viewPath_setCin _ _

theorem camFrameStart_viewPath (s : State) : ViewPath s (camFrameStart s) := by
  have begun : ∀ u : State, ViewPath u (beginFrame (frameStartStream u)) := fun u =>
    (frameStartStream_viewPath u).trans (viewPath_of_same (by simp) (by simp))
  unfold camFrameStart
  simp only
  split
  · exact (finishLine_viewPath s).trans ((faultFrame_viewPath _ _).trans (begun _))
  · exact (finishLine_viewPath s).trans (begun _)

theorem camLineStart_viewPath (s : State) : ViewPath s (camLineStart s) := by
  unfold camLineStart
  split
  · exact .refl s
  · split
    · exact faultFrame_viewPath _ s
    · split
      · exact faultFrame_viewPath _ s
      · exact viewPath_setCin _ _

theorem camLineEnd_viewPath (s : State) : ViewPath s (camLineEnd s) := by
  unfold camLineEnd
  split
  · exact .refl s
  · split
    · exact faultFrame_viewPath _ s
    · split
      · exact faultFrame_viewPath _ s
      · exact (finishLine_viewPath s).trans (viewPath_of_same (by simp) (by simp))

theorem camFrameEnd_viewPath (s : State) : ViewPath s (camFrameEnd s) := by
  unfold camFrameEnd
  split
  · exact .refl s
  · split
    · exact faultFrame_viewPath _ s
    · split
      · exact faultFrame_viewPath _ s
      · exact endFrame_viewPath _ s

theorem camInvalid_viewPath (s : State) : ViewPath s (camInvalid s) := by
  unfold camInvalid
  split
  · exact .refl s
  · exact faultFrame_viewPath _ s

theorem camPixel_viewPath (b : Byte) (s : State) : ViewPath s (camPixel b s) := by
  unfold camPixel
  split
  · exact .refl s
  · split
    · exact faultFrame_viewPath _ s
    · split
      · exact viewPath_setCin _ _
      · exact faultFrame_viewPath _ s

theorem camDeadline_viewPath (s : State) : ViewPath s (camDeadline s) := by
  have dropped : ViewPath s (dropFrame s) := viewPath_of_same (by simp) (by simp)
  exact dropped.trans (changeStream_viewPath _ _ _)

theorem switchSource_viewPath (src : CamSource) (s : State) : ViewPath s (switchSource src s) := by
  have taken : ViewPath s (sourceTaken src s) := by
    unfold sourceTaken
    simp only
    split
    · exact viewPath_of_same (by simp) (by simp)
    · exact viewPath_setCin _ _
  have restarted : ∀ u : State, ViewPath u (streamRestarted u) := fun u => by
    unfold streamRestarted
    split
    · exact viewPath_setCin _ _
    · exact changeStream_viewPath _ _ _
  have cleared : ∀ u : State, ViewPath u (clearFrozen u) := fun u => viewPath_of_same (by simp) (by simp)
  rw [switchSource_eq]
  exact taken.trans ((restarted _).trans ((viewPath_setCin _ _).trans ((cleared _).trans (viewPath_setCin _ _))))

theorem leaveTest_viewPath (cause : Nat) (s : State) : ViewPath s (leaveTest cause s) :=
  (switchSource_viewPath _ s).trans (raise_viewPath _ _ _ _)

theorem camReverseOn_viewPath (s : State) : ViewPath s (camReverseOn s) := by
  unfold camReverseOn
  split
  · exact leaveTest_viewPath _ s
  · exact .refl s

theorem ownCameraTest_viewPath (mode : Byte) (s : State) : ViewPath s (ownCameraTest mode s).1 := by
  obtain e | e | e := ownCameraTest_cases mode s <;> rw [e]
  · exact .refl s
  · exact (switchSource_viewPath _ s).trans (viewPath_setCin _ _)
  · exact leaveTest_viewPath 1 s

theorem restOfTest_viewPath (n : Nat) (s : State) : ViewPath s (restOfTest n s) := by
  induction n generalizing s with
  | zero => exact .refl s
  | succ n ih => exact (finishLine_viewPath s).trans ((nextTestRow_viewPath _).trans (ih _))

theorem endTestFrame_viewPath (s : State) : ViewPath s (endTestFrame s) := by
  have rest : ∀ n, ViewPath s (restOfTest n (reach s.cin.testEnd s)) := fun n =>
    (reach_viewPath _ s).trans (restOfTest_viewPath n _)
  unfold endTestFrame
  split
  · exact .refl s
  · split
    · exact .refl s
    · simp only
      split
      · exact (rest _).trans (endFrame_viewPath _ _)
      · exact rest _

theorem startTestFrame_viewPath (s : State) : ViewPath s (startTestFrame s) := by
  unfold startTestFrame
  exact (endTestFrame_viewPath s).trans ((reach_viewPath _ _).trans ((camFrameStart_viewPath _).trans
    ((viewPath_setCin _ _).trans (nextTestRow_viewPath _))))

/-! ### The vehicle -/

theorem evalCadence_viewPath (b : Bool) (s : State) : ViewPath s (evalCadence b s) := viewPath_of_same (by simp) (by simp)

/-- R13, R42, R48: REVERSE has changed since `u`, which has the view of `s`, and the view moves with it. -/
theorem handReverse_viewPath (was : u.vsr.reverse = !s.vsr.reverse) (same : u.vwc = s.vwc) : ViewPath u (handReverse s) := by
  have chime : ∀ v : State, ViewPath v (chimeReverseOn v) := fun v => by
    unfold chimeReverseOn
    split
    · exact viewPath_of_same (by simp) (by simp)
    · exact .refl v
  unfold handReverse
  split
  · rename_i is
    exact (viewReverseOn_viewPath (by simpa [is] using was) same is).trans
      ((camReverseOn_viewPath _).trans ((chime _).trans (evalCadence_viewPath _ _)))
  · rename_i is
    rw [Bool.not_eq_true] at is
    exact (viewReverseOff_viewPath (by simpa [is] using was) same is).trans (evalCadence_viewPath _ _)

/-- R13: REVERSE has taken a value, with its notice. -/
def reverseTaken (new : Bool) (s : State) : State :=
  raise .reverseChange (if new then 1 else 0) (sourceWord s.vsr) (s.setVsr { s.vsr with reverse := new })

/-- R13: a change of REVERSE is its notice, and is handed on. -/
theorem evalReverse_of_changed {new : Bool} (h : (lineSource s.vsr || gearSource s.vsr) = new) (k : new ≠ s.vsr.reverse) :
    evalReverse s = handReverse (reverseTaken new s) := by
  unfold evalReverse
  simp only [h, k, if_false]
  rfl

@[simp] theorem reverseTaken_vsr (new : Bool) (s : State) : (reverseTaken new s).vsr = { s.vsr with reverse := new } := raise_vsr _ _ _ _

theorem same_reverseTaken {p : Part} (v : p ≠ .vsr) (w : p ≠ .wai) (new : Bool) : p.same s (reverseTaken new s) := by
  simp [reverseTaken, v, w]

theorem evalReverse_viewPath (s : State) : ViewPath s (evalReverse s) := by
  by_cases k : (lineSource s.vsr || gearSource s.vsr) = s.vsr.reverse
  · rw [evalReverse_of_unchanged k]
    exact .refl s
  · rw [evalReverse_of_changed rfl k]
    refine handReverse_viewPath ?_ ((same_reverseTaken (p := .vwc) (by decide) (by decide) _).symm)
    rw [reverseTaken_vsr]
    exact Bool.eq_not_of_ne (Ne.symm k)

theorem evalDisagreement_viewPath (s : State) : ViewPath s (evalDisagreement s) := by
  rw [evalDisagreement_eq]
  exact viewPath_of_eq rfl rfl

theorem evalMotion_viewPath (s : State) : ViewPath s (evalMotion s) := by
  have parked : ViewPath s (evalParked s) := viewPath_of_eq (by rw [evalParked_vsr])
    ((same_evalParked (p := .vwc) (by decide) (by decide) (by decide)).2 rfl)
  exact parked.trans ((evalReverse_viewPath _).trans (evalDisagreement_viewPath _))

theorem moveFresh_viewPath (k : VslKind) (f : Freshness) (s : State) : ViewPath s (moveFresh k f s) :=
  viewPath_of_eq (by rw [moveFresh_vsr]; cases k <;> rfl) ((same_moveFresh (p := .vwc) (by decide) (by decide)).2 rfl)

theorem frameErrorNow_viewPath (e : VslError) (n : Nat) (b : Option Byte) (s : State) : ViewPath s (frameErrorNow e n b s) :=
  viewPath_of_eq (by rw [frameErrorNow_vsr]) ((same_frameErrorNow (p := .vwc) (by decide) (by decide)).2 rfl)

theorem takeEvent_viewPath (e : RxEvent) (s : State) : ViewPath s (takeEvent e s) := by
  have record : ∀ (u : State) (m : MotionPart), ViewPath u (u.setVsr { u.vsr with motion := m }) := fun _ _ => viewPath_of_eq rfl rfl
  have park : ∀ (u : State) (m : ParkPart), ViewPath u (u.setVsr { u.vsr with park := m }) := fun _ _ => viewPath_of_eq rfl rfl
  have motion : ∀ (m : MotionPart) (seq : BitVec 4) (u : State),
      ViewPath u (viewSpeed (evalMotion (freshFrame .motion seq (u.setVsr { u.vsr with motion := m })))) := fun m seq u =>
    (record u m).trans ((moveFresh_viewPath _ _ _).trans ((evalMotion_viewPath _).trans (viewSpeed_viewPath _)))
  cases e with
  | error e hdr => exact frameErrorNow_viewPath _ _ _ s
  | good hdr bits =>
    simp only [takeEvent]
    split
    · unfold goodMotion
      simp only
      split
      · exact motion _ _ s
      · exact (frameErrorNow_viewPath _ _ _ s).trans (motion _ _ _)
    · exact (park s _).trans ((moveFresh_viewPath _ _ _).trans (evalCadence_viewPath _ _))

theorem takeBits_viewPath (bits : List Bool) (s : State) : ViewPath s (takeBits bits s) := by
  have all : ∀ (es : List RxEvent) (u : State), ViewPath u (es.foldl (fun t e => takeEvent e t) u) := by
    intro es
    induction es with
    | nil => exact fun u => .refl u
    | cons e es ih => exact fun u => (takeEvent_viewPath e u).trans (ih _)
  have received : ViewPath s (s.setVsr { s.vsr with rx := (rxBits bits s.vsr.rx).1 }) := viewPath_of_eq rfl rfl
  exact received.trans (all _ _)

theorem holdExpiry_viewPath (s : State) : ViewPath s (holdExpiry s) := by
  have debounced : ViewPath s (s.setVsr { s.vsr with hold := none, debRev := s.vsr.rawRev }) := viewPath_of_eq rfl rfl
  exact debounced.trans ((evalReverse_viewPath _).trans (evalDisagreement_viewPath _))

theorem freshDeadline_viewPath (k : VslKind) (s : State) : ViewPath s (freshDeadline k s) := by
  cases k with
  | motion => exact (moveFresh_viewPath _ _ s).trans (evalMotion_viewPath _)
  | parkAssist => exact (moveFresh_viewPath _ _ s).trans (evalCadence_viewPath _ _)

/-! ### The settings and the vblank -/

theorem viewPath_of_policy (r : Part.vsr.same s t) {p : Policy} (v : t.vwc = { s.vwc with policy := p }) : ViewPath s t := by
  refine viewPath_of_move ?_
  rw [viewCourse, viewCourse, v, show t.vsr = s.vsr from r]
  exact .policy _ _ _

theorem takeSettings_vwc (x : Settings) (src : SettingsSource) (s : State) :
    (takeSettings x src s).vwc = { s.vwc with policy := x.policy } := by simp [takeSettings, settleDefs]

theorem takeStartImage_viewPath (img : List Byte) (s : State) : ViewPath s (takeStartImage img s) := by
  unfold takeStartImage
  split
  · exact viewPath_of_policy (by simp) (p := (imageSettings img).policy) (by simp [raiseSettings, takeSettings_vwc])
  · exact viewPath_of_policy (by simp) (p := defaultSettings.policy) (by simp [raiseSettings, takeSettings_vwc])

theorem applyWaiting_viewPath (s : State) : ViewPath s (applyWaiting s) :=
  viewPath_of_policy (by simp) (applyWaiting_vwc s)

theorem freeFlash_viewPath (s : State) : ViewPath s (freeFlash s) := viewPath_of_same (by simp) (by simp)

theorem compareImage_viewPath (bytes : List Byte) (s : State) : ViewPath s (compareImage bytes s) := by
  have ended : ∀ (x : Sto) (n : Word) (u : State), ViewPath u
      (if (u.setSto x).vwc.view = .off then applyWaiting (u.setSto x) else raiseSettings 3 0 n (u.setSto x)) := fun x n u => by
    have kept : ViewPath u (u.setSto x) := viewPath_of_eq rfl rfl
    split
    · exact kept.trans (applyWaiting_viewPath _)
    · exact kept.trans (raise_viewPath _ _ _ _)
  have completed : ∀ (q : LongReq) (u : State), ViewPath u (completeRequest q statusDone u) := fun q u =>
    viewPath_of_same (by simp) (by simp)
  have finished : ∀ u : State, ViewPath u (finishWrite u) := fun u => by
    unfold finishWrite
    cases u.sto.writeReq with
    | some q => exact (completed q u).trans (ended _ _ _)
    | none => exact ended _ _ u
  unfold compareImage
  split
  · exact (finished s).trans (freeFlash_viewPath _)
  · exact viewPath_of_same (by simp) (by simp)

/-- R45: at a vblank the view moves by its check at one of the CENTRE pipe. -/
theorem vblank_viewPath (p : PipeId) (s : State) : ViewPath s (vblank p s) := by
  have fixed : ∀ u : State, ViewPath u (fixFrame p (present p u)) := fun u => viewPath_of_same (by simp) (by simp)
  have begun : ∀ (x : Pipe) (n : Nat), ViewPath s (activateScene p (countStart p (setPipe p x (reachNs n s)))) := fun x n =>
    viewPath_of_same (by simp) (by simp)
  have guide : ∀ u : State, ViewPath u (guideVblank u) := fun u => viewPath_of_same (by simp) (by simp)
  have centre : ∀ u : State, ViewPath u (centreVblank u) := fun u =>
    (viewVblank_viewPath u).trans ((viewPath_setCin _ _).trans (guide _))
  unfold vblank
  simp only
  split
  · exact (begun _ _).trans ((centre _).trans (fixed _))
  · exact (begun _ _).trans (fixed _)

/-! ### The records of a page, and the local port -/

/-- Table 8-6: of the requests VIEW_REQUEST, SET_VIEW_POLICY and CAMERA_TEST alone reach the view. -/
theorem ownRequest_viewPath (q : LongReq) (r : Request) (s : State) : ViewPath s (ownRequest q r s).1 := by
  cases r
  case viewRequest mode => exact ownViewRequest_viewPath mode s
  case setViewPolicy p => exact ownSetViewPolicy_viewPath p s
  case cameraTest mode => exact ownCameraTest_viewPath mode s
  all_goals exact viewPath_of_same (by simp [ownRequest]) (by simp [ownRequest])

/-- R176: a record reaches the view through its owner only. -/
theorem takeRecord_viewPath {own : LongReq → State → State × Answer} (r : RecordRef) (o : ∀ q u, ViewPath u (own q u).1) (s : State) :
    ViewPath s (takeRecord r own s) := by
  have entered : ∀ (a : Answer) (u : State), ViewPath u (enterAnswer r a u) := fun a u =>
    viewPath_of_same ((same_enterAnswer (by decide)).2 (Part.same_self _ _)) ((same_enterAnswer (by decide)).2 (Part.same_self _ _))
  have placed : ViewPath s (answerPlaced r s) := viewPath_of_eq rfl rfl
  unfold takeRecord
  simp only
  split
  · exact placed.trans ((o _ _).trans (entered _ _))
  · exact o _ s

theorem takeKind_viewPath (r : RecordRef) (bytes : List Byte) (s : State) : ViewPath s (takeKind r bytes s) := by
  refine takeRecord_viewPath r (fun q u => ?_) s
  split
  · split
    · exact .refl u
    · exact ownRequest_viewPath q _ u
  · exact .refl u

theorem takeRecords_viewPath (n page : Nat) (seq : Word) (fill : List Byte) (pos : Nat) (s : State) :
    ViewPath s (takeRecords n page seq fill pos s) := by
  induction n generalizing pos s with
  | zero => exact .refl s
  | succ n ih =>
    unfold takeRecords
    simp only
    split
    · exact .refl s
    · split
      · exact takeRecord_viewPath _ (fun q u => .refl u) s
      · exact (takeKind_viewPath _ _ s).trans (ih _ _)

theorem recordsRead_viewPath (page : Nat) (bytes : List Byte) (s : State) : ViewPath s (recordsRead page bytes s) := by
  have ended : ∀ (r : RecordRef) (u : State), ViewPath u (endPage r u) := fun r u => viewPath_of_same (by simp) (by simp)
  unfold recordsRead
  simp only
  split
  · exact (viewPath_setWai _ _).trans ((takeRecords_viewPath _ _ _ _ _ _).trans (ended _ _))
  · exact viewPath_setWai _ _

/-- R150: the data of a unit reaches the view through the records of a page only. -/
theorem handData_viewPath (c : ChanId) (discard : Bool) (data : List Byte) (s : State) : ViewPath s (handData c discard data s) := by
  cases c
  case work =>
    unfold handData workArrived
    simp only
    split
    · exact viewPath_of_eq rfl rfl
    · split
      · split
        · exact viewPath_of_same (by simp) (by simp)
        · exact viewPath_of_same (by simp) (by simp)
        · exact (viewPath_of_same (by simp) (by simp) : ViewPath s _).trans (recordsRead_viewPath _ _ _)
        · exact viewPath_of_same (by simp) (by simp)
      · exact viewPath_of_eq rfl rfl
  case plane =>
    simp only [handData]
    split
    · exact viewPath_of_same (by simp) (by simp)
    · exact viewPath_of_same (by simp) (by simp)
  case bulk id =>
    cases id
    case settingsIn =>
      simp only [handData]
      split
      · exact viewPath_of_same (by simp) (by simp)
      · exact viewPath_of_same (by simp) (by simp)
    all_goals exact viewPath_of_same (by simp [handData]) (by simp [handData])
  all_goals exact viewPath_of_same (by simp [handData]) (by simp [handData])

theorem drain_viewPath (n : Nat) (c : ChanId) (s : State) : ViewPath s (drain n c s) := by
  induction n generalizing s with
  | zero => exact .refl s
  | succ n ih =>
    unfold drain
    split
    · exact .refl s
    · split
      · exact (viewPath_setFen _ _).trans ((handData_viewPath _ _ _ _).trans (ih _))
      · exact .refl s

theorem completion_viewPath (place : Nat) (ok : Bool) (data : List Byte) (s : State) : ViewPath s (completion place ok data s) := by
  unfold completion
  split
  · exact .refl s
  · split
    · split
      · exact (viewPath_setFen _ _).trans (drain_viewPath _ _ _)
      · exact viewPath_of_same (by simp [exitParts, removeUnit]) (by simp [exitParts, removeUnit])
    · unfold afterOrphan
      split
      · exact viewPath_of_same (by simp [removeUnit]) (by simp [removeUnit])
      · exact viewPath_of_same (by simp [removeUnit]) (by simp [removeUnit])
    · exact .refl s

/-- R151: a local unit reaches the view where it is one of CAM_WR. -/
theorem localDone_viewPath (s : State) : ViewPath s (localDone s) := by
  have moved : ∀ (q : LocalUnit) (u : State), ViewPath u (localMoved q u) := fun q u => by
    unfold localMoved
    split
    · unfold cameraWritten
      simp only
      split
      · exact (viewPath_setFen _ _).trans (lineWritten_viewPath _)
      · exact viewPath_of_eq rfl rfl
    · unfold guideWritten
      simp only
      split
      · exact viewPath_of_same (by simp) (by simp)
      · exact viewPath_of_eq rfl rfl
    · exact viewPath_of_eq rfl rfl
    · exact viewPath_of_eq rfl rfl
    · unfold bankArrived
      split
      · exact .refl u
      · exact viewPath_of_eq rfl rfl
    · unfold bulkWrote
      split
      · simp only
        split
        · exact viewPath_of_same (by simp) (by simp)
        · exact viewPath_of_eq rfl rfl
      · exact .refl u
  have written : ∀ ws : List (Nat × List Byte), ViewPath s (writePieces ws (s.setFen { s.fen with localUnit := none })) := fun ws =>
    viewPath_of_same (by simp) (by simp)
  unfold localDone
  split
  · exact .refl s
  · simp only
    split
    · exact (written _).trans (moved _ _)
    · exact written _

/-! ### Every command -/

theorem viewPath_of_finish (k : ViewPath s u) (h : finish u = .next t) : ViewPath s t :=
  k.trans (viewPath_of_eq (congrArg Vsr.reverse (vsr_of_finish h)) (same_of_finish (p := .vwc) (by decide) (by decide) rfl h))

theorem viewPath_of_next (h : (.next s : Host.Outcome State Fault Refusal) = .next t) : ViewPath s t := by
  cases h; exact .refl s

theorem viewPath_of_request {r : RecordRef} {own : LongReq → State → State × Answer} (o : ∀ q u, ViewPath u (own q u).1)
    (h : request r own s = .next t) : ViewPath s t := by
  unfold request at h
  split at h
  · exact viewPath_of_finish (takeRecord_viewPath r o s) h
  · exact viewPath_of_next h

/-- R39 to R51: what a command but power-on reset does to REVERSE and the view. -/
theorem exec_viewPath {c : Instr} (n : ∀ rev, c ≠ .powerOnReset rev) (h : exec c s = .next t) : ViewPath s t := by
  cases c
  case powerOnReset rev => exact absurd rfl (n rev)
  -- the vehicle line and REVERSE
  case motionFrame bits | parkAssistFrame bits | frameError bits | returnToRest bits =>
    exact viewPath_of_finish (takeBits_viewPath bits s) h
  case revInEdge level => exact viewPath_of_finish (viewPath_of_eq (by rw [revEdge_vsr])
    ((same_revEdge (p := .vwc) (by decide)).2 rfl)) h
  case freshnessDeadline kind =>
    dsimp only [exec, execFreshnessDeadline] at h
    split at h
    · exact viewPath_of_finish ((reach_viewPath _ s).trans (freshDeadline_viewPath kind _)) h
    · exact viewPath_of_next h
  case holdTimer =>
    dsimp only [exec, execHoldTimer] at h
    split at h
    · exact viewPath_of_finish ((reach_viewPath _ s).trans (holdExpiry_viewPath _)) h
    · exact viewPath_of_next h
  case disagreementTimer =>
    dsimp only [exec, execDisagreementTimer] at h
    split at h
    · exact viewPath_of_finish ((reach_viewPath _ s).trans (viewPath_of_eq (by rw [disagreementExpiry_vsr])
        ((same_disagreementExpiry (p := .vwc) (by decide) (by decide)).2 rfl))) h
    · exact viewPath_of_next h
  -- the camera port, its deadline and test mode
  case frameStart =>
    dsimp only [exec, execFrameStart] at h
    split at h
    · exact viewPath_of_finish (camFrameStart_viewPath s) h
    · exact viewPath_of_next h
  case lineStart => exact viewPath_of_finish (camLineStart_viewPath s) h
  case lineEnd => exact viewPath_of_finish (camLineEnd_viewPath s) h
  case frameEnd => exact viewPath_of_finish (camFrameEnd_viewPath s) h
  case invalidCode => exact viewPath_of_finish (camInvalid_viewPath s) h
  case pixelByte b => exact viewPath_of_finish (camPixel_viewPath b s) h
  case frameStartDeadline =>
    dsimp only [exec, execFrameStartDeadline] at h
    split at h
    · exact viewPath_of_finish ((reach_viewPath _ s).trans (camDeadline_viewPath _)) h
    · exact viewPath_of_next h
  case testFrameStart =>
    dsimp only [exec, execTestFrameStart] at h
    split at h
    · exact viewPath_of_finish (startTestFrame_viewPath s) h
    · exact viewPath_of_next h
  case testFrameEnd =>
    dsimp only [exec, execTestFrameEnd] at h
    split at h
    · exact viewPath_of_finish (endTestFrame_viewPath s) h
    · exact viewPath_of_next h
  case cameraTest r mode => exact viewPath_of_request (fun _ => ownCameraTest_viewPath mode) h
  -- the view's own timers and requests
  case viewRequest r mode => exact viewPath_of_request (fun _ => ownViewRequest_viewPath mode) h
  case setViewPolicy r p => exact viewPath_of_request (fun _ => ownSetViewPolicy_viewPath p) h
  case startTimer =>
    dsimp only [exec, execStartTimer] at h
    split at h
    · exact viewPath_of_finish ((reach_viewPath _ s).trans (viewStartTimeout_viewPath _)) h
    · exact viewPath_of_next h
  case exitTimer =>
    dsimp only [exec, execExitTimer] at h
    split at h
    · exact viewPath_of_finish ((reach_viewPath _ s).trans (viewExitTimeout_viewPath _)) h
    · exact viewPath_of_next h
  -- the CENTRE pipe, the records, the local port and the settings
  case pipeVblank p =>
    dsimp only [exec, execPipeVblank] at h
    split at h
    · exact viewPath_of_next h
    · exact viewPath_of_finish (vblank_viewPath p s) h
  case readCompletion place ok data => exact viewPath_of_finish (completion_viewPath place ok data s) h
  case localUnitCompletion => exact viewPath_of_finish (localDone_viewPath s) h
  case settingsLoad img =>
    dsimp only [exec, execSettingsLoad] at h
    split at h
    · exact viewPath_of_finish ((reachNs_viewPath _ s).trans ((takeStartImage_viewPath img _).trans (freeFlash_viewPath _))) h
    · exact viewPath_of_next h
  case verifyReadComplete bytes =>
    dsimp only [exec, execVerifyReadComplete] at h
    split at h
    · exact viewPath_of_finish ((reachNs_viewPath _ s).trans (compareImage_viewPath bytes _)) h
    · exact viewPath_of_next h
  all_goals exact viewPath_of_same (exec_same (by simp [mayTouch, exitParts]) h) (exec_same (by simp [mayTouch, exitParts]) h)

/-- A condition on REVERSE and the view that each move of the view keeps, and that holds right after power-on reset, is kept by every
step. -/
theorem step_keeps_viewCourse {C : Bool × Vwc → Prop} (moves : ∀ a b, ViewMove a b → C a → C b) (reset : C (false, resetVwc))
    (k : C (viewCourse s)) (h : step s = .next t) : C (viewCourse t) := by
  obtain ⟨-, rfl⟩ | ⟨c, rest, -, h⟩ := step_cases h
  · exact k
  · by_cases r : ∃ rev, c = .powerOnReset rev
    · obtain ⟨rev, rfl⟩ := r
      obtain rfl : _ = t := by simpa [exec, execPowerOnReset] using h
      exact reset
    · exact (exec_viewPath (fun rev e => r ⟨rev, e⟩) h).keeps moves k

/-- R39, R44, R48: each move of the view runs a timer exactly in its state, and leaves MANUAL clear in OFF and in EXIT_HOLD. -/
theorem viewMove_keeps_viewOk {a b : Bool × Vwc} (m : ViewMove a b) (k : viewOk a.2 = true) : viewOk b.2 = true := by
  have moved : ∀ (n : Nat) (new : ViewState) (manual : Bool) (v : Vwc), (new = .off ∨ new = .exitHold → manual = false) →
      viewOk (movedView n new manual v) = true := fun n new manual v h => by cases new <;> simp_all [viewOk, movedView]
  cases m
  case policy => exact k
  case closed | requested | reverseOpens | reverseLeaves => exact moved _ _ _ _ (by simp)
  case resumed new h e | pictured new h e | reverseResumes new h e => exact moved _ _ _ _ (by rcases e with rfl | rfl <;> simp)
  case reverseTakes v h =>
    simp only [viewOk, Bool.and_eq_true] at k ⊢
    exact ⟨k.1, by simp⟩
  case reverseStays => exact k
  case startStopped h => simp_all [viewOk]
  case exitStopped h => simp_all [viewOk]

/-- R42, R48, R49, R51: a condition of `reverseOk` that each move of the view keeps. -/
def heldByReverse (c : Bool × Vwc) : Prop :=
  (c.2.view.shows → c.2.manual = !c.1) ∧ (¬ c.2.view.shows → c.1 = false ∧ c.2.manual = false)

theorem reverseOk_iff (s : State) : reverseOk s = true ↔ heldByReverse (viewCourse s) := by
  unfold reverseOk heldByReverse viewCourse ViewState.shows
  cases s.vwc.view <;> simp

theorem viewMove_keeps_heldByReverse {a b : Bool × Vwc} (m : ViewMove a b) (k : heldByReverse a) : heldByReverse b := by
  have moved : ∀ (n : Nat) (r : Bool) (new : ViewState) (manual : Bool) (v : Vwc), (new.shows → manual = !r) →
      (¬ new.shows → r = false ∧ manual = false) → heldByReverse (r, movedView n new manual v) := fun n r new manual v h l => ⟨h, l⟩
  cases m
  case policy => exact k
  case closed n r v h =>
    refine moved _ _ _ _ _ (by simp [ViewState.shows]) (fun _ => ⟨?_, rfl⟩)
    by_cases shows : v.view.shows
    · have := k.1 shows
      rcases h with h | h
      · simp [ViewState.shows, h] at shows
      · simp_all
    · exact (k.2 shows).1
  case requested => exact moved _ _ _ _ _ (by simp) (by simp [ViewState.shows])
  case resumed n r v new h e =>
    have clear := (k.2 (by simp [ViewState.shows, h])).1
    exact moved _ _ _ _ _ (by simp_all) (by rcases e with rfl | rfl <;> simp [ViewState.shows])
  case pictured n r v new h e =>
    exact moved _ _ _ _ _ (fun _ => k.1 h) (by rcases e with rfl | rfl <;> simp [ViewState.shows])
  case reverseOpens => exact moved _ _ _ _ _ (by simp) (by simp [ViewState.shows])
  case reverseResumes n v new h e =>
    have clear := (k.2 (by simp [ViewState.shows, h])).2
    exact moved _ _ _ _ _ (fun _ => by simpa using clear) (by rcases e with rfl | rfl <;> simp [ViewState.shows])
  case reverseTakes v h => exact ⟨fun _ => rfl, fun n => absurd h n⟩
  case reverseStays v h => exact ⟨fun l => h l, fun n => by have := (k.2 n).1; contradiction⟩
  case reverseLeaves n v new h e => exact moved _ _ _ _ _ (by rcases e with rfl | rfl <;> simp [ViewState.shows]) (fun _ => ⟨rfl, rfl⟩)
  case startStopped => exact k
  case exitStopped => exact k

/-- Settles O26: each move of the view keeps both conditions, and every command makes such moves only. -/
theorem stepKeepsViewTimers : Obligations.StepKeepsViewTimers := by
  refine ⟨fun s t k h => ?_, fun s t k h => ?_⟩
  · exact step_keeps_viewCourse (C := fun c => viewOk c.2 = true) (fun _ _ => viewMove_keeps_viewOk) (by decide) k h
  · rw [reverseOk_iff] at k ⊢
    exact step_keeps_viewCourse (fun _ _ => viewMove_keeps_heldByReverse) (by simp [heldByReverse, resetVwc, ViewState.shows]) k h

end ViewSteps

/-! ## What a move of the view brings

The notice, the pipe, the overlay and the chimes, each seen apart. -/

section Moved
variable {p : Part} {s t u : State} {new : ViewState} {manual : Bool} {cause : ViewCause} {k : NoticeKind} {r : RecordRef}

@[simp] theorem slotCore_viewMoved (h : k ≠ .guideState) :
    slotCore (viewMoved new manual s) (slotNumber k) = slotCore s (slotNumber k) := by
  unfold viewMoved
  simp only
  split <;> split <;> simp [h]

/-- R53: what an entry into a state brings leaves VIEW_CHANGE. -/
theorem slotCore_enterView : slotCore (enterView new s) (slotNumber .viewChange) = slotCore s (slotNumber .viewChange) := by
  cases new <;> simp [enterView]

@[simp] theorem viewMoved_clockNs : (viewMoved new manual s).clockNs = s.clockNs :=
  same_viewMoved (p := .clock) (by decide) (by decide) (by decide) (by decide) (by decide) (by decide)

/-- R53: a move of the view at `u`, which has what the slot of `s` records, is one VIEW_CHANGE, seen from `s` and at a `t` that keeps what
it left. -/
theorem noticeRaised_moveView (before : slotCore u (slotNumber .viewChange) = slotCore s (slotNumber .viewChange))
    (after : slotCore t (slotNumber .viewChange) = slotCore (moveView new manual cause u) (slotNumber .viewChange))
    (time : cabin u = cabin t) :
    noticeRaised .viewChange
      (BitVec.ofNat 32 (viewCode new + 256 * viewCode u.vwc.view + bit manual 16 + bit u.vwc.manual 17))
      (BitVec.ofNat 32 (viewCauseCode cause)) s t := by
  rw [moveView_eq, slotCore_enterView] at after
  exact noticeRaised_of_raise (u := viewMoved new manual u) ((slotCore_viewMoved (by decide)).trans before) after
    ((cabin_congr viewMoved_clockNs).trans time)

/-! ### The pipes -/

/-- A pipe but for what it fetches and shows of its planes. -/
def Pipe.bare (x : Pipe) : Pipe := { x with readers := [], content := .none }

theorem st_of_bare {x y : Pipe} (h : x.bare = y.bare) : x.st = y.st := (congrArg Pipe.st h :)
theorem timing_of_bare {x y : Pipe} (h : x.bare = y.bare) : x.timing = y.timing := (congrArg Pipe.timing h :)

@[simp] theorem bare_setReader (q q' : PipeId) (n : Nat) (x : SlotReader) (s : State) :
    (pipeOf (setReader q' n x s) q).bare = (pipeOf s q).bare := by
  unfold setReader
  rw [pipeOf_setPipe]
  split
  · rename_i e; rw [e]; rfl
  · rfl

@[simp] theorem bare_hideSlot (q q' : PipeId) (n : Nat) (s : State) : (pipeOf (hideSlot q' n s) q).bare = (pipeOf s q).bare := by
  simp [hideSlot, suspendChannel]

@[simp] theorem bare_stopSlot (q q' : PipeId) (n : Nat) (s : State) : (pipeOf (stopSlot q' n s) q).bare = (pipeOf s q).bare := by
  simp [stopSlot, stopChannel]

theorem bare_onSlots {q : PipeId} {f : Nat → State → State} (h : ∀ n u, (pipeOf (f n u) q).bare = (pipeOf u q).bare) (s : State) :
    (pipeOf (onSlots f s) q).bare = (pipeOf s q).bare := by
  have all : ∀ (ns : List Nat) (u : State), (pipeOf (ns.foldl (fun t n => f n t) u) q).bare = (pipeOf u q).bare := by
    intro ns
    induction ns with
    | nil => exact fun u => rfl
    | cons n ns ih => exact fun u => (ih _).trans (h n u)
  exact all _ s

@[simp] theorem bare_hideSlots (q q' : PipeId) (s : State) : (pipeOf (hideSlots q' s) q).bare = (pipeOf s q).bare :=
  bare_onSlots (fun n u => bare_hideSlot q q' n u) s

@[simp] theorem bare_stopSlots (q q' : PipeId) (s : State) : (pipeOf (stopSlots q' s) q).bare = (pipeOf s q).bare :=
  bare_onSlots (fun n u => bare_stopSlot q q' n u) s

theorem pipeOf_of_same (h : Part.cmp.same s t) (q : PipeId) : pipeOf t q = pipeOf s q := by
  rw [pipeOf, show t.cmp = s.cmp from h]; rfl

@[simp] theorem pipeOf_dropLayers (s : State) (q : PipeId) : pipeOf (dropLayers s) q = pipeOf s q :=
  pipeOf_of_same ((same_dropLayers (by decide)).2 rfl) q

/-- R83: the composition takes the screen, and leaves the pipe's state. -/
@[simp] theorem bare_openComposition (q : PipeId) (s : State) : (pipeOf (openComposition s) q).bare = (pipeOf s q).bare := by
  unfold openComposition
  simp only
  split
  · rfl
  · rw [pipeOf_setPipe]
    split
    · rename_i e; rw [e]; rfl
    · rw [pipeOf_clearPicture]
  · refine (bare_onSlots (fun n u => ?_) _).trans ?_
    · split
      · rfl
      · exact bare_hideSlot _ _ _ _
    · rw [pipeOf_setPipe]
      split
      · rename_i e; rw [e, pipeOf_clearPicture, pipeOf_dropLayers]; rfl
      · rw [pipeOf_clearPicture, pipeOf_dropLayers]

@[simp] theorem bare_viewMoved (q : PipeId) : (pipeOf (viewMoved new manual s) q).bare = (pipeOf s q).bare := by
  have left : ∀ x : State, pipeOf (guideExit x) q = pipeOf x q := fun x =>
    pipeOf_of_same ((same_guideExit (by decide) (by decide) (by decide)).2 rfl) q
  unfold viewMoved
  simp only
  split <;> split <;> simp [left]

theorem raiseView_pipe (a b : Vwc) (q : PipeId) : pipeOf (raiseView a b cause s) q = pipeOf s q := pipeOf_raise _ _ _ _ _

/-- R44: a move into a state other than STARTING leaves the pipes' states. -/
theorem bare_moveView (h : new ≠ .starting) (q : PipeId) :
    (pipeOf (moveView new manual cause s) q).bare = (pipeOf s q).bare := by
  have entered : ∀ x : State, pipeOf (enterView new x) q = pipeOf x q := fun x => by
    cases new with
    | starting => exact absurd rfl h
    | off => exact pipeOf_of_same (by simp [enterView]) q
    | noSignal => exact pipeOf_of_same (by simp [enterView]) q
    | live | exitHold => rfl
  rw [moveView_eq, entered, raiseView_pipe, bare_viewMoved]

@[simp] theorem pipeOf_handSet (q' : PipeId) (a b : Bool) (s : State) (q : PipeId) : pipeOf (handSet q' a b s) q = pipeOf s q :=
  pipeOf_of_same ((same_handSet (by decide) (by decide)).2 rfl) q

/-- R44, R72, R76: the view starts a CENTRE pipe that is OFF, and leaves one that is not. -/
theorem startByView_pipe (s : State) :
    (pipeOf (startByView s) .centre).st = (if (pipeOf s .centre).st = .off then .starting else (pipeOf s .centre).st) ∧
    ((pipeOf s .centre).st ≠ .off → startByView s = s) := by
  unfold startByView
  simp only
  split
  · rename_i off
    refine ⟨?_, fun n => absurd off n⟩
    unfold enterStarting raisePipe
    simp [startedPipe]
  · exact ⟨rfl, fun _ => rfl⟩

/-- R44: a move into STARTING starts the pipe. -/
theorem moveView_starting_pipe :
    (pipeOf (moveView .starting manual cause s) .centre).st
      = (if (pipeOf s .centre).st = .off then .starting else (pipeOf s .centre).st) ∧
    ((pipeOf s .centre).st ≠ .off → (pipeOf (moveView .starting manual cause s) .centre).bare = (pipeOf s .centre).bare) := by
  have bare := bare_viewMoved (new := .starting) (manual := manual) (s := s) .centre
  have raised := raiseView_pipe (s := viewMoved .starting manual s) (cause := cause) s.vwc (movedView (now s) .starting manual s.vwc)
    .centre
  have started := startByView_pipe (raiseView s.vwc (movedView (now s) .starting manual s.vwc) cause (viewMoved .starting manual s))
  rw [raised, st_of_bare bare] at started
  rw [moveView_eq, enterView]
  exact ⟨started.1, fun n => by rw [started.2 n, raised, bare]⟩

/-! ### The overlay and the answer of a record -/

/-- R62: the shown curvature is 0 in OFF. -/
theorem moveView_off_ks : (moveView .off manual cause s).glg.ks = 0 := by
  have applied : ∀ x : State, (applyWaiting x).glg.ks = x.glg.ks := fun x => by
    unfold applyWaiting
    split
    · rfl
    · simp [raiseSettings, takeSettings, settleDefs]
  rw [moveView_eq, enterView, applied]
  rfl

/-- R49 to R52: the view ends at `u`, which has the view and what the slot of `s` records, seen from `s` and at a `t` that keeps what it
left. -/
theorem viewClosed (vwc : u.vwc = s.vwc) (before : slotCore u (slotNumber .viewChange) = slotCore s (slotNumber .viewChange))
    (after : slotCore t (slotNumber .viewChange) = slotCore (moveView .off false cause u) (slotNumber .viewChange))
    (record : t.vwc = (moveView .off false cause u).vwc) (glg : t.glg = (moveView .off false cause u).glg)
    (time : cabin u = cabin t) :
    t.vwc.view = .off ∧ t.vwc.manual = false ∧ t.vwc.startTimer = none ∧ t.vwc.exitTimer = none ∧ t.glg.ks = 0 ∧
    noticeRaised .viewChange (BitVec.ofNat 32 (256 * viewCode s.vwc.view + if s.vwc.manual then 131072 else 0))
      (BitVec.ofNat 32 (viewCauseCode cause)) s t := by
  have notice := noticeRaised_moveView before after time
  have word : viewCode .off + 256 * viewCode u.vwc.view + bit false 16 + bit u.vwc.manual 17
      = 256 * viewCode s.vwc.view + if s.vwc.manual then 131072 else 0 := by simp [viewCode, bit, vwc]
  rw [word] at notice
  rw [record, glg, moveView_off_vwc, moveView_off_ks]
  exact ⟨rfl, rfl, rfl, rfl, rfl, notice⟩

@[simp] theorem raise_scanQueue (k : NoticeKind) (a b : Word) (s : State) : (raise k a b s).wai.scanQueue = s.wai.scanQueue := by
  unfold raise
  split
  · rfl
  · split <;> rfl

/-- R176: the answer of a record has its place in the scan, and is not yet the final one. -/
def answerAwaited (r : RecordRef) (s : State) : Prop := ∃ st n c, ScanItem.answer r st n false c ∈ s.wai.scanQueue

theorem answerAwaited_placed (r : RecordRef) (s : State) : answerAwaited r (answerPlaced r s) :=
  ⟨answerPending.status, 0, false, mem_insertAnswer⟩

theorem answerAwaited_congr (h : t.wai.scanQueue = s.wai.scanQueue) (k : answerAwaited r s) : answerAwaited r t := by
  unfold answerAwaited; rw [h]; exact k

/-- R176: the owner's answer takes the place that awaits it. -/
theorem answered_of_awaited {a : Answer} (h : answerAwaited r s) : answered r a (settle (enterAnswer r a s)) := by
  obtain ⟨st, n, c, m⟩ := h
  refine answered_settle (.inl ⟨false, a.status.major == .pending, ?_⟩)
  unfold enterAnswer onPage
  exact List.mem_map.2 ⟨_, m, by simp [ScanItem.answered]⟩

@[simp] theorem scanQueue_guideExit (s : State) : (guideExit s).wai.scanQueue = s.wai.scanQueue := by
  have run : ∀ x : State, (abandonRun x).wai = x.wai := fun x => (same_abandonRun (p := .wai) (by decide) (by decide)).2 rfl
  unfold guideExit setGuideMode
  simp only
  split <;> simp [run]

@[simp] theorem scanQueue_viewMoved : (viewMoved new manual s).wai.scanQueue = s.wai.scanQueue := by
  have opened : ∀ x : State, (openComposition x).wai = x.wai := fun x =>
    (same_openComposition (p := .wai) (by decide) (by decide)).2 rfl
  unfold viewMoved
  simp only
  split <;> split <;> simp [opened]

theorem scanQueue_enqueue (x : ChimeRec) (s : State) : (enqueue x s).1.wai.scanQueue = s.wai.scanQueue := by
  unfold enqueue raiseDropped
  repeat' split
  all_goals simp

@[simp] theorem scanQueue_arriveInternal (n : Nat) (s : State) : (arriveInternal n s).wai.scanQueue = s.wai.scanQueue := by
  have next : ∀ x : State, (startNext x).wai = x.wai := fun x => (same_startNext (p := .wai) (by decide) (by decide)).2 rfl
  have queued : ∀ (x : ChimeRec) (v : State), (arriveQueued x v).1.wai.scanQueue = v.wai.scanQueue := fun x v => by
    have e := scanQueue_enqueue x v
    unfold arriveQueued raiseDropped
    split <;> rename_i w hw <;> rw [hw] at e
    · rw [next]; exact e
    · split <;> simpa using e
  have preempted : ∀ (x : ChimeRec) (q : Playing) (v : State), (preempt x q v).wai.scanQueue = v.wai.scanQueue := fun x q v => by
    have e := scanQueue_enqueue q.chime (setPlaying (some (Playing.begin x)) (v.setChe { v.che with tail := tailOf v.che }))
    unfold preempt raiseDropped
    simp only
    split <;> rename_i w hw <;> rw [hw] at e <;> simpa using e
  unfold arriveInternal arrive
  split
  · rfl
  · unfold arriveDef
    simp only [settleDefs_wai]
    repeat' split
    all_goals simp [queued, preempted]

/-- R176: a move into a state other than STARTING completes no request. -/
theorem scanQueue_moveView (h : new ≠ .starting) : (moveView new manual cause s).wai.scanQueue = s.wai.scanQueue := by
  have applied : ∀ x : State, (applyWaiting x).wai.scanQueue = x.wai.scanQueue := fun x => by
    unfold applyWaiting
    split
    · rfl
    · simp [raiseSettings, takeSettings]
  rw [moveView_eq]
  cases new with
  | starting => exact absurd rfl h
  | off => simp [enterView, raiseView, applied]
  | live | noSignal | exitHold => simp [enterView, raiseView]

/-- A record whose answer is awaited, and for which no flush or close of a film stream is held. -/
def recordSpared (r : RecordRef) (s : State) : Prop :=
  answerAwaited r s ∧ ∀ st q, (filmOf s st).flush = some q ∨ (filmOf s st).close = some q → q.ref ≠ some r

theorem recordSpared_congr (h : t.wai.scanQueue = s.wai.scanQueue) (f : ∀ st, filmOf t st = filmOf s st) (k : recordSpared r s) :
    recordSpared r t :=
  ⟨answerAwaited_congr h k.1, fun st q e => k.2 st q (by rw [← f]; exact e)⟩

/-- R177: the end of another request leaves the place of the answer. -/
theorem completeRequest_spares {q : LongReq} {st : Status} (n : q.ref ≠ some r) (k : recordSpared r s) :
    recordSpared r (completeRequest q st s) := by
  have films : ∀ st', filmOf (completeRequest q st s) st' = filmOf s st' := fun st' => by
    rw [filmOf, show (completeRequest q st s).flm = s.flm from (same_completeRequest (p := .flm) (by decide)).2 rfl]; rfl
  refine ⟨?_, fun st' q' e => k.2 st' q' (by rw [← films]; exact e)⟩
  obtain ⟨a, m, c, i⟩ := k.1
  unfold completeRequest
  split
  · exact k.1
  · rename_i x hx
    split
    · split
      · exact ⟨a, m, c, List.mem_map.2 ⟨_, i, by simp [ScanItem.finish, show r ≠ x by rintro rfl; exact n hx]⟩⟩
      · exact k.1
    · exact k.1

/-- A film stream whose record changes, but for long requests that end. -/
theorem setFilm_spares {st : StreamId} {f : Film} (flush : f.flush = none ∨ f.flush = (filmOf s st).flush)
    (close : f.close = none ∨ f.close = (filmOf s st).close) (k : recordSpared r s) : recordSpared r (setFilm st f s) := by
  refine ⟨k.1, fun st' q e => ?_⟩
  rw [filmOf_setFilm] at e
  split at e
  · refine k.2 st q ?_
    rcases e with e | e
    · left; rcases flush with h | h <;> simp_all
    · right; rcases close with h | h <;> simp_all
  · exact k.2 st' q e

theorem completeFlush_spares {st : StreamId} (k : recordSpared r s) : recordSpared r (completeFlush st s) := by
  unfold completeFlush
  simp only
  split
  · exact k
  · rename_i q hq
    exact completeRequest_spares (k.2 st q (.inl hq)) (setFilm_spares (.inl rfl) (.inr rfl) k)

theorem completeClose_spares {st : StreamId} (k : recordSpared r s) : recordSpared r (completeClose st s) := by
  have flushed := completeFlush_spares (st := st) k
  unfold completeClose
  simp only
  split
  · exact k
  · rename_i q hq
    exact completeRequest_spares (flushed.2 st q (.inr hq)) (setFilm_spares (.inr rfl) (.inl rfl) flushed)

theorem handSet_spares {q : PipeId} {a b : Bool} (k : recordSpared r s) : recordSpared r (handSet q a b s) := by
  have video : ∀ (st : StreamId) (v : FilmVideo) (x : State), recordSpared r x → recordSpared r (setVideo st v x) := fun st v x h =>
    setFilm_spares (.inr rfl) (.inr rfl) h
  have retired : ∀ (st : StreamId) (x : State), recordSpared r x → recordSpared r (retireStream st x) := fun st x h => by
    have h := video st (retire (filmOf x st).video) x h
    unfold retireStream examineStream
    simp only
    split
    · split
      · exact completeClose_spares h
      · exact h
    · split
      · exact completeFlush_spares h
      · exact h
  unfold handSet
  exact retired _ _ (retired _ _ (video _ _ _ (video _ _ _ k)))

/-- R44, R72: the view starts the pipe, and spares the record. -/
theorem moveView_starting_spares (k : recordSpared r s) : recordSpared r (moveView .starting manual cause s) := by
  have films : ∀ (x y : State) (st : StreamId), Part.flm.same x y → filmOf y st = filmOf x st := fun x y st h => by
    rw [filmOf, show y.flm = x.flm from h]; rfl
  have moved : recordSpared r (raiseView s.vwc (movedView (now s) .starting manual s.vwc) cause (viewMoved .starting manual s)) :=
    recordSpared_congr (by simp [raiseView]) (fun st => films _ _ st ((same_raiseView (by decide)).2
      (same_viewMoved (by decide) (by decide) (by decide) (by decide) (by decide) (by decide)))) k
  rw [moveView_eq, enterView]
  generalize raiseView s.vwc (movedView (now s) .starting manual s.vwc) cause (viewMoved .starting manual s) = u at moved
  unfold startByView
  simp only
  split
  · unfold enterStarting
    simp only [if_true]
    refine handSet_spares (recordSpared_congr ?_ (fun st => films _ _ st ?_) moved)
    · have hidden : ∀ x : State, (hideSlots .centre x).wai = x.wai := fun x =>
        (same_hideSlots (p := .wai) (by decide) (by decide)).2 rfl
      have layout : ∀ (o : PipeState) (x : State), (startLayout o (dropLayers x)).wai = x.wai := fun o x =>
        (same_startLayout (p := .wai) (by decide)).2 ((same_dropLayers (by decide)).2 rfl)
      rw [raisePipe, raise_scanQueue]
      show (startLayout _ (dropLayers (hideSlots .centre _))).wai.scanQueue = _
      rw [layout, hidden]
      rfl
    · simp
  · exact moved

end Moved

/-! ## VIEW_REQUEST and SET_VIEW_POLICY (R41, R43, R51) -/

section ViewRequests
variable {s t : State} {r : RecordRef}

theorem exec_viewRequest (h : canTake r s = true) (mode : Byte) : exec (.viewRequest r mode) s =
    .next (settle (enterAnswer r (ownViewRequest mode (answerPlaced r s)).2 (ownViewRequest mode (answerPlaced r s)).1)) :=
  request_of_canTake h

/-- R176: an owner that changes nothing leaves the record its answer. -/
theorem answerAlone (a : Answer) : OnlyTouches [.fen, .wai] s (settle (enterAnswer r a (answerPlaced r s))) ∧
    answered r a (settle (enterAnswer r a (answerPlaced r s))) := by
  refine ⟨fun p h => ?_, answered_of_awaited (answerAwaited_placed r s)⟩
  simp only [List.mem_cons, List.not_mem_nil, or_false, not_or] at h
  refine (same_settle h.2 h.1).2 ((same_enterAnswer h.2).2 ?_)
  simp [answerPlaced, h]

theorem vwc_of_answer (a : Answer) (s : State) : (settle (enterAnswer r a s)).vwc = s.vwc := by
  rw [settle_vwc]; exact (same_enterAnswer (p := .vwc) (by decide)).2 rfl

theorem pipe_of_answer (a : Answer) (s : State) (q : PipeId) : pipeOf (settle (enterAnswer r a s)) q = pipeOf s q := by
  rw [pipeOf_settle]; exact pipeOf_of_same ((same_enterAnswer (by decide)).2 rfl) q

theorem notHeld_films (h : held r s = false) (st : StreamId) (q : LongReq)
    (e : (filmOf s st).flush = some q ∨ (filmOf s st).close = some q) : q.ref ≠ some r := by
  intro k
  simp only [held, Bool.or_eq_false_iff] at h
  obtain ⟨⟨⟨⟨⟨-, a⟩, b⟩, -⟩, -⟩, -⟩ := h
  cases st <;> rcases e with e | e <;> simp_all

/-- R43: a mode other than 0 and 1. -/
theorem ownViewRequest_range {mode : Byte} (h : 1 < mode.toNat) (s : State) : ownViewRequest mode s = (s, answerInvalid .range) := by
  have one : mode ≠ 1 := by rintro rfl; exact absurd h (by decide)
  have zero : mode ≠ 0 := by rintro rfl; exact absurd h (by decide)
  rw [ownViewRequest, if_neg one, if_neg zero]

theorem ownViewRequest_on (s : State) : ownViewRequest 1 s = viewOn s := by simp [ownViewRequest]
theorem ownViewRequest_off (s : State) : ownViewRequest 0 s = viewOff s := by simp [ownViewRequest]

/-- Settles O21, state by state of Table 3-3. -/
theorem viewRequestOnFollowsItsTable : Obligations.ViewRequestOnFollowsItsTable := by
  intro s r take free slow ready
  refine ⟨fun mode h => ⟨_, exec_viewRequest take mode, ?_⟩, _, exec_viewRequest take 1, fun off => ?_, fun hold => ?_, fun shows => ?_⟩
  · rw [ownViewRequest_range h]
    exact answerAlone _
  all_goals rw [ownViewRequest_on]
  · have spared : recordSpared r (answerPlaced r s) := ⟨answerAwaited_placed r s, fun st q e => notHeld_films free st q e⟩
    split
    · rename_i opens
      have own : viewOn (answerPlaced r s) = (moveView .starting true .requestOn (answerPlaced r s), answerDone) := by
        unfold viewOn
        rw [show (answerPlaced r s).vwc.view = .off from off]
        exact if_pos opens
      rw [own, vwc_of_answer, pipe_of_answer, moveView_vwc (by decide), moveView_starting_pipe.1]
      exact ⟨rfl, rfl, rfl, rfl, rfl, answered_of_awaited (moveView_starting_spares spared).1⟩
    · rename_i refused
      have own : viewOn (answerPlaced r s) = (answerPlaced r s, answerState .speed) := by
        unfold viewOn
        rw [show (answerPlaced r s).vwc.view = .off from off]
        exact if_neg refused
      rw [own, vwc_of_answer]
      exact ⟨rfl, answerAlone _⟩
  · split
    · rename_i resumes
      have own : viewOn (answerPlaced r s) = (moveView (if ready then .live else .noSignal) true .requestOn (answerPlaced r s), answerDone) := by
        unfold viewOn
        rw [show (answerPlaced r s).vwc.view = .exitHold from hold]
        exact if_pos resumes
      have picture : (if ready then ViewState.live else .noSignal) = .live ∨ (if ready then ViewState.live else .noSignal) = .noSignal := by
        split <;> simp
      rw [own]
      generalize (if ready then ViewState.live else .noSignal) = new at picture
      have awaited : answerAwaited r (moveView new true .requestOn (answerPlaced r s)) :=
        answerAwaited_congr (scanQueue_moveView (by rcases picture with rfl | rfl <;> decide)) (answerAwaited_placed r s)
      rw [vwc_of_answer, moveView_vwc (by rcases picture with rfl | rfl <;> decide)]
      refine ⟨rfl, rfl, ?_, ?_, answered_of_awaited awaited⟩
      all_goals rcases picture with rfl | rfl <;> rfl
    · rename_i refused
      have own : viewOn (answerPlaced r s) = (answerPlaced r s, answerState .speed) := by
        unfold viewOn
        rw [show (answerPlaced r s).vwc.view = .exitHold from hold]
        exact if_neg refused
      rw [own, vwc_of_answer]
      exact ⟨rfl, answerAlone _⟩
  · have own : viewOn (answerPlaced r s) = (answerPlaced r s, answerDone) := by
      unfold viewOn
      rcases shows with e | e | e <;> rw [show (answerPlaced r s).vwc.view = _ from e]
    rw [own]
    exact answerAlone _

/-- R51, R52: a request of mode 0 that moves the view into OFF. -/
theorem moveView_off_answered (t : State)
    (ht : t = settle (enterAnswer r answerDone (moveView .off false .requestOff (answerPlaced r s)))) :
    t.vwc.view = .off ∧ t.vwc.manual = false ∧ t.vwc.startTimer = none ∧ t.vwc.exitTimer = none ∧ t.glg.ks = 0 ∧
    (pipeOf t .centre).st = (pipeOf s .centre).st ∧
    noticeRaised .viewChange
      (BitVec.ofNat 32 (256 * viewCode s.vwc.view + if s.vwc.manual then 131072 else 0)) 4 s t ∧
    answered r ⟨⟨.done, .none⟩, 0⟩ t := by
  obtain ⟨view, manual, start, exit, ks, notice⟩ := viewClosed (s := s) (t := t) (u := answerPlaced r s) (cause := .requestOff) rfl rfl
    (by rw [ht, slotCore_settle (by decide), slotCore_enterAnswer]) (by rw [ht, vwc_of_answer])
    (by rw [ht, settle_glg]; exact (same_enterAnswer (p := .glg) (by decide)).2 rfl)
    (by rw [ht, cabin_settle]; exact (cabin_congr (enterAnswer_clockNs _ |>.trans moveView_clockNs)).symm)
  refine ⟨view, manual, start, exit, ks, ?_, notice, ?_⟩
  · rw [ht, pipe_of_answer, st_of_bare (bare_moveView (by decide) .centre)]; rfl
  · rw [ht]
    exact answered_of_awaited (answerAwaited_congr (scanQueue_moveView (by decide)) (answerAwaited_placed r s))

/-- Settles O22: what mode 0 does in each view state. -/
theorem viewRequestOffEndsAManualView : Obligations.ViewRequestOffEndsAManualView := by
  intro s r take
  refine ⟨_, exec_viewRequest take 0, ?_⟩
  rw [ownViewRequest_off]
  have view : (answerPlaced r s).vwc = s.vwc := rfl
  unfold viewOff
  rw [view]
  cases e : s.vwc.view with
  | off => exact answerAlone _
  | exitHold =>
    have moved := moveView_off_answered (r := r) (s := s) _ rfl
    rw [e] at moved
    simpa using moved
  | starting | live | noSignal =>
    cases m : s.vwc.manual with
    | true =>
      have moved := moveView_off_answered (r := r) (s := s) _ rfl
      rw [e, m] at moved
      simpa using moved
    | false =>
      simp only [reduceCtorEq, Bool.false_eq_true, if_false, or_self]
      exact answerAlone _

end ViewRequests

section ViewPolicy
variable {s t : State} {r : RecordRef} {manual : Bool} {cause : ViewCause}

/-- R176: an answer with its adjustments, of which a request has fewer than 0xFFFF. -/
theorem answerAdjusted_eq {n : Nat} (h : n ≤ 0xFFFF) :
    answerAdjusted n = if n = 0 then ⟨⟨.done, .none⟩, 0⟩ else ⟨⟨.doneAdjusted, .none⟩, n⟩ := by
  unfold answerAdjusted
  rw [Nat.min_eq_left h]
  rfl

theorem policyAdjustments_le (p : PolicyParams) : policyAdjustments p ≤ 4 := by
  unfold policyAdjustments
  repeat' split
  all_goals omega

/-- R41: SET_VIEW_POLICY is taken in OFF alone. -/
theorem setViewPolicy_taken (take : canTake r s = true) (p : PolicyParams) : ∃ t, exec (.setViewPolicy r p) s = .next t ∧
    (if s.vwc.view = .off then t.vwc = { s.vwc with policy := clampPolicy p } ∧ answered r (answerAdjusted (policyAdjustments p)) t
    else t.vwc = s.vwc ∧ answered r ⟨⟨.refusedState, .viewActive⟩, 0⟩ t) := by
  refine ⟨_, request_of_canTake take, ?_⟩
  unfold ownSetViewPolicy
  rw [show (answerPlaced r s).vwc = s.vwc from rfl, vwc_of_answer]
  split
  · exact ⟨rfl, answered_of_awaited (answerAwaited_congr rfl (answerAwaited_placed r s))⟩
  · exact ⟨rfl, answered_of_awaited (answerAwaited_placed r s)⟩

theorem policy_kept {c : Instr} (h : .policy ∉ mayTouch c) (e : exec c s = .next t) : t.vwc.policy = s.vwc.policy :=
  exec_same (p := .policy) h e

/-- R188: the start-up load takes the running settings, and the view their policy. -/
theorem settingsLoad_policy (img : List Byte) {due : Nat} (h : s.sto.flash = some (.load due)) :
    ∃ t, exec (.settingsLoad img) s = .next t ∧ t.vwc.policy = t.sto.running.policy := by
  have taken : ∀ u : State, (takeStartImage img u).vwc.policy = (takeStartImage img u).sto.running.policy := fun u => by
    unfold takeStartImage
    split <;> simp [raiseSettings, takeSettings, settleDefs]
  have freed : ∀ u : State, (freeFlash u).sto.running = u.sto.running := fun u =>
    ((same_freeFlash (p := .running) (s := u) (by decide)).2 (Part.same_self _ _)).1
  have kept : ∀ u : State, (freeFlash u).vwc = u.vwc := fun u => (same_freeFlash (p := .vwc) (by decide)).2 rfl
  refine ⟨settle (freeFlash (takeStartImage img (reachNs due s))), by simp [exec, execSettingsLoad, h, finish], ?_⟩
  rw [settle_vwc, settle_sto, freed, kept, taken]

theorem exec_exitTimer {due : Nat} (h : s.vwc.exitTimer = some due) (v : s.vwc.view = .exitHold) :
    exec .exitTimer s = .next (settle (moveView .off false .exitDelay (reach due s))) := by
  have hold : (reach due s).vwc.view = .exitHold := v
  simp [exec, execExitTimer, h, finish, viewExitTimeout, hold]

/-- R193: an entry into OFF leaves no image waiting. -/
theorem moveView_off_waiting : (moveView .off manual cause s).sto.waiting = none := by
  have applied : ∀ u : State, (applyWaiting u).sto.waiting = none := fun u => by
    unfold applyWaiting
    split
    · assumption
    · simp [raiseSettings, takeSettings, settleDefs]
  rw [moveView_eq, enterView, applied]

/-- Settles O23: the request, what keeps the policy, and what replaces it. -/
theorem setViewPolicyClampsAndKeeps : Obligations.SetViewPolicyClampsAndKeeps := by
  refine ⟨fun s r p take => ?_, fun s => ⟨_, rfl, policy_kept (c := .detach) (by decide) rfl⟩,
    fun s => ⟨_, rfl, policy_kept (c := .linkReset) (by decide) rfl⟩, fun s img due h => settingsLoad_policy img h,
    fun s img due h hold waits => ⟨_, exec_exitTimer h hold, ?_, ?_⟩, fun s rev => ⟨_, rfl, rfl⟩⟩
  · have adjusted := answerAdjusted_eq (n := policyAdjustments p) (le_trans (policyAdjustments_le p) (by decide))
    have enabled : (p.chimeEnable != 0) = decide (p.chimeEnable ≠ 0) := Bool.eq_iff_iff.2 (by rw [bne_iff_ne, decide_eq_true_iff])
    have taken := setViewPolicy_taken take p
    rw [adjusted, clampPolicy, enabled] at taken
    exact taken
  · rw [settle_sto, moveView_off_waiting]
  · rw [settle_vwc, moveView_off_vwc, show (reach due s).sto.waiting = some img from waits]
    rfl

end ViewPolicy

/-! ## The timers of the view (R46, R49) -/

section ViewTimers
variable {s t : State} {due : Nat}

theorem exec_startTimer (h : s.vwc.startTimer = some due) (v : s.vwc.view = .starting) :
    exec .startTimer s = .next (settle (moveView .noSignal s.vwc.manual .startTimeout (reach due s))) := by
  have starting : (reach due s).vwc.view = .starting := v
  simp [exec, execStartTimer, h, finish, viewStartTimeout, starting]
  rfl

theorem startTimer_acts (h : s.vwc.startTimer = some due) (v : s.vwc.view = .starting) :
    ∃ t, exec .startTimer s = .next t ∧ t.clockNs = max s.clockNs (due * 1000) ∧
      t.vwc = { s.vwc with view := .noSignal, startTimer := none, exitTimer := none } ∧
      noticeRaised .viewChange (BitVec.ofNat 32 (259 + if s.vwc.manual then 196608 else 0)) 6 s t := by
  refine ⟨_, exec_startTimer h v, by rw [settle_clockNs, moveView_clockNs]; rfl, ?_, ?_⟩
  · rw [settle_vwc, moveView_vwc (by decide)]; rfl
  · have notice := noticeRaised_moveView (s := s) (u := reach due s) (new := .noSignal) (manual := s.vwc.manual)
      (cause := .startTimeout) rfl (slotCore_settle (by decide)) (by rw [cabin_settle]; exact (cabin_congr moveView_clockNs).symm)
    have word : viewCode .noSignal + 256 * viewCode (reach due s).vwc.view + bit s.vwc.manual 16 + bit (reach due s).vwc.manual 17
        = 259 + if s.vwc.manual then 196608 else 0 := by
      rw [show (reach due s).vwc = s.vwc from rfl, v]
      cases s.vwc.manual <;> rfl
    rw [word] at notice
    exact notice

theorem exitTimer_acts (h : s.vwc.exitTimer = some due) (v : s.vwc.view = .exitHold) (m : s.vwc.manual = false)
    (n : s.sto.waiting = none) :
    ∃ t, exec .exitTimer s = .next t ∧ t.clockNs = max s.clockNs (due * 1000) ∧
      t.vwc = { s.vwc with view := .off, manual := false, startTimer := none, exitTimer := none } ∧ t.glg.ks = 0 ∧
      noticeRaised .viewChange 1024 9 s t := by
  obtain ⟨-, -, -, -, ks, notice⟩ := viewClosed (s := s) (t := settle (moveView .off false .exitDelay (reach due s)))
    (u := reach due s) (cause := .exitDelay) rfl rfl (slotCore_settle (by decide)) (settle_vwc _) (settle_glg _)
    (by rw [cabin_settle]; exact (cabin_congr moveView_clockNs).symm)
  rw [v, m] at notice
  refine ⟨_, exec_exitTimer h v, by rw [settle_clockNs, moveView_clockNs]; rfl, ?_, ks, notice⟩
  rw [settle_vwc, moveView_off_vwc, show (reach due s).sto.waiting = none from n]
  rfl

end ViewTimers

/-! ## REVERSE and the view (R42, R48) -/

section ReverseAndView
variable {p : Part} {s t u : State} {due : Nat} {k : NoticeKind} {new : Bool}

/-! ### The camera leaves test mode (R36) -/

/-- R27: with no LIVE view a change of the stream is the camera's own. -/
theorem same_changeStream_of_not_live (h : s.vwc.view ≠ .live) (i : p ≠ .cin) (w : p ≠ .wai) (n : CamStream) (c : Nat) :
    p.same s (changeStream n c s) := by
  by_cases locked : s.cin.stream = .locked
  · have view : (clearFrozen (unlocked n c s)).vwc = s.vwc := by simp [unlocked]
    rw [changeStream_of_locked n c locked, viewCameraGone_of_not_live _ (by rw [view]; exact h)]
    simp [unlocked, i, w]
  · rw [changeStream_of_unlocked n c locked]
    simp [i, w]

theorem slotCore_changeStream_of_not_live (h : s.vwc.view ≠ .live) (l : k ≠ .cameraLockChange) (f : k ≠ .cameraFrozen) (n : CamStream)
    (c : Nat) : slotCore (changeStream n c s) (slotNumber k) = slotCore s (slotNumber k) := by
  by_cases locked : s.cin.stream = .locked
  · have view : (clearFrozen (unlocked n c s)).vwc = s.vwc := by simp [unlocked]
    rw [changeStream_of_locked n c locked, viewCameraGone_of_not_live _ (by rw [view]; exact h)]
    simp [unlocked, l, f]
  · rw [changeStream_of_unlocked n c locked]
    simp [l]

/-- R33: the frame that is abandoned leaves every part but the camera's record and channel. -/
theorem same_sourceTaken (i : p ≠ .cin) (f : p ≠ .fen) (src : CamSource) (s : State) : p.same s (sourceTaken src s) := by
  unfold sourceTaken
  simp only
  split <;> simp [i, f]

/-- R36: with no LIVE view the end of test mode is the camera's own. -/
theorem same_camReverseOn_of_not_live (h : s.vwc.view ≠ .live ∨ s.cin.source = .port) (i : p ≠ .cin) (f : p ≠ .fen) (w : p ≠ .wai) :
    p.same s (camReverseOn s) := by
  unfold camReverseOn
  split
  · rename_i test
    have live : (sourceTaken .port s).vwc.view ≠ .live := by
      rw [show (sourceTaken .port s).vwc = s.vwc from same_sourceTaken (p := .vwc) (by decide) (by decide) _ _]
      exact h.resolve_right (by simp [test])
    have restarted : p.same (sourceTaken .port s) (streamRestarted (sourceTaken .port s)) := by
      unfold streamRestarted
      split
      · simp [i]
      · exact same_changeStream_of_not_live live i w _ _
    unfold leaveTest
    simp only [same_raise w]
    rw [switchSource_eq]
    simp only [same_setCin i, same_clearFrozen i w]
    exact Part.same_trans (same_sourceTaken i f _ _) restarted
  · exact Part.same_self p s

theorem slotCore_camReverseOn_of_not_live (h : s.vwc.view ≠ .live ∨ s.cin.source = .port) (l : k ≠ .cameraLockChange)
    (f : k ≠ .cameraFrozen) (e : k ≠ .cameraTestEnd) : slotCore (camReverseOn s) (slotNumber k) = slotCore s (slotNumber k) := by
  unfold camReverseOn
  split
  · rename_i test
    obtain ⟨-, -, -, -, slots⟩ := sourceTaken_keeps .port s
    have live : (sourceTaken .port s).vwc.view ≠ .live := by
      rw [show (sourceTaken .port s).vwc = s.vwc from same_sourceTaken (p := .vwc) (by decide) (by decide) _ _]
      exact h.resolve_right (by simp [test])
    unfold leaveTest
    rw [slotCore_raise_other e, switchSource_eq]
    simp only [slotCore_setCin, slotCore_clearFrozen f]
    rw [← slots]
    unfold streamRestarted
    split
    · rfl
    · exact slotCore_changeStream_of_not_live live l f _ _
  · rfl

/-- R36, R47: a LIVE view on a locked test pattern loses its picture. -/
theorem camReverseOn_vwc_of_live (h : s.vwc.view = .live) (test : s.cin.source = .test) (locked : s.cin.stream = .locked) :
    (camReverseOn s).vwc = movedView (now s) .noSignal s.vwc.manual s.vwc ∧ (camReverseOn s).cin.source = .port := by
  obtain ⟨stream, -, -, clock, -⟩ := sourceTaken_keeps .port s
  have vwc : (sourceTaken .port s).vwc = s.vwc := same_sourceTaken (p := .vwc) (by decide) (by decide) _ _
  have cleared : ∀ n c (x : State), (clearFrozen (unlocked n c x)).vwc = x.vwc := fun n c x => by simp [unlocked]
  have time : now (clearFrozen (unlocked .acquiring 5 (sourceTaken .port s))) = now s :=
    now_congr (by rw [← clock]; simp [unlocked])
  unfold camReverseOn leaveTest
  rw [if_pos test, raise_cin, raise_vwc]
  refine ⟨?_, (switchSource_frame .port s).2.1⟩
  rw [switchSource_eq]
  simp only [State.setCin_vwc, clearFrozen_vwc]
  unfold streamRestarted
  rw [if_neg (by rw [stream, locked]; decide), changeStream_of_locked _ _ (stream.trans locked), viewCameraGone,
    if_pos (by rw [cleared, vwc, h]), moveView_vwc (by decide), cleared, vwc, time]

/-! ### What a change of REVERSE is handed to -/

@[simp] theorem reverseTaken_vwc (new : Bool) (s : State) : (reverseTaken new s).vwc = s.vwc :=
  same_reverseTaken (p := .vwc) (by decide) (by decide) new
@[simp] theorem reverseTaken_cin (new : Bool) (s : State) : (reverseTaken new s).cin = s.cin :=
  same_reverseTaken (p := .cin) (by decide) (by decide) new
@[simp] theorem reverseTaken_clockNs (new : Bool) (s : State) : (reverseTaken new s).clockNs = s.clockNs :=
  same_reverseTaken (p := .clock) (by decide) (by decide) new
@[simp] theorem pipeOf_reverseTaken (new : Bool) (s : State) (q : PipeId) : pipeOf (reverseTaken new s) q = pipeOf s q :=
  pipeOf_of_same (same_reverseTaken (by decide) (by decide) new) q
@[simp] theorem slotCore_reverseTaken (h : k ≠ .reverseChange) :
    slotCore (reverseTaken new s) (slotNumber k) = slotCore s (slotNumber k) := slotCore_raise_other h

/-- R134, R135: what REVERSE brings to the chimes leaves the view and the screen. -/
theorem same_chimesHanded (c : p ≠ .che) (m : p ≠ .mix) (w : p ≠ .wai) (b : Bool) (s : State) :
    p.same s (evalCadence b (chimeReverseOn s)) := by
  unfold chimeReverseOn
  split <;> simp [c, m, w]

theorem slotCore_chimesHanded (h : k ≠ .chimeDropped) (b : Bool) (s : State) :
    slotCore (evalCadence b (chimeReverseOn s)) (slotNumber k) = slotCore s (slotNumber k) := by
  unfold chimeReverseOn
  split <;> simp [h]

theorem handReverse_on (h : s.vsr.reverse = true) :
    handReverse s = evalCadence false (chimeReverseOn (camReverseOn (viewReverseOn s))) := by simp [handReverse, h]

theorem handReverse_off (h : s.vsr.reverse = false) : handReverse s = evalCadence false (viewReverseOff s) := by
  simp [handReverse, h]

/-- The state in which the end of the hold of REV_IN evaluates REVERSE. -/
def holdEnded (due : Nat) (s : State) : State :=
  (reach due s).setVsr { s.vsr with hold := none, debRev := s.vsr.rawRev }

/-- R12, R13: the end of the hold changes REVERSE to `new`, and what it leaves but for the vehicle record is what `handReverse` leaves. -/
theorem holdTimer_changes (h : s.vsr.hold = some due) (r : (s.vsr.rawRev || gearSource s.vsr) = new) (n : new ≠ s.vsr.reverse) :
    ∃ t, exec .holdTimer s = .next t ∧ t.vsr.reverse = new ∧ t.clockNs = (reach due s).clockNs ∧
      (∀ p : Part, p ≠ .vsr → p ≠ .fen → p ≠ .wai → p.same (handReverse (reverseTaken new (holdEnded due s))) t) ∧
      ∀ k : NoticeKind, k ≠ .pendingDone →
        slotCore t (slotNumber k) = slotCore (handReverse (reverseTaken new (holdEnded due s))) (slotNumber k) := by
  have evaluated : evalReverse (holdEnded due s) = handReverse (reverseTaken new (holdEnded due s)) :=
    evalReverse_of_changed (s := holdEnded due s) r n
  have expiry : holdExpiry (reach due s) = evalDisagreement (evalReverse (holdEnded due s)) := rfl
  refine ⟨_, exec_holdTimer h, ?_, ?_, fun p v f w => ?_, fun k hk => ?_⟩
  · rw [settle_vsr, holdExpiry_vsr]; exact r
  · rw [settle_clockNs, holdExpiry_clockNs]
  · rw [same_settle w f, expiry, evaluated]
    simp [v]
  · rw [slotCore_settle (fun e => hk (slotNumber_injective e)), expiry, evalDisagreement_eq, evaluated]
    rfl

/-- The view and the screen after REVERSE has become true, where the end of test mode takes no picture away. -/
theorem handReverse_on_same (r : s.vsr.reverse = true) (h : (viewReverseOn s).vwc.view ≠ .live ∨ s.cin.source = .port) (i : p ≠ .cin)
    (f : p ≠ .fen) (w : p ≠ .wai) (c : p ≠ .che) (m : p ≠ .mix) : p.same (viewReverseOn s) (handReverse s) := by
  have cin : (viewReverseOn s).cin = s.cin := (same_viewReverseOn (p := .cin) (by decide)).2 rfl
  rw [handReverse_on r]
  exact Part.same_trans (same_camReverseOn_of_not_live (by rw [cin]; exact h) i f w) (same_chimesHanded c m w _ _)

theorem handReverse_on_slot (r : s.vsr.reverse = true) (h : (viewReverseOn s).vwc.view ≠ .live ∨ s.cin.source = .port)
    (l : k ≠ .cameraLockChange) (f : k ≠ .cameraFrozen) (e : k ≠ .cameraTestEnd) (d : k ≠ .chimeDropped) :
    slotCore (handReverse s) (slotNumber k) = slotCore (viewReverseOn s) (slotNumber k) := by
  have cin : (viewReverseOn s).cin = s.cin := (same_viewReverseOn (p := .cin) (by decide)).2 rfl
  rw [handReverse_on r, slotCore_chimesHanded d, slotCore_camReverseOn_of_not_live (by rw [cin]; exact h) l f e]

theorem viewReverseOn_of_off (h : s.vwc.view = .off) : viewReverseOn s = moveView .starting false .reverseOn s := by
  simp [viewReverseOn, h]

theorem viewReverseOn_of_exitHold (h : s.vwc.view = .exitHold) :
    viewReverseOn s = moveView (pictureState s) s.vwc.manual .reverseOn s := by simp [viewReverseOn, h]

theorem viewReverseOn_of_manual (h : s.vwc.view.shows) (m : s.vwc.manual = true) : viewReverseOn s = takeOver s := by
  rcases h with e | e | e <;> simp [viewReverseOn, e, m]

theorem viewReverseOff_of_shows (h : s.vwc.view.shows) (m : s.vwc.manual = false) : viewReverseOff s = leaveReverse s := by
  rcases h with e | e | e <;> simp [viewReverseOff, e, m]

/-- R42, R44: REVERSE opens the view from OFF. -/
theorem reverse_opens (h : s.vsr.hold = some due) (raw : s.vsr.rawRev = true) (was : s.vsr.reverse = false)
    (off : s.vwc.view = .off) :
    ∃ t, exec .holdTimer s = .next t ∧ t.vsr.reverse = true ∧ t.vwc.view = .starting ∧ t.vwc.manual = false ∧
      t.vwc.startTimer = some (now t + 1500000) ∧ (pipeOf t .centre).st ≠ .off ∧
      ((pipeOf s .centre).st ≠ .off → (pipeOf t .centre).timing = (pipeOf s .centre).timing) := by
  obtain ⟨t, ran, reverse, clock, left, -⟩ := holdTimer_changes (new := true) h (by simp [raw]) (by simp [was])
  generalize hv : reverseTaken true (holdEnded due s) = v at left
  have is : v.vsr.reverse = true := by rw [← hv, reverseTaken_vsr]
  have vwc : v.vwc = s.vwc := by rw [← hv, reverseTaken_vwc]; rfl
  have pipe : pipeOf v .centre = pipeOf s .centre := by rw [← hv, pipeOf_reverseTaken]; rfl
  have time : now v = now t := now_congr (by rw [clock, ← hv, reverseTaken_clockNs]; rfl)
  have opens := viewReverseOn_of_off (s := v) (by rw [vwc]; exact off)
  have record : (viewReverseOn v).vwc = movedView (now v) .starting false s.vwc := by rw [opens, moveView_vwc (by decide), vwc]
  have same : ∀ p : Part, p ≠ .vsr → p ≠ .fen → p ≠ .wai → p ≠ .cin → p ≠ .che → p ≠ .mix → p.same (viewReverseOn v) t :=
    fun p v' f w i c m => Part.same_trans (handReverse_on_same is (.inl (by rw [record]; simp [movedView])) i f w c m) (left p v' f w)
  have tvwc : t.vwc = _ := same .vwc (by decide) (by decide) (by decide) (by decide) (by decide) (by decide)
  have tpipe := pipeOf_of_same (same .cmp (by decide) (by decide) (by decide) (by decide) (by decide) (by decide)) .centre
  obtain ⟨started, kept⟩ := moveView_starting_pipe (s := v) (manual := false) (cause := .reverseOn)
  rw [opens] at tpipe
  refine ⟨t, ran, reverse, ?_⟩
  rw [tvwc, record, tpipe, started, ← time]
  refine ⟨rfl, rfl, rfl, ?_, fun n => ?_⟩
  · split
    · decide
    · assumption
  · rw [timing_of_bare (kept (by rw [pipe]; exact n)), pipe]

/-- R48: REVERSE leaves the view that it holds open. -/
theorem reverse_leaves (h : s.vsr.hold = some due) (raw : s.vsr.rawRev = false) (was : s.vsr.reverse = true)
    (gear : gearSource s.vsr = false) (shows : s.vwc.view.shows) (manual : s.vwc.manual = false) :
    ∃ t, exec .holdTimer s = .next t ∧ t.vsr.reverse = false ∧
      (if s.vwc.policy.exitDelay = 0 ∨ (s.vsr.motionFresh.st = .valid ∧ s.vsr.motion.speedValid = true ∧
          s.vwc.policy.exitSpeed < s.vsr.motion.speed) then
        t.vwc.view = .off ∧ t.vwc.startTimer = none ∧ t.vwc.exitTimer = none
      else t.vwc.view = .exitHold ∧ t.vwc.exitTimer = some (now t + 1000 * s.vwc.policy.exitDelay) ∧ t.vwc.startTimer = none) := by
  obtain ⟨t, ran, reverse, clock, left, -⟩ := holdTimer_changes (new := false) h (by simp [raw, gear]) (by simp [was])
  generalize hv : reverseTaken false (holdEnded due s) = v at left
  have is : v.vsr.reverse = false := by rw [← hv, reverseTaken_vsr]
  have vwc : v.vwc = s.vwc := by rw [← hv, reverseTaken_vwc]; rfl
  have fast : fasterThan v.vwc.policy.exitSpeed v.vsr = true ↔ s.vsr.motionFresh.st = .valid ∧ s.vsr.motion.speedValid = true ∧
      v.vwc.policy.exitSpeed < s.vsr.motion.speed := by
    rw [← hv, reverseTaken_vsr]
    simp [fasterThan, speedKnown, holdEnded, and_assoc]
  have time : now v = now t := now_congr (by rw [clock, ← hv, reverseTaken_clockNs]; rfl)
  have cadence : (handReverse v).vwc = (viewReverseOff v).vwc := by
    rw [handReverse_off is]; exact (same_evalCadence (p := .vwc) (by decide) (by decide) (by decide)).2 rfl
  have tvwc : t.vwc = (leaveReverse v).vwc := by
    rw [← viewReverseOff_of_shows (s := v) (by rw [vwc]; exact shows) (by rw [vwc]; exact manual), ← cadence]
    exact left .vwc (by decide) (by decide) (by decide)
  refine ⟨t, ran, reverse, ?_⟩
  rw [tvwc, ← vwc, ← time]
  unfold leaveReverse
  by_cases delay : v.vwc.policy.exitDelay = 0
  · rw [if_pos delay, if_pos (.inl delay), moveView_off_vwc]
    exact ⟨rfl, rfl, rfl⟩
  · by_cases speed : fasterThan v.vwc.policy.exitSpeed v.vsr = true
    · rw [if_neg delay, if_pos speed, if_pos (.inr (fast.1 speed)), moveView_off_vwc]
      exact ⟨rfl, rfl, rfl⟩
    · rw [if_neg delay, if_neg speed, if_neg (fun e => e.elim delay (speed ∘ fast.2)), moveView_vwc (by decide)]
      exact ⟨rfl, rfl, rfl⟩

/-- The details word of R53's notice where REVERSE takes over a manual view. -/
theorem takenOver_word (view : ViewState) :
    viewCode view + 256 * viewCode view + bit false 16 + bit true 17 = 257 * viewCode view + 131072 := by
  cases view <;> rfl

/-- The details word of R53's notice where REVERSE ends EXIT_HOLD. -/
theorem heldTaken_word (view : ViewState) (manual : Bool) (h : view = .live ∨ view = .noSignal) :
    viewCode view + 256 * viewCode .exitHold + bit manual 16 + bit manual 17
      = 1024 + viewCode view + if manual then 196608 else 0 := by
  rcases h with rfl | rfl <;> cases manual <;> rfl

theorem takeOver_vwc : (takeOver s).vwc = { s.vwc with manual := false } := by
  rw [takeOver, raiseView, raise_vwc]; rfl

/-- The picture's part of what REVERSE finds in EXIT_HOLD. -/
theorem pictureState_eq : pictureState s =
    if (pipeOf s .centre).st = .running ∧ s.cin.stream = .locked ∧ s.cin.frozen = false then .live else .noSignal := by
  simp [pictureState, pictureReady, and_assoc]

theorem viewReverseOn_exitHold_vwc (h : s.vwc.view = .exitHold) :
    (viewReverseOn s).vwc = { s.vwc with view := pictureState s, startTimer := none, exitTimer := none } := by
  rw [viewReverseOn_of_exitHold h]
  rcases pictureState_cases s with e | e <;> rw [e, moveView_vwc (by decide)] <;> rfl

/-- R42: what the end of the hold of REV_IN leaves where REVERSE becomes true, told from the state `v` that takes it. -/
theorem holdTimer_reverseOn (h : s.vsr.hold = some due) (raw : s.vsr.rawRev = true) (was : s.vsr.reverse = false) :
    ∃ t v, exec .holdTimer s = .next t ∧ t.vsr.reverse = true ∧ v.vsr.reverse = true ∧ v.vwc = s.vwc ∧ v.cin = s.cin ∧
      pipeOf v .centre = pipeOf s .centre ∧ cabin v = cabin t ∧
      slotCore v (slotNumber .viewChange) = slotCore s (slotNumber .viewChange) ∧
      (∀ p : Part, p ≠ .vsr → p ≠ .fen → p ≠ .wai → p.same (handReverse v) t) ∧
      ((viewReverseOn v).vwc.view ≠ .live ∨ v.cin.source = .port → t.vwc = (viewReverseOn v).vwc ∧
        slotCore t (slotNumber .viewChange) = slotCore (viewReverseOn v) (slotNumber .viewChange)) := by
  obtain ⟨t, ran, reverse, clock, left, slots⟩ := holdTimer_changes (new := true) h (by simp [raw]) (by simp [was])
  have is : (reverseTaken true (holdEnded due s)).vsr.reverse = true := by rw [reverseTaken_vsr]
  refine ⟨t, _, ran, reverse, is, by rw [reverseTaken_vwc]; rfl, by rw [reverseTaken_cin]; rfl, by rw [pipeOf_reverseTaken]; rfl,
    cabin_congr (by rw [clock, reverseTaken_clockNs]; rfl), by rw [slotCore_reverseTaken (by decide)]; rfl, left, fun quiet => ⟨?_, ?_⟩⟩
  · exact Part.same_trans (handReverse_on_same (p := .vwc) is quiet (by decide) (by decide) (by decide) (by decide) (by decide))
      (left .vwc (by decide) (by decide) (by decide))
  · exact (slots _ (by decide)).trans (handReverse_on_slot is quiet (by decide) (by decide) (by decide) (by decide))

/-- R42: REVERSE becomes true in a manual view and in EXIT_HOLD. -/
theorem reverse_takesOver (h : s.vsr.hold = some due) (raw : s.vsr.rawRev = true) (was : s.vsr.reverse = false) :
    ∃ t, exec .holdTimer s = .next t ∧ t.vsr.reverse = true ∧
      (s.vwc.manual = true → s.vwc.view = .starting ∨ s.vwc.view = .noSignal ∨ (s.vwc.view = .live ∧ s.cin.source = .port) →
        t.vwc = { s.vwc with manual := false } ∧
        noticeRaised .viewChange (BitVec.ofNat 32 (257 * viewCode s.vwc.view + 131072)) 1 s t) ∧
      (s.vwc.manual = true → s.vwc.view = .live → s.cin.source = .test → s.cin.stream = .locked →
        t.vwc.view = .noSignal ∧ t.vwc.manual = false ∧ t.cin.source = .port) ∧
      (s.vwc.view = .exitHold → s.cin.source = .port →
        let view : ViewState := if (pipeOf s .centre).st = .running ∧ s.cin.stream = .locked ∧ s.cin.frozen = false then .live
          else .noSignal
        t.vwc = { s.vwc with view := view, startTimer := none, exitTimer := none } ∧
        noticeRaised .viewChange (BitVec.ofNat 32 (1024 + viewCode view + if s.vwc.manual then 196608 else 0)) 1 s t) := by
  obtain ⟨t, v, ran, reverse, is, vwc, cin, pipe, time, before, left, quiet⟩ := holdTimer_reverseOn h raw was
  refine ⟨t, ran, reverse, fun manual shown => ?_, fun manual live test locked => ?_, fun hold port => ?_⟩
  · have shows : s.vwc.view.shows := by unfold ViewState.shows; tauto
    have taken := viewReverseOn_of_manual (s := v) (by rw [vwc]; exact shows) (by rw [vwc]; exact manual)
    have record : (viewReverseOn v).vwc = { s.vwc with manual := false } := by rw [taken, takeOver_vwc, vwc]
    obtain ⟨tvwc, after⟩ := quiet (by
      rw [record, cin]
      rcases shown with e | e | ⟨-, e⟩
      · exact .inl (by simp [e])
      · exact .inl (by simp [e])
      · exact .inr e)
    refine ⟨tvwc.trans record, ?_⟩
    rw [← takenOver_word, ← manual, ← vwc]
    exact noticeRaised_of_raise (u := v.setVwc { v.vwc with manual := false }) before (after.trans (by rw [taken]; rfl)) time
  · have taken := viewReverseOn_of_manual (s := v) (by rw [vwc]; exact .inr (.inl live)) (by rw [vwc]; exact manual)
    have record : (viewReverseOn v).vwc = { s.vwc with manual := false } := by rw [taken, takeOver_vwc, vwc]
    have camera : (viewReverseOn v).cin = s.cin := ((same_viewReverseOn (p := .cin) (by decide)).2 rfl).trans cin
    obtain ⟨lost, source⟩ := camReverseOn_vwc_of_live (s := viewReverseOn v) (by rw [record]; exact live) (by rw [camera]; exact test)
      (by rw [camera]; exact locked)
    have handed : ∀ p : Part, p ≠ .vsr → p ≠ .fen → p ≠ .wai → p ≠ .che → p ≠ .mix → p.same (camReverseOn (viewReverseOn v)) t :=
      fun p v' f w c m => Part.same_trans (by rw [handReverse_on is]; exact same_chimesHanded c m w _ _) (left p v' f w)
    have tvwc : t.vwc = _ := handed .vwc (by decide) (by decide) (by decide) (by decide) (by decide)
    have tcin : t.cin = _ := handed .cin (by decide) (by decide) (by decide) (by decide) (by decide)
    rw [tvwc, tcin, lost, record]
    exact ⟨rfl, rfl, source⟩
  · have held : v.vwc.view = .exitHold := by rw [vwc, hold]
    have picture : pictureState s = pictureState v := by rw [pictureState_eq, pictureState_eq, pipe, cin]
    obtain ⟨tvwc, after⟩ := quiet (.inr (by rw [cin]; exact port))
    rw [← pictureState_eq, picture]
    refine ⟨by rw [tvwc, viewReverseOn_exitHold_vwc held, vwc], ?_⟩
    rw [← heldTaken_word _ _ (pictureState_cases v), ← held, ← vwc]
    rw [viewReverseOn_of_exitHold held] at after
    exact noticeRaised_moveView before after time

end ReverseAndView

/-! ## The speed tests (R50) -/

section SpeedTests
variable {s t u : State}

theorem viewSpeed_of_shows (h : s.vwc.view.shows) : viewSpeed s =
    if s.vwc.manual ∧ fasterThan s.vwc.policy.manualLimit s.vsr then moveView .off false .manualSpeed s else s := by
  rcases h with e | e | e <;> simp [viewSpeed, e]

/-- R50: the speed tests at `u`, which has the view, the overlay and what the slot of `s` records, seen from `s` and at a `t` that keeps
what they left. -/
theorem viewSpeed_acts (vwc : u.vwc = s.vwc) (before : slotCore u (slotNumber .viewChange) = slotCore s (slotNumber .viewChange))
    (ht : t = settle (viewSpeed u)) :
    let above (limit : Nat) : Prop := t.vsr.motionFresh.st = .valid ∧ t.vsr.motion.speedValid = true ∧ limit < t.vsr.motion.speed
    let ended (cause : Word) : Prop := t.vwc.view = .off ∧ t.vwc.manual = false ∧ t.vwc.startTimer = none ∧
      t.vwc.exitTimer = none ∧ t.glg.ks = 0 ∧
      noticeRaised .viewChange (BitVec.ofNat 32 (256 * viewCode s.vwc.view + if s.vwc.manual then 131072 else 0)) cause s t
    (s.vwc.view = .off → t.vwc = s.vwc) ∧
    (s.vwc.view = .exitHold → (above s.vwc.policy.exitSpeed → ended 10) ∧ (¬ above s.vwc.policy.exitSpeed → t.vwc = s.vwc)) ∧
    (s.vwc.view = .starting ∨ s.vwc.view = .live ∨ s.vwc.view = .noSignal →
      (s.vwc.manual = true → above s.vwc.policy.manualLimit → ended 11) ∧
      (s.vwc.manual = true → ¬ above s.vwc.policy.manualLimit → t.vwc = s.vwc) ∧
      (s.vwc.manual = false → t.vwc = s.vwc)) := by
  have vsr : t.vsr = u.vsr := by rw [ht, settle_vsr, viewSpeed_vsr]
  have fast : ∀ limit, fasterThan limit u.vsr = true ↔ t.vsr.motionFresh.st = .valid ∧ t.vsr.motion.speedValid = true ∧
      limit < t.vsr.motion.speed := fun limit => by rw [vsr]; simp [fasterThan, speedKnown, and_assoc]
  have stays : viewSpeed u = u → t.vwc = s.vwc := fun e => by rw [ht, settle_vwc, e, vwc]
  have ends : ∀ cause, viewSpeed u = moveView .off false cause u → _ := fun cause e =>
    viewClosed (s := s) (t := t) (u := u) (cause := cause) vwc before (by rw [ht, slotCore_settle (by decide), e])
      (by rw [ht, settle_vwc, e]) (by rw [ht, settle_glg, e]) (by rw [ht, cabin_settle, e]; exact (cabin_congr moveView_clockNs).symm)
  simp only [← fast]
  refine ⟨fun off => stays ?_, fun hold => ⟨fun f => ends .exitSpeed ?_, fun f => stays ?_⟩,
    fun shows => ?_⟩
  · simp [viewSpeed, vwc, off]
  · simp [viewSpeed, vwc, hold, f]
  · simp [viewSpeed, vwc, hold, f]
  · have tested := viewSpeed_of_shows (s := u) (by rw [vwc]; exact shows)
    rw [vwc] at tested
    exact ⟨fun m f => ends .manualSpeed (tested.trans (if_pos ⟨m, f⟩)), fun m f => stays (tested.trans (if_neg (fun h => f h.2))),
      fun m => stays (tested.trans (if_neg (by simp [m])))⟩

/-- R13: a good MOTION frame that leaves REVERSE as it was leaves the view to the speed tests. -/
theorem goodMotion_tests (hdr : Byte) (bits : List Bool) (s : State) :
    ∃ u, goodMotion hdr bits s = viewSpeed u ∧ (u.vsr.reverse = s.vsr.reverse → u.vwc = s.vwc ∧
      slotCore u (slotNumber .viewChange) = slotCore s (slotNumber .viewChange)) := by
  generalize hw : (if (motionFields bits).adjusted = 0 then s else frameErrorNow .range (motionFields bits).adjusted (some hdr) s) = w
  generalize hx : evalParked (freshFrame .motion (headerSeq hdr) (w.setVsr { w.vsr with
    motion := motionPart (motionFields bits) (headerSeq hdr) (cabin w) })) = x
  have error : w.vwc = s.vwc ∧ w.vsr.reverse = s.vsr.reverse ∧
      slotCore w (slotNumber .viewChange) = slotCore s (slotNumber .viewChange) := by
    rw [← hw]
    split
    · exact ⟨rfl, rfl, rfl⟩
    · exact ⟨(same_frameErrorNow (p := .vwc) (by decide) (by decide)).2 rfl, by rw [frameErrorNow_vsr], by simp [frameErrorNow]⟩
  have parked : ∀ v : State, slotCore (evalParked v) (slotNumber .viewChange) = slotCore v (slotNumber .viewChange) :=
    fun v => slotCore_of_wai ((same_evalParked (p := .wai) (by decide) (by decide) (by decide)).2 rfl)
  have fresh : ∀ f (v : State), slotCore (moveFresh .motion f v) (slotNumber .viewChange) = slotCore v (slotNumber .viewChange) :=
    fun f v => by unfold moveFresh; simp only; split <;> simp
  have kept : x.vwc = s.vwc ∧ x.vsr.reverse = s.vsr.reverse ∧
      slotCore x (slotNumber .viewChange) = slotCore s (slotNumber .viewChange) := by
    refine ⟨?_, ?_, ?_⟩
    · rw [← error.1, ← hx]
      show Part.vwc.same _ _
      simp
    · rw [← error.2.1, ← hx, evalParked_vsr, freshFrame, moveFresh_vsr]; rfl
    · rw [← error.2.2, ← hx, parked, freshFrame, fresh]; rfl
  refine ⟨evalDisagreement (evalReverse x), by rw [← hx, ← hw]; rfl, fun r => ?_⟩
  rw [evalDisagreement_eq] at r ⊢
  have unchanged : (lineSource x.vsr || gearSource x.vsr) = x.vsr.reverse := by
    rw [kept.2.1, ← r, State.setVsr_vsr, evalReverse_vsr]; rfl
  rw [evalReverse_of_unchanged unchanged]
  exact ⟨kept.1, kept.2.2⟩

theorem motionFrame_tests {run ones : Nat} {seq : BitVec 4} {gear flags : Byte} {speed steer : Half} (hr : s.vsr.rx = .hunt run)
    (ho : 8 ≤ ones) : ∃ u, takeBits (motionLine ones seq gear flags speed steer) s = viewSpeed u ∧
      (u.vsr.reverse = s.vsr.reverse → u.vwc = s.vwc ∧ slotCore u (slotNumber .viewChange) = slotCore s (slotNumber .viewChange)) := by
  have kind : (vslHeader .motion seq).toNat / 16 = 1 := vslHeader_kind .motion seq
  have line : motionLine ones seq gear flags speed steer
    = vslLine ones (vslHeader .motion seq) (motionPayload gear flags speed steer) := rfl
  rw [line, takeBits_vslLine hr ho (by simp [payloadBits, kind, motionPayload]), takeEvent, if_pos kind]
  exact goodMotion_tests _ _ _

/-- Settles O24: the two timers, the end of the hold of REV_IN, and a good MOTION frame. -/
theorem timersAndReverseMoveTheView : Obligations.TimersAndReverseMoveTheView := by
  refine ⟨fun s due h v => startTimer_acts h v, fun s due h v m n => exitTimer_acts h v m n,
    fun s due h raw was off => reverse_opens h raw was off, fun s due h raw was gear shows m => reverse_leaves h raw was gear shows m,
    fun s due h raw was => reverse_takesOver h raw was, fun s run ones seq gear flags speed steer hr ho => ?_⟩
  obtain ⟨u, taken, same⟩ := motionFrame_tests (seq := seq) (gear := gear) (flags := flags) (speed := speed) (steer := steer) hr ho
  have vsr := takeBits_motionLine (seq := seq) gear flags speed steer hr ho
  refine ⟨_, rfl, ?_, ?_, fun r => ?_⟩
  · rw [settle_vsr, vsr]; rfl
  · rw [settle_vsr, vsr]; rfl
  · rw [settle_vsr, taken, viewSpeed_vsr] at r
    exact viewSpeed_acts (same r).1 (same r).2 (by rw [taken])

end SpeedTests

/-! ## The vblank of a pipe (R73, R81, R83) -/

section Vblank
variable {p q : PipeId} {n : Nat} {s t : State}

/-- What every slot's action keeps is kept by all of them. -/
theorem onSlots_keeps {α : Type} {g : State → α} {f : Nat → State → State} (h : ∀ n u, g (f n u) = g u) (s : State) :
    g (onSlots f s) = g s := by
  have all : ∀ (ns : List Nat) (u : State), g (ns.foldl (fun t n => f n t) u) = g u := fun ns => by
    induction ns with
    | nil => exact fun u => rfl
    | cons n ns ih => exact fun u => (ih _).trans (h n u)
  exact all _ s

/-! ### The pipe's record in the steps of a vblank -/

/-- A pipe but for what its plane readers have fetched. -/
def Pipe.unread (x : Pipe) : Pipe := { x with readers := [] }

@[simp] theorem unread_setReader (q' : PipeId) (n : Nat) (x : SlotReader) (s : State) :
    (pipeOf (setReader q' n x s) q).unread = (pipeOf s q).unread := by
  unfold setReader
  rw [pipeOf_setPipe]
  split
  · rename_i e; rw [e]; rfl
  · rfl

@[simp] theorem pipeOf_startChannel (c : ChanId) (rs : List Range) (s : State) (q : PipeId) :
    pipeOf (startChannel c rs s) q = pipeOf s q := pipeOf_of_same ((same_startChannel (by decide)).2 rfl) q

@[simp] theorem unread_hideSlot (q' : PipeId) (n : Nat) (s : State) : (pipeOf (hideSlot q' n s) q).unread = (pipeOf s q).unread := by
  simp [hideSlot, suspendChannel]

@[simp] theorem unread_stopSlot (q' : PipeId) (n : Nat) (s : State) : (pipeOf (stopSlot q' n s) q).unread = (pipeOf s q).unread := by
  simp [stopSlot, stopChannel]

@[simp] theorem unread_handLine (q' : PipeId) (n : Nat) (s : State) : (pipeOf (handLine q' n s) q).unread = (pipeOf s q).unread := by
  unfold handLine
  simp only
  split
  · rfl
  · split <;> simp

@[simp] theorem unread_beginSlot (q' : PipeId) (n : Nat) (s : State) : (pipeOf (beginSlot q' n s) q).unread = (pipeOf s q).unread := by
  unfold beginSlot
  simp only
  split
  · exact unread_stopSlot q' n s
  · split <;> split <;> simp

/-- R73, R75: the start count of a pipe at a vblank. -/
def Pipe.counted (x : Pipe) : Pipe :=
  if x.st = .starting then
    if x.startCount + 1 < 2 then { x with startCount := x.startCount + 1 } else { x with st := .running, startCount := 2, restarts := [] }
  else x

theorem counted_of_first {x : Pipe} (h : x.st = .starting) (z : x.startCount = 0) :
    x.counted = { x with startCount := x.startCount + 1 } := by
  rw [Pipe.counted, if_pos h, if_pos (by omega)]

theorem counted_of_second {x : Pipe} (h : x.st = .starting) (z : x.startCount ≠ 0) :
    x.counted = { x with st := .running, startCount := 2, restarts := [] } := by
  rw [Pipe.counted, if_pos h, if_neg (by omega)]

theorem counted_of_not_starting {x : Pipe} (h : x.st ≠ .starting) : x.counted = x := if_neg h

theorem pipeOf_countStart (p : PipeId) (s : State) : pipeOf (countStart p s) p = (pipeOf s p).counted := by
  have completed : ∀ (l : List LongReq) (x : Pipe), pipeOf (completeAll l statusDone (raisePipe p .running .starting .startComplete
      (setPipe p x s))) p = x := fun l x => by
    rw [pipeOf_of_same (s := setPipe p x s) (by simp)]
    simp
  unfold countStart Pipe.counted
  simp only
  split
  · split
    · simp
    · exact completed _ _
  · rfl

/-- R81: the pending scene becomes the active one. -/
theorem bare_activateScene (p : PipeId) (s : State) : (pipeOf (activateScene p s) p).bare
    = { (pipeOf s p).bare with active := (pipeOf s p).pendingScene.getD (pipeOf s p).active, pendingScene := none } := by
  unfold activateScene
  simp only
  split
  · rename_i sc pending
    rw [bare_stopSlots, pipeOf_setPipe, if_pos rfl, pending]
    rfl
  · rename_i pending
    rw [pending]
    simp [Pipe.bare, pending]

theorem pipeOf_guideVblank (s : State) (q : PipeId) : pipeOf (guideVblank s) q = pipeOf s q :=
  pipeOf_of_same ((same_guideVblank (by decide) (by decide) (by decide)).2 rfl) q

/-- R29, R45, R59: a centre vblank leaves the pipes' states. -/
theorem bare_centreVblank (s : State) (q : PipeId) : (pipeOf (centreVblank s) q).bare = (pipeOf s q).bare := by
  unfold centreVblank
  simp only [pipeOf_guideVblank, pipeOf_setCin]
  unfold viewVblank
  split
  · exact bare_moveView (by decide) q
  · rfl

/-- R83: the state in which the pipe has fixed what its frame shows. -/
def frameFixed (p : PipeId) (s : State) : State :=
  let u := if p = .centre then
      latchLayout (if frameContentOf p s = .composition ∧ s.vwc.view = .live then shownBuf s.cin else none) s
    else s
  setPipe p { pipeOf u p with content := frameContentOf p s, outLine := 0, noticed := false } u

/-- R100, R145: the state in which the pipe's plane readers have begun the frame. -/
def planesBegun (p : PipeId) (s : State) : State :=
  onSlots (beginSlot p) (handSet p (displays p .a (frameFixed p s)) (displays p .b (frameFixed p s)) (frameFixed p s))

theorem fixFrame_eq (p : PipeId) (s : State) : fixFrame p s =
    if p = .centre then
      if frameContentOf p s = .composition then beginLayers (activeArea p (pipeOf (planesBegun p s) p)).2 (planesBegun p s)
      else dropLayers (planesBegun p s)
    else planesBegun p s := rfl

theorem pipeOf_frameFixed (p : PipeId) (s : State) :
    pipeOf (frameFixed p s) p = { pipeOf s p with content := frameContentOf p s, outLine := 0, noticed := false } := by
  unfold frameFixed
  simp only [pipeOf_setPipe, if_true]
  split
  · rw [pipeOf_latchLayout]
  · rfl

/-- R73, R83: the pipe's record as it begins a frame. -/
theorem unread_fixFrame (p : PipeId) (s : State) : (pipeOf (fixFrame p s) p).unread
    = { (pipeOf s p).unread with content := frameContentOf p s, outLine := 0, noticed := false } := by
  have begun : (pipeOf (planesBegun p s) p).unread = (pipeOf (frameFixed p s) p).unread := by
    rw [planesBegun, onSlots_keeps (g := fun v => (pipeOf v p).unread) (fun n u => unread_beginSlot p n u), pipeOf_handSet]
  have layers : pipeOf (fixFrame p s) p = pipeOf (planesBegun p s) p := by
    rw [fixFrame_eq]
    split
    · split
      · exact pipeOf_of_same ((same_beginLayers (by decide)).2 rfl) p
      · exact pipeOf_dropLayers _ _
    · rfl
  rw [layers, begun, pipeOf_frameFixed]
  rfl

theorem content_fixFrame (p : PipeId) (s : State) : (pipeOf (fixFrame p s) p).content = frameContentOf p s :=
  (congrArg Pipe.content (unread_fixFrame p s) :)

/-! ### The whole vblank -/

/-- The state in which a vblank counts the start: its instant is reached, and the next one is a period later. -/
def vblankReached (p : PipeId) (s : State) : State :=
  setPipe p { pipeOf s p with nextVblankNs := (pipeOf s p).nextVblankNs + periodOf (pipeOf s p) } (reachNs (pipeOf s p).nextVblankNs s)

/-- The state in which the blocks that hang on a vblank act. -/
def vblankCounted (p : PipeId) (s : State) : State := activateScene p (countStart p (vblankReached p s))

theorem vblank_eq (p : PipeId) (s : State) :
    vblank p s = fixFrame p (present p (if p = .centre then centreVblank (vblankCounted p s) else vblankCounted p s)) := rfl

theorem exec_pipeVblank (n : (pipeOf s p).st ≠ .off) : exec (.pipeVblank p) s = .next (settle (vblank p s)) := if_neg n

theorem same_vblankCounted {x : Part} (k : x ≠ .clock) (c : x ≠ .cmp) (f : x ≠ .fen) (w : x ≠ .wai) : x.same s (vblankCounted p s) := by
  have reached : x.same s (vblankReached p s) := by
    rw [vblankReached, same_setPipe c (by rintro rfl; rfl), same_reachNs k]
    exact Part.same_self _ _
  exact Part.same_trans reached (by simp [vblankCounted, c, f, w])

theorem vblankCounted_clockNs : (vblankCounted p s).clockNs = max s.clockNs (pipeOf s p).nextVblankNs := by
  have kept : Part.clock.same (vblankReached p s) (vblankCounted p s) := by simp [vblankCounted]
  exact kept

theorem vblank_clockNs : (vblank p s).clockNs = max s.clockNs (pipeOf s p).nextVblankNs := by
  rw [← vblankCounted_clockNs, vblank_eq]
  have kept : Part.clock.same (vblankCounted p s)
      (fixFrame p (present p (if p = .centre then centreVblank (vblankCounted p s) else vblankCounted p s))) := by
    split <;> simp
  exact kept

/-- R73, R75, R81: the pipe's record as the blocks that hang on a vblank find it. -/
theorem bare_vblankCounted : (pipeOf (vblankCounted p s) p).bare = { (pipeOf s p).counted.bare with
    nextVblankNs := (pipeOf s p).nextVblankNs + periodOf (pipeOf s p)
    active := (pipeOf s p).pendingScene.getD (pipeOf s p).active
    pendingScene := none } := by
  have counted : pipeOf (countStart p (vblankReached p s)) p
      = { (pipeOf s p).counted with nextVblankNs := (pipeOf s p).nextVblankNs + periodOf (pipeOf s p) } := by
    rw [pipeOf_countStart, vblankReached, pipeOf_setPipe, if_pos rfl]
    unfold Pipe.counted
    simp only
    split
    · split <;> rfl
    · rfl
  have scene : (pipeOf s p).counted.pendingScene = (pipeOf s p).pendingScene ∧ (pipeOf s p).counted.active = (pipeOf s p).active := by
    unfold Pipe.counted
    split
    · split <;> exact ⟨rfl, rfl⟩
    · exact ⟨rfl, rfl⟩
  rw [vblankCounted, bare_activateScene, counted]
  simp only [scene]
  rfl

theorem pipeOf_present (q p : PipeId) (s : State) : pipeOf (present q s) p = pipeOf s p :=
  pipeOf_of_same ((same_present (by decide) (by decide)).2 rfl) p

theorem bare_vblank : (pipeOf (vblank p s) p).bare = { (pipeOf (vblankCounted p s) p).bare with outLine := 0, noticed := false } := by
  have fixed := unread_fixFrame p (present p (if p = .centre then centreVblank (vblankCounted p s) else vblankCounted p s))
  have met : (pipeOf (if p = .centre then centreVblank (vblankCounted p s) else vblankCounted p s) p).bare
      = (pipeOf (vblankCounted p s) p).bare := by
    split
    · exact bare_centreVblank _ _
    · rfl
  rw [pipeOf_present] at fixed
  rw [← met, vblank_eq]
  exact congrArg (fun z : Pipe => { z with content := .none }) fixed

/-- R45: the view at a centre vblank is what the check of R45 leaves. -/
theorem vblank_vwc : (vblank .centre s).vwc = (viewVblank (vblankCounted .centre s)).vwc := by
  have kept : Part.vwc.same (viewVblank (vblankCounted .centre s)) (vblank .centre s) := by
    rw [vblank_eq, if_pos rfl, centreVblank]
    simp
  exact kept

theorem vblank_content : (pipeOf (vblank .centre s) .centre).content
    = frameContentOf .centre (present .centre (centreVblank (vblankCounted .centre s))) := by
  rw [vblank_eq, if_pos rfl, content_fixFrame]

/-- R45, R83: a waiting view finds its picture at a centre vblank of a pipe that is RUNNING then. -/
theorem vblank_opensLive (waits : s.vwc.view = .starting ∨ s.vwc.view = .noSignal)
    (running : (pipeOf (vblankCounted .centre s) .centre).st = .running) (locked : s.cin.stream = .locked) (moves : s.cin.frozen = false) :
    (vblank .centre s).vwc.view = .live ∧ (vblank .centre s).vwc.manual = s.vwc.manual ∧ (vblank .centre s).vwc.startTimer = none ∧
    (pipeOf (vblank .centre s) .centre).content = .composition := by
  have vwc : (vblankCounted .centre s).vwc = s.vwc :=
    same_vblankCounted (x := .vwc) (by decide) (by decide) (by decide) (by decide)
  have cin : (vblankCounted .centre s).cin = s.cin :=
    same_vblankCounted (x := .cin) (by decide) (by decide) (by decide) (by decide)
  have ready : pictureReady (vblankCounted .centre s) = true := by simp [pictureReady, running, cin, locked, moves]
  have moved : viewVblank (vblankCounted .centre s) = moveView .live s.vwc.manual .cameraReady (vblankCounted .centre s) := by
    rw [viewVblank, if_pos ⟨by rw [vwc]; exact waits, ready⟩, vwc]
  have view : (vblank .centre s).vwc = movedView (now (vblankCounted .centre s)) .live s.vwc.manual s.vwc := by
    rw [vblank_vwc, moved, moveView_vwc (by decide), vwc]
  have shown : (present .centre (centreVblank (vblankCounted .centre s))).vwc = (vblank .centre s).vwc := by
    have kept : Part.vwc.same (present .centre (centreVblank (vblankCounted .centre s))) (vblank .centre s) := by
      rw [vblank_eq, if_pos rfl]; simp
    exact kept.symm
  have runs : (pipeOf (present .centre (centreVblank (vblankCounted .centre s))) .centre).st = .running := by
    rw [pipeOf_present, st_of_bare (bare_centreVblank _ _), running]
  rw [vblank_content, frameContentOf, runs, view]
  refine ⟨rfl, rfl, rfl, ?_⟩
  simp [viewOwns, shown, view, movedView]

theorem vblankCounted_st : (pipeOf (vblankCounted p s) p).st = (pipeOf s p).counted.st :=
  (congrArg Pipe.st bare_vblankCounted :)

/-- R73, R81: the pipe's record after its vblank. -/
theorem vblank_record :
    (pipeOf (vblank p s) p).nextVblankNs = (pipeOf s p).nextVblankNs + periodOf (pipeOf s p) ∧
    (pipeOf (vblank p s) p).active = (pipeOf s p).pendingScene.getD (pipeOf s p).active ∧
    (pipeOf (vblank p s) p).pendingScene = none ∧ (pipeOf (vblank p s) p).outLine = 0 ∧
    (pipeOf (vblank p s) p).startCount = (pipeOf s p).counted.startCount ∧
    (pipeOf (vblank p s) p).timing = (pipeOf s p).timing ∧ (pipeOf (vblank p s) p).restarts = (pipeOf s p).counted.restarts ∧
    (pipeOf (vblank p s) p).st = (pipeOf s p).counted.st := by
  have timing : (pipeOf s p).counted.timing = (pipeOf s p).timing := by
    unfold Pipe.counted
    split
    · split <;> rfl
    · rfl
  have record := bare_vblank (p := p) (s := s)
  rw [bare_vblankCounted] at record
  exact ⟨(congrArg Pipe.nextVblankNs record :), (congrArg Pipe.active record :), (congrArg Pipe.pendingScene record :),
    (congrArg Pipe.outLine record :), (congrArg Pipe.startCount record :), (congrArg Pipe.timing record :).trans timing,
    (congrArg Pipe.restarts record :), (congrArg Pipe.st record :)⟩

/-- Settles O31, by the pipe's record after each step of the vblank. -/
theorem vblankAdvancesThePipe : Obligations.VblankAdvancesThePipe := by
  refine ⟨fun s p on => ⟨_, exec_pipeVblank on, ?_⟩, fun s p off => if_pos off⟩
  rw [settle_clockNs, vblank_clockNs, pipeOf_settle, settle_vwc]
  obtain ⟨next, active, scene, line, count, timing, restarts, st⟩ := vblank_record (p := p) (s := s)
  refine ⟨rfl, next, ?_, active, scene, line, timing, ?_⟩
  · rw [st, count, restarts]
    by_cases starts : (pipeOf s p).st = .starting
    · by_cases first : (pipeOf s p).startCount = 0
      · rw [if_pos ⟨starts, first⟩, counted_of_first starts first]
        exact ⟨starts, congrArg (· + 1) first, rfl⟩
      · rw [if_neg (fun h => first h.2), counted_of_second starts first]
        exact ⟨rfl, fun _ => rfl⟩
    · rw [if_neg (fun h => starts h.1), counted_of_not_starting starts]
      exact ⟨by cases h : (pipeOf s p).st <;> simp_all, fun h => absurd h starts⟩
  · rintro rfl waits runs locked moves
    exact vblank_opensLive waits (by rw [vblankCounted_st, ← st, runs]) locked moves

end Vblank

/-! ## The curvature (R61, R62) -/

section Curvature
variable {k : List Int} {steer n c d off ks kt a b : Int} {i j : Nat}

/-- The quotient by 800 that R61 takes between two points of its table. -/
theorem roundDiv_800 (n : Int) : roundDiv n 800 =
    if n < 0 then -(((2 * n.natAbs + 800) / 1600 : Nat) : Int) else ((2 * n.natAbs + 800) / 1600 : Nat) := by
  by_cases h : n < 0 <;> simp [roundDiv, h]

theorem roundDiv_neg (n : Int) : roundDiv (-n) 800 = -roundDiv n 800 := by
  rw [roundDiv_800, roundDiv_800]
  split <;> split <;> omega

theorem roundDiv_le (z : 0 ≤ n) (le : n ≤ 800 * c) : 0 ≤ roundDiv n 800 ∧ roundDiv n 800 ≤ c := by
  rw [roundDiv_800, if_neg (by omega)]
  omega

/-- R61: a value between two points is off the first one by no more than their difference. -/
theorem roundDiv_between (d : Int) (z : 0 ≤ off) (le : off ≤ 800) :
    min 0 d ≤ roundDiv (d * off) 800 ∧ roundDiv (d * off) 800 ≤ max 0 d := by
  rcases le_total 0 d with up | down
  · have bounds := roundDiv_le (n := d * off) (c := d) (by positivity) (by nlinarith)
    omega
  · have bounds := roundDiv_le (n := -d * off) (c := -d) (mul_nonneg (by omega) z) (by nlinarith)
    rw [neg_mul, roundDiv_neg] at bounds
    omega

theorem roundDiv_point (d : Int) : roundDiv (d * 800) 800 = d := by
  rw [roundDiv_800]
  split <;> omega

/-- R61: the target between the points j and j + 1 of the table. -/
theorem targetCurvature_between (le : j ≤ 15) (ha : k[j]? = some a) (hb : k[j + 1]? = some b)
    (low : -6400 + 800 * (j : Int) ≤ steer) (high : steer < -6400 + 800 * ((j : Int) + 1) ∨ j = 15 ∧ steer ≤ 6400) :
    targetCurvature k steer = a + roundDiv ((b - a) * (steer - (-6400 + 800 * (j : Int)))) 800 := by
  have inside : saturate (-6400) 6400 steer = steer := by
    unfold saturate
    split
    · omega
    · split <;> omega
  have index : min ((steer + 6400) / 800).toNat 15 = j := by omega
  simp only [targetCurvature, inside, index, nth, ha, hb, Option.getD_some]

/-- R61: the target at a point of the table. -/
theorem targetCurvature_point (len : k.length = 17) (le : j ≤ 16) : some (targetCurvature k (-6400 + 800 * j)) = k[j]? := by
  have value : ∀ {i : Nat}, i ≤ 16 → k[i]? = some (k[i]?.getD 0) := fun {i} l => by
    rw [List.getElem?_eq_getElem (by omega)]; rfl
  rw [value le]
  by_cases last : j = 16
  · subst last
    rw [targetCurvature_between (j := 15) le_rfl (value (by decide)) (value le) (by decide) (.inr (by decide))]
    rw [show (-6400 + 800 * ((16 : Nat) : Int) - (-6400 + 800 * ((15 : Nat) : Int))) = 800 from rfl, roundDiv_point]
    simp
  · rw [targetCurvature_between (j := j) (by omega) (value le) (value (by omega)) le_rfl (.inl (by omega))]
    simp [roundDiv_800]

/-- R61: beyond its ends the table goes on with its first and last value. -/
theorem targetCurvature_ends : (steer ≤ -6400 → targetCurvature k steer = targetCurvature k (-6400)) ∧
    (6400 ≤ steer → targetCurvature k steer = targetCurvature k 6400) := by
  have below : steer ≤ -6400 → saturate (-6400) 6400 steer = -6400 := fun h => by
    unfold saturate; split <;> [rfl; split <;> omega]
  have above : 6400 ≤ steer → saturate (-6400) 6400 steer = 6400 := fun h => by
    unfold saturate; split <;> [omega; split <;> omega]
  exact ⟨fun h => by simp only [targetCurvature, below h]; rfl, fun h => by simp only [targetCurvature, above h]; rfl⟩

/-- R61: the target lies between the two values around the steering angle. -/
theorem targetCurvature_mem (len : k.length = 17) (ha : k[j]? = some a) (hb : k[j + 1]? = some b)
    (low : -6400 + 800 * (j : Int) ≤ steer) (high : steer ≤ -6400 + 800 * ((j : Int) + 1)) :
    min a b ≤ targetCurvature k steer ∧ targetCurvature k steer ≤ max a b := by
  have index : j + 1 < k.length := (List.getElem?_eq_some_iff.1 hb).1
  by_cases inner : steer < -6400 + 800 * ((j : Int) + 1)
  · rw [targetCurvature_between (by omega) ha hb low (.inl inner)]
    have off := roundDiv_between (b - a) (off := steer - (-6400 + 800 * (j : Int))) (by omega) (by omega)
    omega
  · have point := targetCurvature_point len (j := j + 1) (by omega)
    rw [hb, show (-6400 + 800 * ((j + 1 : Nat) : Int)) = steer by push_cast; omega, Option.some.injEq] at point
    rw [point]
    exact ⟨min_le_right a b, le_max_right a b⟩

/-- R62: a quotient truncated toward zero lies between 0 and its dividend, and is not 0 where the dividend is no smaller than the
divisor. -/
theorem truncDiv_between (d : Int) (n : Nat) : min 0 d ≤ truncDiv d (2 ^ n) ∧ truncDiv d (2 ^ n) ≤ max 0 d ∧
    (2 ^ n ≤ d.natAbs → truncDiv d (2 ^ n) ≠ 0) := by
  have le : d.natAbs / 2 ^ n ≤ d.natAbs := Nat.div_le_self _ _
  have pos : 2 ^ n ≤ d.natAbs → 0 < d.natAbs / 2 ^ n := fun h => Nat.div_pos h (by positivity)
  have up : 0 ≤ d → truncDiv d (2 ^ n) = (d.natAbs / 2 ^ n : Nat) := fun h => by
    rw [Int.natCast_div, Int.natAbs_of_nonneg h, truncDiv, Int.tdiv_eq_ediv_of_nonneg h]
    rfl
  have down : d ≤ 0 → truncDiv d (2 ^ n) = -(d.natAbs / 2 ^ n : Nat) := fun h => by
    rw [← Int.natAbs_neg, Int.natCast_div, Int.natAbs_of_nonneg (by omega), truncDiv, ← Int.tdiv_eq_ediv_of_nonneg (by omega),
      Int.neg_tdiv, neg_neg]
    rfl
  generalize d.natAbs / 2 ^ n = q at le pos up down
  rcases le_total 0 d with h | h
  · rw [up h]
    exact ⟨by omega, by omega, fun large => by have := pos large; omega⟩
  · rw [down h]
    exact ⟨by omega, by omega, fun large => by have := pos large; omega⟩

/-- R62: a run moves the shown curvature toward the target. -/
theorem shownCurvature_toward (n : Nat) (snap : Bool) (ks kt : Int) :
    min ks kt ≤ shownCurvature n snap ks kt ∧ shownCurvature n snap ks kt ≤ max ks kt ∧
    (snap = true ∨ (kt - ks).natAbs < 2 ^ n → shownCurvature n snap ks kt = kt) ∧
    (shownCurvature n snap ks kt = ks → kt = ks) := by
  by_cases all : snap = true ∨ (kt - ks).natAbs < 2 ^ n
  · have value : shownCurvature n snap ks kt = kt := by
      rcases all with h | h <;> simp [shownCurvature, h]
    exact ⟨by omega, by omega, fun _ => value, fun h => by omega⟩
  · have value : shownCurvature n snap ks kt = ks + truncDiv (kt - ks) (2 ^ n) := by
      have h := not_or.1 all
      simp [shownCurvature, h.1, h.2]
    obtain ⟨low, high, moves⟩ := truncDiv_between (kt - ks) n
    have step := moves (Nat.le_of_not_lt (not_or.1 all).2)
    exact ⟨by omega, by omega, fun h => absurd h all, fun h => by omega⟩

end Curvature

/-! ## The guide run at a centre vblank (R59, R60) -/

section GuideRun
variable {p : PipeId} {s t u : State} {n : Nat} {k : NoticeKind} {m : GuideMode}

theorem swapOverlay_glg (s : State) : (swapOverlay s).glg = { s.glg with
    front1 := if s.glg.backDone then !s.glg.front1 else s.glg.front1
    backDone := false
    run := if s.glg.backDone then s.glg.run else none } := by
  unfold swapOverlay
  split
  · rfl
  · rename_i waits
    rw [Bool.not_eq_true] at waits
    unfold abandonRun
    split
    · rename_i r run
      have kept : (stopChannel .guideWr (cutLocal .guideWr (s.setGlg { s.glg with run := none }))).glg
          = (s.setGlg { s.glg with run := none }).glg :=
        (same_stopChannel (p := .glg) (by decide)).2 ((same_cutLocal (by decide)).2 rfl)
      exact kept.trans (by simp [waits])
    · rename_i run
      rw [← waits, ← run]

theorem setGuideMode_glg (m : GuideMode) (s : State) : (setGuideMode m s).glg = { s.glg with mode := m } := by
  unfold setGuideMode
  split
  · rename_i h; rw [h]
  · rw [raise_glg]; rfl

/-- R60: the mode that a vblank decides. -/
theorem runMode_eq (s : State) : runMode s = if s.glg.valid = false then .noCalibration
    else if s.vsr.motionFresh.st = .valid ∧ s.vsr.motion.steeringValid = true then .full else .staticOnly := by
  unfold runMode linesHidden
  cases s.glg.valid <;> cases s.vsr.motion.steeringValid <;> by_cases h : s.vsr.motionFresh.st = .valid <;> simp [h]

/-- The state in which GLG has decided the mode of its next run. -/
def guideDecided (s : State) : State := setGuideMode (runMode s) (swapOverlay s)

theorem same_guideDecided {x : Part} (g : x ≠ .glg) (f : x ≠ .fen) (w : x ≠ .wai) : x.same s (guideDecided s) := by
  simp [guideDecided, g, f, w]

theorem guideDecided_glg (s : State) : (guideDecided s).glg = { s.glg with
    front1 := if s.glg.backDone then !s.glg.front1 else s.glg.front1
    backDone := false
    run := if s.glg.backDone then s.glg.run else none
    mode := runMode s } := by
  rw [guideDecided, setGuideMode_glg, swapOverlay_glg]

/-- R59, R60: what GLG does at a centre vblank with the view LIVE. -/
theorem guideVblank_of_live (h : s.vwc.view = .live) : guideVblank s =
    if runMode s = .noCalibration then completeRun .noCalibration (guideDecided s)
    else if runMode s = .full then startRun .full (curvatureStep (guideDecided s)) else startRun (runMode s) (guideDecided s) := by
  have mode : runMode (swapOverlay s) = runMode s := by
    rw [runMode_eq, runMode_eq, swapOverlay_glg, show (swapOverlay s).vsr = s.vsr from
      (same_swapOverlay (p := .vsr) (by decide) (by decide)).2 rfl]
  unfold guideVblank
  rw [if_pos h]
  simp only [mode]
  split
  · rename_i e; simp only [e, guideDecided]
  · split
    · rename_i e; simp only [e, guideDecided]
    · rfl

/-! ### What a frame's beginning leaves -/

theorem setChannel_guideWr {c : ChanId} (h : c ≠ .guideWr) (f : Fen) (x : Channel) : (setChannel f c x).guideWr = f.guideWr := by
  cases c with
  | guideWr => exact absurd rfl h
  | work => unfold setChannel; simp only; split <;> rfl
  | plane | audio | camWr | bulk => rfl

@[simp] theorem startChannel_guideWr {c : ChanId} (h : c ≠ .guideWr) (rs : List Range) (s : State) :
    (startChannel c rs s).fen.guideWr = s.fen.guideWr := setChannel_guideWr h _ _

@[simp] theorem hideSlot_guideWr (p : PipeId) (n : Nat) (s : State) : (hideSlot p n s).fen.guideWr = s.fen.guideWr :=
  setChannel_guideWr (by simp) _ _

@[simp] theorem stopSlot_guideWr (p : PipeId) (n : Nat) (s : State) : (stopSlot p n s).fen.guideWr = s.fen.guideWr :=
  setChannel_guideWr (by simp) _ _

@[simp] theorem setReader_fen (p : PipeId) (n : Nat) (r : SlotReader) (s : State) : (setReader p n r s).fen = s.fen := rfl

@[simp] theorem handLine_guideWr (p : PipeId) (n : Nat) (s : State) : (handLine p n s).fen.guideWr = s.fen.guideWr := by
  unfold handLine
  simp only
  split
  · rfl
  · split
    · exact startChannel_guideWr (by simp) _ _
    · rfl

@[simp] theorem beginSlot_guideWr (p : PipeId) (n : Nat) (s : State) : (beginSlot p n s).fen.guideWr = s.fen.guideWr := by
  unfold beginSlot
  simp only
  split
  · exact stopSlot_guideWr p n s
  · split <;> split <;> simp

@[simp] theorem cutLocal_guideWr (l : LocalUser) (s : State) : (cutLocal l s).fen.guideWr = s.fen.guideWr := by
  unfold cutLocal
  split
  · split <;> rfl
  · rfl

theorem fixFrame_guideWr (p : PipeId) (s : State) : (fixFrame p s).fen.guideWr = s.fen.guideWr := by
  have fixed : (frameFixed p s).fen = s.fen := by unfold frameFixed; simp only; split <;> rfl
  have planes : (planesBegun p s).fen.guideWr = s.fen.guideWr := by
    rw [planesBegun, onSlots_keeps (g := fun u => u.fen.guideWr) (fun n u => beginSlot_guideWr p n u), ← fixed]
    exact congrArg Fen.guideWr ((same_handSet (p := .fen) (by decide) (by decide)).2 rfl)
  rw [fixFrame_eq]
  split
  · split <;> simp [beginLayers, dropLayers, cutLayerUnit, planes]
  · exact planes

theorem slotCore_present (h : k ≠ .filmStarved) : slotCore (present p s) (slotNumber k) = slotCore s (slotNumber k) := by
  have one : ∀ (st : StreamId) (half : Nat) (u : State), slotCore (presentStream st half u) (slotNumber k) = slotCore u (slotNumber k) := by
    intro st half u
    unfold presentStream
    simp only
    split
    · simp
    · split
      · simp
      · split <;> simp [h]
  unfold present onStreams
  simp only
  split <;> split <;> simp [one]

theorem slotCore_fixFrame : slotCore (fixFrame p s) n = slotCore s n := by
  have handed : slotCore (planesBegun p s) n = slotCore s n := by
    rw [planesBegun, onSlots_keeps (g := fun u => slotCore u n) (fun i u => slotCore_of_wai
      ((same_beginSlot (p := .wai) (by decide) (by decide)).2 rfl)), slotCore_handSet]
    unfold frameFixed
    simp only
    split <;> rfl
  rw [fixFrame_eq]
  split
  · split
    · exact (slotCore_of_wai ((same_beginLayers (p := .wai) (by decide)).2 rfl)).trans handed
    · exact (slotCore_of_wai ((same_dropLayers (p := .wai) (by decide)).2 rfl)).trans handed
  · exact handed

/-! ### The vblank of a LIVE view -/

/-- The state in which GLG acts at the centre vblank of a LIVE view. -/
def guideMet (s : State) : State :=
  let u := vblankCounted .centre s
  u.setCin (bufferStep ((pipeOf u .centre).st == .running && u.vwc.view == .live) u.cin)

theorem same_guideMet {x : Part} (k : x ≠ .clock) (i : x ≠ .cin) (c : x ≠ .cmp) (f : x ≠ .fen) (w : x ≠ .wai) : x.same s (guideMet s) := by
  rw [guideMet, same_setCin i]
  exact same_vblankCounted k c f w

theorem vblank_of_live (live : s.vwc.view = .live) :
    vblank .centre s = fixFrame .centre (present .centre (guideVblank (guideMet s))) := by
  have vwc : (vblankCounted .centre s).vwc = s.vwc := same_vblankCounted (x := .vwc) (by decide) (by decide) (by decide) (by decide)
  have stays : viewVblank (vblankCounted .centre s) = vblankCounted .centre s := by
    rw [viewVblank, if_neg (by rw [vwc, live]; simp)]
  rw [vblank_eq, if_pos rfl, centreVblank, stays]
  rfl

/-- R73: the vblank of a RUNNING pipe raises no notice before GLG acts. -/
theorem slotCore_guideMet (running : (pipeOf s .centre).st = .running) : slotCore (guideMet s) n = slotCore s n := by
  have counted : countStart .centre (vblankReached .centre s) = vblankReached .centre s := by
    rw [countStart, if_neg]
    rw [vblankReached, pipeOf_setPipe, if_pos rfl]
    simp [running]
  have kept : slotCore (vblankCounted .centre s) n = slotCore (vblankReached .centre s) n := by
    rw [vblankCounted, counted]
    exact slotCore_of_wai ((same_activateScene (p := .wai) (by decide) (by decide)).2 rfl)
  exact kept

/-- What the overlay's record and channel are after a centre vblank is what GLG left. -/
theorem vblank_guide (live : s.vwc.view = .live) :
    (vblank .centre s).glg = (guideVblank (guideMet s)).glg ∧
    (vblank .centre s).fen.guideWr = (guideVblank (guideMet s)).fen.guideWr ∧
    slotCore (vblank .centre s) (slotNumber .guideState) = slotCore (guideVblank (guideMet s)) (slotNumber .guideState) := by
  have presented : Part.fen.same (guideVblank (guideMet s)) (present .centre (guideVblank (guideMet s))) := by simp
  have kept : Part.glg.same (guideVblank (guideMet s)) (vblank .centre s) := by rw [vblank_of_live live]; simp
  refine ⟨kept, ?_, ?_⟩
  · rw [vblank_of_live live, fixFrame_guideWr, show (present .centre _).fen = _ from presented]
  · rw [vblank_of_live live, slotCore_fixFrame, slotCore_present (by decide)]

theorem guideVblank_wai (live : s.vwc.view = .live) : (guideVblank s).wai = (guideDecided s).wai := by
  have kept : Part.wai.same (guideDecided s) (guideVblank s) := by
    rw [guideVblank_of_live live]
    split
    · simp
    · split <;> simp
  exact kept

/-- R60: GUIDE_STATE is raised where the mode changes, seen from `s` and at a `t` that keeps what the decision at `u` left. -/
theorem guideDecided_notice (before : slotCore u (slotNumber .guideState) = slotCore s (slotNumber .guideState))
    (after : slotCore t (slotNumber .guideState) = slotCore (guideDecided u) (slotNumber .guideState)) (time : cabin u = cabin t) :
    if runMode u = u.glg.mode then slotKept .guideState s t
    else noticeRaised .guideState (BitVec.ofNat 32 (guideCode (runMode u) + 256 * guideCode u.glg.mode))
      (BitVec.ofNat 32 ((if u.vsr.motionFresh.st = .valid then 1 else 0) + (if u.vsr.motion.steeringValid then 2 else 0))) s t := by
  have swapped : slotCore (swapOverlay u) (slotNumber .guideState) = slotCore s (slotNumber .guideState) :=
    (slotCore_of_wai ((same_swapOverlay (p := .wai) (by decide) (by decide)).2 rfl)).trans before
  have vsr : (swapOverlay u).vsr = u.vsr := (same_swapOverlay (p := .vsr) (by decide) (by decide)).2 rfl
  have clock : (swapOverlay u).clockNs = u.clockNs := (same_swapOverlay (p := .clock) (by decide) (by decide)).2 rfl
  have mode : (swapOverlay u).glg.mode = u.glg.mode := by rw [swapOverlay_glg]
  have word : bit (u.vsr.motionFresh.st == .valid) 0 + bit u.vsr.motion.steeringValid 1
      = (if u.vsr.motionFresh.st = .valid then 1 else 0) + (if u.vsr.motion.steeringValid then 2 else 0) := by simp [bit]
  unfold guideDecided setGuideMode at after
  rw [vsr, mode, word] at after
  split at after
  · rename_i e
    rw [if_pos e]
    exact slotKept_of_core (after.trans swapped)
  · rename_i e
    rw [if_neg e]
    exact noticeRaised_of_raise (u := (swapOverlay u).setGlg { (swapOverlay u).glg with mode := runMode u }) swapped after
      ((cabin_congr clock).trans time)

/-- R59, R60: a vblank with no valid calibration completes the back buffer empty. -/
theorem guideVblank_empty (live : s.vwc.view = .live) (h : runMode s = .noCalibration) :
    (guideVblank s).glg = { tagBack .empty (guideDecided s).glg with run := none, backDone := true } := by
  rw [guideVblank_of_live live, if_pos h]
  rfl

/-- R59, R61, R62: a vblank with a valid calibration starts a run into the back buffer. -/
theorem guideVblank_runs (live : s.vwc.view = .live) (h : runMode s ≠ .noCalibration) :
    let g := (guideDecided s).glg
    let c := s.sto.running.calib
    let ks := if runMode s = .full then
        shownCurvature c.shift s.glg.snap s.glg.ks (targetCurvature c.curvature s.vsr.motion.steering) else s.glg.ks
    (guideVblank s).glg = { g with
      ks := ks, snap := if runMode s = .full then false else s.glg.snap, run := some (formRun (runMode s) s.sto.running ks) } ∧
    (guideVblank s).fen.guideWr = Channel.started [⟨overlayAddr (!g.front1),
      s.sto.running.camH * overlayRow (capturedWidth s.sto.running)⟩] .write := by
  have sto : (guideDecided s).sto = s.sto := same_guideDecided (x := .sto) (by decide) (by decide) (by decide)
  have vsr : (guideDecided s).vsr = s.vsr := same_guideDecided (x := .vsr) (by decide) (by decide) (by decide)
  have ks : (guideDecided s).glg.ks = s.glg.ks ∧ (guideDecided s).glg.snap = s.glg.snap := by rw [guideDecided_glg]; exact ⟨rfl, rfl⟩
  rw [guideVblank_of_live live, if_neg h]
  split
  · rename_i full
    simp only [full, ← sto, ← vsr, ← ks.1, ← ks.2]
    exact ⟨rfl, rfl⟩
  · simp only [← sto, ← ks.1, ← ks.2]
    exact ⟨rfl, rfl⟩

/-- R59, R60, R62: the guide run at a centre vblank with the view LIVE. -/
theorem vblank_guideRun (running : (pipeOf s .centre).st = .running) (live : s.vwc.view = .live) :
    let front := if s.glg.backDone then !s.glg.front1 else s.glg.front1
    let mode : GuideMode := if s.glg.valid = false then .noCalibration
      else if s.vsr.motionFresh.st = .valid ∧ s.vsr.motion.steeringValid = true then .full else .staticOnly
    let c := s.sto.running.calib
    ∃ t, exec (.pipeVblank .centre) s = .next t ∧ t.vwc.view = .live ∧ t.glg.front1 = front ∧ t.glg.mode = mode ∧
      t.glg.valid = s.glg.valid ∧
      (if mode = s.glg.mode then slotKept .guideState s t
      else noticeRaised .guideState (BitVec.ofNat 32 (guideCode mode + 256 * guideCode s.glg.mode))
        (BitVec.ofNat 32 ((if s.vsr.motionFresh.st = .valid then 1 else 0) + (if s.vsr.motion.steeringValid then 2 else 0))) s t) ∧
      (if mode = .noCalibration then
        t.glg.run = none ∧ t.glg.backDone = true ∧ t.glg.ks = s.glg.ks ∧ t.glg.snap = s.glg.snap ∧
        t.glg.tag0 = (if front then .empty else s.glg.tag0) ∧ t.glg.tag1 = (if front then s.glg.tag1 else .empty)
      else
        t.glg.run = some (formRun mode s.sto.running t.glg.ks) ∧ t.glg.backDone = false ∧
        t.glg.tag0 = s.glg.tag0 ∧ t.glg.tag1 = s.glg.tag1 ∧
        t.fen.guideWr = Channel.started [⟨if front then 6291456 else 6553600,
          s.sto.running.camH * ((s.sto.running.camW / 2 * 2 + 3) / 4)⟩] .write ∧
        (if mode = .full then
          t.glg.ks = shownCurvature c.shift s.glg.snap s.glg.ks (targetCurvature c.curvature s.vsr.motion.steering) ∧
          t.glg.snap = false
        else t.glg.ks = s.glg.ks ∧ t.glg.snap = s.glg.snap)) := by
  have met := fun (x : Part) k i c f w => same_guideMet (s := s) (x := x) k i c f w
  have vwc : (guideMet s).vwc = s.vwc := met .vwc (by decide) (by decide) (by decide) (by decide) (by decide)
  have glg : (guideMet s).glg = s.glg := met .glg (by decide) (by decide) (by decide) (by decide) (by decide)
  have vsr : (guideMet s).vsr = s.vsr := met .vsr (by decide) (by decide) (by decide) (by decide) (by decide)
  have sto : (guideMet s).sto = s.sto := met .sto (by decide) (by decide) (by decide) (by decide) (by decide)
  have clock : (guideMet s).clockNs = max s.clockNs (pipeOf s .centre).nextVblankNs := vblankCounted_clockNs
  have seen : (guideMet s).vwc.view = .live := by rw [vwc, live]
  obtain ⟨record, channel, slot⟩ := vblank_guide live
  have view : (vblank .centre s).vwc = s.vwc := by
    have kept : Part.vwc.same (guideVblank (guideMet s)) (vblank .centre s) := by rw [vblank_of_live live]; simp
    exact (kept.trans ((same_guideVblank (p := .vwc) (by decide) (by decide) (by decide)).2 rfl)).trans vwc
  have notice := guideDecided_notice (s := s) (t := settle (vblank .centre s)) (slotCore_guideMet running)
    ((slotCore_settle (by decide)).trans (slot.trans (slotCore_of_wai (guideVblank_wai seen))))
    (cabin_congr (by rw [settle_clockNs, vblank_clockNs, clock]))
  have fen : (settle (vblank .centre s)).fen.guideWr = (guideVblank (guideMet s)).fen.guideWr := by rw [settle_fen]; exact channel
  intro front mode c
  have decided : runMode (guideMet s) = mode := by rw [runMode_eq, glg, vsr]
  have overlay := guideDecided_glg (guideMet s)
  rw [decided, glg, vsr] at notice
  rw [decided, glg] at overlay
  refine ⟨_, exec_pipeVblank (by rw [running]; simp), ?_⟩
  rw [settle_vwc, settle_glg, view, fen, record]
  by_cases empty : mode = .noCalibration
  · have left := guideVblank_empty seen (decided.trans empty)
    rw [overlay] at left
    rw [left, if_pos empty]
    by_cases shown : front = true
    · rw [if_pos shown, if_pos shown, tagBack, if_pos shown]
      exact ⟨live, rfl, rfl, rfl, notice, rfl, rfl, rfl, rfl, rfl, rfl⟩
    · rw [if_neg shown, if_neg shown, tagBack, if_neg shown]
      exact ⟨live, rfl, rfl, rfl, notice, rfl, rfl, rfl, rfl, rfl, rfl⟩
  · obtain ⟨left, transfer⟩ := guideVblank_runs seen (fun e => empty (decided.symm.trans e))
    have place : overlayAddr (!front) = if front then 6291456 else 6553600 := by cases front <;> rfl
    rw [overlay, decided, glg, vsr, sto] at left
    rw [overlay, sto, place] at transfer
    rw [left, transfer, if_neg empty]
    refine ⟨live, rfl, rfl, rfl, notice, rfl, rfl, rfl, rfl, rfl, ?_⟩
    by_cases full : mode = .full
    · simp [full, c]
    · simp [full]

/-- Settles O25, from the arithmetic of the two curvatures and what GLG does at a centre vblank of a LIVE view. -/
theorem curvatureFollowsTheTable : Obligations.CurvatureFollowsTheTable := by
  refine ⟨fun k steer len => ⟨fun low => ?_, fun high => ?_, fun j le => targetCurvature_point len le,
    fun j a b ha hb low high => targetCurvature_mem len ha hb low high⟩, shownCurvature_toward, fun s => vblank_guideRun⟩
  · rw [targetCurvature_ends.1 low]
    exact targetCurvature_point len (j := 0) (by decide)
  · rw [targetCurvature_ends.2 high]
    exact targetCurvature_point len (j := 16) le_rfl

end GuideRun

/-! ## What an event brings to the chime voice (R54, R134, R135) -/

section Chimes
variable {s t u : State} {new : ViewState} {manual frame : Bool} {cause : ViewCause} {n due : Nat}

/-! ### Events that leave the chimes -/

/-- The chimes, the mixer and what the chime slots record are the same in two states. -/
def chimesKept (s t : State) : Prop :=
  t.che = s.che ∧ t.mix = s.mix ∧
  ∀ k : NoticeKind, k = .chimeFinished ∨ k = .chimeDropped → slotCore t (slotNumber k) = slotCore s (slotNumber k)

theorem chimesKept_trans (h : chimesKept s u) (k : chimesKept u t) : chimesKept s t :=
  ⟨k.1.trans h.1, k.2.1.trans h.2.1, fun x e => (k.2.2 x e).trans (h.2.2 x e)⟩

theorem chimesKept_of_same (c : Part.che.same s t) (m : Part.mix.same s t) (w : Part.wai.same s t) : chimesKept s t :=
  ⟨c, m, fun _ _ => slotCore_of_wai w⟩

theorem chimesKept_raise {k : NoticeKind} (f : k ≠ .chimeFinished) (d : k ≠ .chimeDropped) (a b : Word) (s : State) :
    chimesKept s (raise k a b s) :=
  ⟨raise_che, raise_mix _ _ _ _, fun x e => slotCore_raise_other (by rcases e with rfl | rfl <;> simp [Ne.symm f, Ne.symm d])⟩

theorem chimesKept_viewMoved (new : ViewState) (manual : Bool) (s : State) : chimesKept s (viewMoved new manual s) :=
  ⟨same_viewMoved (p := .che) (by decide) (by decide) (by decide) (by decide) (by decide) (by decide),
    same_viewMoved (p := .mix) (by decide) (by decide) (by decide) (by decide) (by decide) (by decide),
    fun _ e => slotCore_viewMoved (by rcases e with rfl | rfl <;> decide)⟩

/-- The state in which a move of the view does what its entry brings. -/
def viewEntering (new : ViewState) (manual : Bool) (cause : ViewCause) (s : State) : State :=
  raiseView s.vwc (movedView (now s) new manual s.vwc) cause (viewMoved new manual s)

theorem moveView_entering : moveView new manual cause s = enterView new (viewEntering new manual cause s) :=
  moveView_eq _ _ _ _

theorem chimesKept_entering : chimesKept s (viewEntering new manual cause s) :=
  chimesKept_trans (chimesKept_viewMoved _ _ _) (chimesKept_raise (by decide) (by decide) _ _ _)

/-- R44, R48: a move of the view that opens it, holds it, or ends it with no image waiting leaves the chimes. -/
theorem chimesKept_moveView (h : new = .starting ∨ new = .exitHold ∨ new = .off ∧ s.sto.waiting = none) :
    chimesKept s (moveView new manual cause s) := by
  rw [moveView_entering]
  refine chimesKept_trans (u := viewEntering new manual cause s) chimesKept_entering ?_
  rcases h with rfl | rfl | ⟨rfl, none⟩
  · exact ⟨(same_startByView (p := .che) (by decide) (by decide) (by decide) (by decide) (by decide)).2 rfl,
      (same_startByView (p := .mix) (by decide) (by decide) (by decide) (by decide) (by decide)).2 rfl,
      fun k e => slotCore_startByView (by rcases e with rfl | rfl <;> decide)⟩
  · exact chimesKept_of_same rfl rfl rfl
  · have waits : (viewEntering .off manual cause s).sto = s.sto := by
      rw [viewEntering, raiseView, raise_sto]
      exact same_viewMoved (p := .sto) (by decide) (by decide) (by decide) (by decide) (by decide) (by decide)
    rw [enterView, applyWaiting_of_none (by rw [State.setGlg_sto, waits, none])]
    exact chimesKept_of_same rfl rfl rfl

theorem chimesKept_moveFresh (k : VslKind) (f : Freshness) (s : State) : chimesKept s (moveFresh k f s) := by
  unfold moveFresh
  simp only
  split
  · exact chimesKept_of_same rfl rfl rfl
  · exact chimesKept_trans (chimesKept_of_same rfl rfl rfl) (chimesKept_raise (by decide) (by decide) _ _ _)

/-! ### The cadence condition -/

/-- R135: the cadence condition in the model's form. -/
theorem cadenceNow_iff (v : Vsr) : cadenceNow v = true ↔ cadenceHolds v.reverse v := by
  unfold cadenceNow cadenceHolds
  cases h : nearest v.park <;> simp [and_assoc]

@[simp] theorem enqueue_cadence (r : ChimeRec) (s : State) : (enqueue r s).1.che.cadence = s.che.cadence := by
  unfold enqueue
  simp only
  repeat' split
  all_goals simp

@[simp] theorem startNext_cadence (s : State) : (startNext s).che.cadence = s.che.cadence := by
  unfold startNext
  repeat' split
  all_goals simp

@[simp] theorem arriveQueued_cadence (r : ChimeRec) (s : State) : (arriveQueued r s).1.che.cadence = s.che.cadence := by
  have kept := enqueue_cadence r s
  unfold arriveQueued
  split <;> rename_i e <;> rw [e] at kept
  · exact (startNext_cadence _).trans kept
  · split
    · exact kept
    · rw [raiseDropped_che]; exact kept

@[simp] theorem preempt_cadence (r : ChimeRec) (p : Playing) (s : State) : (preempt r p s).che.cadence = s.che.cadence := by
  have kept := enqueue_cadence p.chime (setPlaying (some (Playing.begin r)) (s.setChe { s.che with tail := tailOf s.che }))
  rw [setPlaying_che] at kept
  unfold preempt
  simp only
  split <;> rename_i e <;> rw [e] at kept
  · exact kept
  · rw [raiseDropped_che]; exact kept

/-- R128: an arrival leaves the cadence condition. -/
theorem arriveInternal_cadence (n : Nat) (s : State) : (arriveInternal n s).che.cadence = s.che.cadence := by
  unfold arriveInternal arrive
  split
  · rfl
  · rw [settleDefs_cadence]
    unfold arriveDef
    simp only
    repeat' split
    all_goals simp

theorem arriveInternal_clockNs (n : Nat) (s : State) : (arriveInternal n s).clockNs = s.clockNs :=
  (same_arriveInternal (p := .clock) (by decide) (by decide) (by decide)).2 rfl

/-- R54: the entry into NO_SIGNAL at `u`, which has the chimes of `s`, seen from `s` and at a `t` that keeps what it left. -/
theorem noSignal_arrival (kept : chimesKept s u) (che : t.che = (moveView .noSignal manual cause u).che)
    (slot : slotCore t (slotNumber .chimeDropped) = slotCore (moveView .noSignal manual cause u) (slotNumber .chimeDropped))
    (time : cabin t = cabin u) : internalArrival 2 s t := by
  have entering := chimesKept_trans kept (chimesKept_entering (new := .noSignal) (manual := manual) (cause := cause))
  rw [moveView_entering] at che slot
  refine internalArrival_arrive (b := s.che.cadence) entering.1 (entering.2.2 _ (.inr rfl)) che slot ?_
  rw [time]
  have moved : (moveView .noSignal manual cause u).clockNs = u.clockNs := moveView_clockNs
  rw [moveView_entering] at moved
  exact (cabin_congr moved).symm

theorem evalCadence_of_new (h : cadenceNow s.vsr = true) (old : s.che.cadence = false ∨ frame = true ∧ inUse s.che 1 = false) :
    evalCadence frame s = arriveInternal 1 (s.setChe { s.che with cadence := true }) := by
  have use : inUse { s.che with cadence := true } 1 = inUse s.che 1 := rfl
  rcases old with e | ⟨e, free⟩
  · simp [evalCadence, h, e]
  · cases was : s.che.cadence <;> simp [evalCadence, h, was, e, use, free]

theorem evalCadence_of_lost (h : cadenceNow s.vsr = false) (old : s.che.cadence = true) :
    evalCadence frame s = stopCadence (s.setChe { s.che with cadence := false }) := by simp [evalCadence, h, old]

theorem evalCadence_of_unchanged (h : cadenceNow s.vsr = s.che.cadence)
    (idle : s.che.cadence = false ∨ frame = false ∨ inUse s.che 1 = true) : evalCadence frame s = s := by
  have same : s.setChe { s.che with cadence := s.che.cadence } = s := rfl
  have use : inUse { s.che with cadence := true } 1 = inUse s.che 1 := rfl
  unfold evalCadence
  simp only [h, same]
  cases was : s.che.cadence with
  | false => simp
  | true =>
    rcases idle with e | e | e
    · rw [was] at e; cases e
    · simp [e]
    · simp [e]

/-- R135: the condition is evaluated at `u`, which has the chimes of `s`, seen from `s` and at a `t` that keeps what it left. -/
theorem evalCadence_acts (kept : chimesKept s u) (che : t.che = (evalCadence frame u).che) (mix : t.mix = (evalCadence frame u).mix)
    (slots : ∀ k : NoticeKind, k ≠ .pendingDone → slotCore t (slotNumber k) = slotCore (evalCadence frame u) (slotNumber k))
    (time : cabin t = cabin u) :
    (cadenceNow u.vsr = true → t.che.cadence = true ∧
      (s.che.cadence = false ∨ frame = true ∧ inUse s.che 1 = false → internalArrival 1 s t) ∧
      (s.che.cadence = true → frame = false ∨ inUse s.che 1 = true → t.che = s.che ∧ t.mix = s.mix)) ∧
    (cadenceNow u.vsr = false →
      (s.che.cadence = true → cadenceStopped s t) ∧ (s.che.cadence = false → t.che = s.che ∧ t.mix = s.mix)) := by
  obtain ⟨chimes, mixer, dropped⟩ := kept
  rw [← chimes, ← mixer]
  have stays : evalCadence frame u = u → t.che = u.che ∧ t.mix = u.mix := fun e => ⟨by rw [che, e], by rw [mix, e]⟩
  have arrives : evalCadence frame u = arriveInternal 1 (u.setChe { u.che with cadence := true }) → internalArrival 1 s t := fun e => by
    rw [e] at che
    have slot := slots .chimeDropped (by decide)
    rw [e] at slot
    refine internalArrival_arrive (u := u.setChe { u.che with cadence := true }) (b := true) (by rw [← chimes]; rfl)
      (dropped _ (.inr rfl)) che slot ?_
    rw [time]
    exact (cabin_congr (by rw [arriveInternal_clockNs]; rfl)).symm
  refine ⟨fun holds => ⟨?_, fun old => arrives (evalCadence_of_new holds old),
    fun was idle => stays (evalCadence_of_unchanged (holds.trans was.symm) (.inr idle))⟩,
    fun lost => ⟨fun was => ?_, fun none => stays (evalCadence_of_unchanged (lost.trans none.symm) (.inl none))⟩⟩
  · by_cases old : u.che.cadence = false ∨ frame = true ∧ inUse u.che 1 = false
    · rw [che, evalCadence_of_new holds old, arriveInternal_cadence]
      rfl
    · have was : u.che.cadence = true := by simpa using (not_or.1 old).1
      have idle : frame = false ∨ inUse u.che 1 = true := by
        cases f : frame <;> cases i : inUse u.che 1 <;> simp_all
      rw [(stays (evalCadence_of_unchanged (holds.trans was.symm) (.inr idle))).1, was]
  · have falls := evalCadence_of_lost (frame := frame) lost was
    rw [falls] at che mix slots
    exact cadenceStopped_stopCadence (u := u.setChe { u.che with cadence := false }) (by rw [← chimes]; rfl) mixer dropped che mix slots

end Chimes

/-! ## The cycles of the parking cadence (R136) -/

section Cycles
variable {s t u : State} {p : Playing} {c n : Cycle} {v : Vsr} {d : Nat}

/-- R136: a cycle that is decided from a known nearest distance. -/
theorem decideCycle_of_nearest (h : nearest v.park = some d) (was : Bool) : (decideCycle v was).dist = d ∧
    (if d ≤ 30 then (decideCycle v was).kind = .continuous ∧ (decideCycle v was).len = 4800 ∧ (decideCycle v was).attack = !was
    else (decideCycle v was).kind = .beep ∧ (decideCycle v was).len = 48 * (100 + 5 * (d - 30)) ∧ (decideCycle v was).attack = true) := by
  unfold decideCycle
  rw [h]
  by_cases near : d ≤ 30 <;> simp [near]

theorem decideCycle_len_pos (v : Vsr) (was : Bool) : 0 < (decideCycle v was).len := by
  unfold decideCycle
  simp only
  split
  · exact Nat.succ_pos _
  · show 0 < 48 * _
    omega

theorem cadenceDecision_che (playing : s.che.playing = some p) (one : p.chime.num = 1) (cycle : p.cycle = some c) :
    (cadenceDecision s).che
      = { s.che with playing := some { p with decided := some (decideCycle s.vsr (c.kind == .continuous)) } } := by
  simp [cadenceDecision, playing, one, cycle]

theorem cadenceCycle_che (playing : s.che.playing = some p) (one : p.chime.num = 1) (cycle : p.cycle = some c)
    (decided : p.decided = some n) : (cadenceCycle s).che = { s.che with
      playing := some { p with cycle := some n, decided := none, k := 0, phase := if n.attack then 0 else p.phase } } := by
  simp [cadenceCycle, playing, one, cycle, decided]

/-- R136: the cadence begins to sound with the first instant of its first cycle. -/
theorem chimeInstant_begins {e : Che} (tail : e.tail = none) (playing : e.playing = some p) (one : p.chime.num = 1)
    (cycle : p.cycle = none) : ∃ q, (chimeInstant v e).2.playing = some q ∧ q.cycle = some (decideCycle v false) ∧ q.k = 1 ∧
      q.chime = p.chime := by
  have begun : atInstant v p = { p with cycle := some (decideCycle v false), k := 0, phase := 0 } := by
    simp [atInstant, one, cadenceBegun, cycle]
  unfold chimeInstant
  rw [tail, playing]
  simp only [begun]
  rw [if_pos (by exact decideCycle_len_pos v false)]
  exact ⟨_, rfl, rfl, rfl, rfl⟩

@[simp] theorem uiAdvance_playing (e : Che) : (uiAdvance e).playing = e.playing := by
  unfold uiAdvance
  split
  · rfl
  · split <;> rfl

theorem sampleInstant_che (s : State) : (sampleInstant s).che = uiAdvance (chimeInstant s.vsr s.che).2 := rfl

end Cycles

/-! ## The arrivals and the stop (R54, R134, R135) -/

section Arrivals
variable {s t u v : State} {due : Nat} {new : Bool} {r : RecordRef}

/-- R135: what a command that ends with an evaluation of the condition leaves. -/
theorem evalCadence_settled {frame : Bool} (kept : chimesKept s u) (ht : t = settle (evalCadence frame u)) :
    (cadenceNow u.vsr = true → t.che.cadence = true ∧
      (s.che.cadence = false ∨ frame = true ∧ inUse s.che 1 = false → internalArrival 1 s t) ∧
      (s.che.cadence = true → frame = false ∨ inUse s.che 1 = true → t.che = s.che ∧ t.mix = s.mix)) ∧
    (cadenceNow u.vsr = false →
      (s.che.cadence = true → cadenceStopped s t) ∧ (s.che.cadence = false → t.che = s.che ∧ t.mix = s.mix)) :=
  evalCadence_acts (frame := frame) kept (by rw [ht, settle_che]) (by rw [ht, settle_mix])
    (fun k h => by rw [ht, slotCore_settle (fun e => h (slotNumber_injective e))])
    (by rw [ht, cabin_settle]; exact cabin_congr ((same_evalCadence (p := .clock) (by decide) (by decide) (by decide)).2 rfl))

/-- R6, R135: a good PARK_ASSIST line evaluates the condition, and brings nothing else to the chimes. -/
theorem takeBits_parkLine_evaluates {run ones : Nat} {seq : BitVec 4} (a b c d : Byte) (hr : s.vsr.rx = .hunt run) (ho : 8 ≤ ones) :
    ∃ u, takeBits (vslLine ones (vslHeader .parkAssist seq) [a, b, c, d]) s = evalCadence true u ∧ chimesKept s u := by
  have kind : (vslHeader .parkAssist seq).toNat / 16 = 2 := vslHeader_kind .parkAssist seq
  rw [takeBits_vslLine hr ho (by simp [payloadBits, kind]), takeEvent, if_neg (by rw [kind]; decide), goodPark]
  exact ⟨_, rfl, chimesKept_trans (chimesKept_of_same rfl rfl rfl) (chimesKept_moveFresh _ _ _)⟩

/-- R135: a good PARK_ASSIST frame. -/
theorem parkFrame_cadence {run ones : Nat} {seq : BitVec 4} (a b c d : Byte) (hr : s.vsr.rx = .hunt run) (ho : 8 ≤ ones) :
    ∃ t, exec (.parkAssistFrame (vslLine ones (vslHeader .parkAssist seq) [a, b, c, d])) s = .next t ∧
      t.vsr.park = ⟨a, b, c, d, seq, cabin s⟩ ∧ t.vsr.reverse = s.vsr.reverse ∧
      (cadenceHolds t.vsr.reverse t.vsr → t.che.cadence = true ∧
        (s.che.cadence = false ∨ inUse s.che 1 = false → internalArrival 1 s t) ∧
        (s.che.cadence = true → inUse s.che 1 = true → t.che = s.che ∧ t.mix = s.mix)) ∧
      (¬ cadenceHolds t.vsr.reverse t.vsr →
        (s.che.cadence = true → cadenceStopped s t) ∧ (s.che.cadence = false → t.che = s.che ∧ t.mix = s.mix)) := by
  obtain ⟨u, taken, kept⟩ := takeBits_parkLine_evaluates (seq := seq) a b c d hr ho
  have vsr := takeBits_parkLine (seq := seq) a b c d hr ho
  refine ⟨_, rfl, by rw [settle_vsr, vsr], by rw [settle_vsr, vsr], ?_⟩
  obtain ⟨holds, lost⟩ := evalCadence_settled kept (congrArg settle taken)
  have same : (settle (takeBits (vslLine ones (vslHeader .parkAssist seq) [a, b, c, d]) s)).vsr = u.vsr := by
    rw [settle_vsr, taken, evalCadence_vsr]
  rw [← cadenceNow_iff, same, Bool.not_eq_true]
  refine ⟨fun h => ?_, lost⟩
  obtain ⟨cadence, arrives, stays⟩ := holds h
  exact ⟨cadence, fun e => arrives (e.imp id (fun e => ⟨rfl, e⟩)), fun was e => stays was (.inr e)⟩

/-- R135: PARK_ASSIST becomes STALE. -/
theorem parkStale_cadence (h : s.vsr.parkFresh.deadline = some due) : ∃ t, exec (.freshnessDeadline .parkAssist) s = .next t ∧
    (s.che.cadence = true → cadenceStopped s t) ∧ (s.che.cadence = false → t.che = s.che ∧ t.mix = s.mix) := by
  have ran : exec (.freshnessDeadline .parkAssist) s = .next (settle (freshDeadline .parkAssist (reach due s))) := by
    simp [exec, execFreshnessDeadline, freshOf, h, finish]
  have kept : chimesKept s (moveFresh .parkAssist (freshExpiry (freshOf (reach due s).vsr .parkAssist)) (reach due s)) :=
    chimesKept_trans (chimesKept_of_same rfl rfl rfl) (chimesKept_moveFresh _ _ _)
  refine ⟨_, ran, (evalCadence_settled (frame := false) kept rfl).2 ?_⟩
  rw [moveFresh_vsr]
  simp [cadenceNow, setFresh, freshExpiry]

/-- R54: the start timer and the deadline of the camera take the view to NO_SIGNAL. -/
theorem startTimer_arrival (h : s.vwc.startTimer = some due) (v : s.vwc.view = .starting) :
    ∃ t, exec .startTimer s = .next t ∧ internalArrival 2 s t :=
  ⟨_, exec_startTimer h v, noSignal_arrival (u := reach due s) (chimesKept_of_same rfl rfl rfl) (settle_che _)
    (slotCore_settle (by decide)) (by rw [cabin_settle]; exact cabin_congr moveView_clockNs)⟩

theorem chimesKept_clearFrozen (s : State) : chimesKept s (clearFrozen s) := by
  unfold clearFrozen
  split
  · exact chimesKept_trans (chimesKept_of_same rfl rfl rfl) (chimesKept_raise (by decide) (by decide) _ _ _)
  · exact chimesKept_of_same rfl rfl rfl

theorem cameraDeadline_arrival (h : s.cin.deadline = some due) (locked : s.cin.stream = .locked) (live : s.vwc.view = .live) :
    ∃ t, exec .frameStartDeadline s = .next t ∧ internalArrival 2 s t := by
  have cleared : chimesKept s (clearFrozen (unlocked .lost 4 (dropFrame (reach due s)))) :=
    chimesKept_trans (chimesKept_trans (chimesKept_of_same rfl rfl rfl)
      (chimesKept_raise (by decide) (by decide) _ _ ((dropFrame (reach due s)).setCin (enteredStream .lost (dropFrame (reach due s)).cin))))
      (chimesKept_trans (chimesKept_of_same rfl rfl rfl) (chimesKept_clearFrozen _))
  have vwc : (clearFrozen (unlocked .lost 4 (dropFrame (reach due s)))).vwc = s.vwc := by simp [unlocked]; rfl
  have ran := exec_frameStartDeadline h
  rw [changeStream_of_locked _ _ (by rw [dropFrame_cin]; exact locked), viewCameraGone, if_pos (by rw [vwc, live])] at ran
  exact ⟨_, ran, noSignal_arrival cleared (settle_che _) (slotCore_settle (by decide))
    (by rw [cabin_settle]; exact cabin_congr moveView_clockNs)⟩

/-- R43, R54: a request in EXIT_HOLD finds no picture. -/
theorem viewRequest_arrival (take : canTake r s = true) (hold : s.vwc.view = .exitHold) (fresh : s.vsr.motionFresh.st = .valid)
    (known : s.vsr.motion.speedValid = true) (slow : s.vsr.motion.speed ≤ s.vwc.policy.manualLimit)
    (dark : (pipeOf s .centre).st ≠ .running ∨ s.cin.stream ≠ .locked ∨ s.cin.frozen = true) :
    ∃ t, exec (.viewRequest r 1) s = .next t ∧ t.vwc.view = .noSignal ∧ internalArrival 2 s t := by
  have picture : pictureState (answerPlaced r s) = .noSignal := by
    rw [pictureState_eq, if_neg]
    rintro ⟨running, lock, moves⟩
    rcases dark with e | e | e
    · exact e running
    · exact e lock
    · exact absurd (e.symm.trans moves) (by decide)
  have own : ownViewRequest 1 (answerPlaced r s) = (moveView .noSignal true .requestOn (answerPlaced r s), answerDone) := by
    rw [ownViewRequest_on, viewOn, show (answerPlaced r s).vwc.view = .exitHold from hold]
    rw [← picture]
    exact if_pos (by simp [slowEnough, speedKnown, answerPlaced, fresh, known, slow])
  have ran := exec_viewRequest take 1
  rw [own] at ran
  refine ⟨_, ran, by rw [vwc_of_answer, moveView_vwc (by decide)]; rfl, ?_⟩
  refine noSignal_arrival (u := answerPlaced r s) (manual := true) (cause := .requestOn) ⟨rfl, rfl, fun _ _ => rfl⟩ ?_ ?_ ?_
  · rw [settle_che]
    exact (same_enterAnswer (p := .che) (by decide)).2 rfl
  · rw [slotCore_settle (by decide), slotCore_enterAnswer]
  · rw [cabin_settle]
    exact cabin_congr ((enterAnswer_clockNs _).trans moveView_clockNs)

/-! ### A change of REVERSE -/

theorem chimesKept_refl (s : State) : chimesKept s s := chimesKept_of_same rfl rfl rfl

theorem chimesKept_reverseTaken (new : Bool) (s : State) : chimesKept s (reverseTaken new (holdEnded due s)) :=
  chimesKept_trans (chimesKept_of_same rfl rfl rfl) (chimesKept_raise (by decide) (by decide) _ _ _)

/-- R48: REVERSE leaves the view, with no image waiting, without a chime. -/
theorem chimesKept_viewReverseOff (h : s.sto.waiting = none) : chimesKept s (viewReverseOff s) := by
  have leaves : chimesKept s (leaveReverse s) := by
    unfold leaveReverse
    split
    · exact chimesKept_moveView (.inr (.inr ⟨rfl, h⟩))
    · split
      · exact chimesKept_moveView (.inr (.inr ⟨rfl, h⟩))
      · exact chimesKept_moveView (.inr (.inl rfl))
  unfold viewReverseOff
  split
  · exact chimesKept_refl s
  · exact chimesKept_refl s
  · split
    · exact chimesKept_refl s
    · exact leaves

/-- The state in which REVERSE, become true, is handed to CHE. -/
def reverseShown (due : Nat) (s : State) : State := camReverseOn (viewReverseOn (reverseTaken true (holdEnded due s)))

theorem same_reverseShown {p : Part} (v : p ∉ viewParts) (c : p ∉ pictureParts) :
    p.same (reverseTaken true (holdEnded due s)) (reverseShown due s) :=
  (same_camReverseOn c).2 ((same_viewReverseOn v).2 (Part.same_self p _))

/-- R44: the view opens from OFF. -/
theorem viewReverseOn_opens (off : s.vwc.view = .off) :
    (viewReverseOn (reverseTaken true (holdEnded due s))).vwc = movedView (now (reverseTaken true (holdEnded due s))) .starting false s.vwc ∧
    chimesKept (reverseTaken true (holdEnded due s)) (viewReverseOn (reverseTaken true (holdEnded due s))) := by
  have view : (reverseTaken true (holdEnded due s)).vwc = s.vwc := by rw [reverseTaken_vwc]; rfl
  rw [viewReverseOn_of_off (by rw [view, off]), moveView_vwc (by decide), view]
  exact ⟨rfl, chimesKept_moveView (.inl rfl)⟩

theorem reverseShown_policy (off : s.vwc.view = .off) : (reverseShown due s).vwc.policy = s.vwc.policy := by
  obtain ⟨opens, -⟩ := viewReverseOn_opens (due := due) off
  have kept : Part.vwc.same (viewReverseOn (reverseTaken true (holdEnded due s))) (reverseShown due s) :=
    same_camReverseOn_of_not_live (.inl (by rw [opens]; simp [movedView])) (by decide) (by decide) (by decide)
  rw [show (reverseShown due s).vwc = _ from kept, opens]
  rfl

/-- R42, R44: the view opens from OFF without a chime. -/
theorem chimesKept_reverseShown (off : s.vwc.view = .off) : chimesKept s (reverseShown due s) := by
  obtain ⟨record, opens⟩ := viewReverseOn_opens (due := due) off
  have starting : (viewReverseOn (reverseTaken true (holdEnded due s))).vwc.view ≠ .live := by rw [record]; simp [movedView]
  refine chimesKept_trans (chimesKept_trans (chimesKept_reverseTaken true s) opens) ⟨?_, ?_, fun k e => ?_⟩
  · exact same_camReverseOn_of_not_live (p := .che) (.inl starting) (by decide) (by decide) (by decide)
  · exact same_camReverseOn_of_not_live (p := .mix) (.inl starting) (by decide) (by decide) (by decide)
  · exact slotCore_camReverseOn_of_not_live (.inl starting) (by rcases e with rfl | rfl <;> decide)
      (by rcases e with rfl | rfl <;> decide) (by rcases e with rfl | rfl <;> decide)

theorem reverseShown_vsr (due : Nat) (s : State) : (reverseShown due s).vsr =
    { s.vsr with hold := none, debRev := s.vsr.rawRev, reverse := true } := by
  have kept : Part.vsr.same (reverseTaken true (holdEnded due s)) (reverseShown due s) := same_reverseShown (by decide) (by decide)
  rw [show (reverseShown due s).vsr = _ from kept, reverseTaken_vsr]
  rfl

theorem cadenceNow_reverseShown (due : Nat) (s : State) : cadenceNow (reverseShown due s).vsr = true ↔ cadenceHolds true s.vsr := by
  rw [cadenceNow_iff, reverseShown_vsr]
  rfl

/-- R134: REVERSE brings definition 0 where the policy enables it. -/
theorem chimeReverseOn_eq (s : State) : chimeReverseOn s = if s.vwc.policy.chimeEnable then arriveInternal 0 s else s := rfl

theorem chimeReverseOn_cadence (s : State) : (chimeReverseOn s).che.cadence = s.che.cadence := by
  rw [chimeReverseOn_eq]
  split
  · exact arriveInternal_cadence 0 s
  · rfl

/-- R134, R135: REVERSE becomes true with the view in OFF. -/
theorem reverseOn_chimes (h : s.vsr.hold = some due) (raw : s.vsr.rawRev = true) (was : s.vsr.reverse = false)
    (off : s.vwc.view = .off) (silent : s.che.cadence = false) :
    ∃ t, exec .holdTimer s = .next t ∧ (t.che.cadence = true ↔ cadenceHolds true s.vsr) ∧
      (¬ cadenceHolds true s.vsr →
        (s.vwc.policy.chimeEnable = true → internalArrival 0 s t) ∧
        (s.vwc.policy.chimeEnable = false → t.che = s.che ∧ t.mix = s.mix)) ∧
      (cadenceHolds true s.vsr → s.vwc.policy.chimeEnable = false → internalArrival 1 s t) := by
  obtain ⟨t, ran, -, clock, left, slots⟩ := holdTimer_changes (new := true) h (by simp [raw]) (by simp [was])
  have kept := chimesKept_reverseShown (due := due) off
  have holds := cadenceNow_reverseShown due s
  have handed : handReverse (reverseTaken true (holdEnded due s)) = evalCadence false (chimeReverseOn (reverseShown due s)) :=
    handReverse_on (by rw [reverseTaken_vsr])
  have enable : (reverseShown due s).vwc.policy = s.vwc.policy := reverseShown_policy off
  have time : cabin t = cabin (reverseShown due s) := by
    have same : Part.clock.same (reverseTaken true (holdEnded due s)) (reverseShown due s) := same_reverseShown (by decide) (by decide)
    exact cabin_congr (clock.trans (same.trans (reverseTaken_clockNs _ _)).symm)
  rw [handed] at left slots
  have che := left .che (by decide) (by decide) (by decide)
  have mix := left .mix (by decide) (by decide) (by decide)
  have arrived : cabin (chimeReverseOn (reverseShown due s)) = cabin (reverseShown due s) := by
    rw [chimeReverseOn_eq]
    split
    · exact cabin_congr (arriveInternal_clockNs _ _)
    · rfl
  have vsr : (chimeReverseOn (reverseShown due s)).vsr = (reverseShown due s).vsr := by
    rw [chimeReverseOn_eq]
    split
    · exact (same_arriveInternal (p := .vsr) (by decide) (by decide) (by decide)).2 rfl
    · rfl
  have quiet : (chimeReverseOn (reverseShown due s)).che.cadence = false := by rw [chimeReverseOn_cadence, kept.1, silent]
  obtain ⟨begins, stays⟩ := evalCadence_acts (frame := false) (chimesKept_refl _) che mix slots (time.trans arrived.symm)
  rw [vsr] at begins stays
  refine ⟨t, ran, ⟨fun sounds => ?_, fun h => (begins (holds.2 h)).1⟩, fun lost => ?_, fun h disabled => ?_⟩
  · by_contra lost
    have unchanged := ((stays (by rw [← Bool.not_eq_true, holds]; exact lost)).2 quiet).1
    rw [unchanged, quiet] at sounds
    cases sounds
  · have none : cadenceNow (reverseShown due s).vsr = false := by rw [← Bool.not_eq_true, holds]; exact lost
    obtain ⟨unchanged, mixer⟩ := (stays none).2 quiet
    rw [evalCadence_of_unchanged (by rw [vsr, none, quiet]) (.inl quiet)] at slots
    rw [chimeReverseOn_eq, enable] at unchanged mixer slots
    refine ⟨fun on => ?_, fun disabled => ?_⟩
    · rw [if_pos on] at unchanged slots
      exact internalArrival_arrive (u := reverseShown due s) (b := s.che.cadence) kept.1 (kept.2.2 _ (.inr rfl)) unchanged
        (slots _ (by decide)) (time.trans (cabin_congr (arriveInternal_clockNs _ _)).symm)
    · rw [disabled, if_neg (by decide)] at unchanged mixer
      exact ⟨unchanged.trans kept.1, mixer.trans kept.2.1⟩
  · have same : chimeReverseOn (reverseShown due s) = reverseShown due s := by
      rw [chimeReverseOn_eq, enable, disabled, if_neg (by decide)]
    rw [same] at che mix slots
    exact ((evalCadence_acts (frame := false) kept che mix slots time).1 (holds.2 h)).2.1 (.inl silent)

/-- R135: REVERSE becomes false while the condition holds. -/
theorem reverseOff_chimes (h : s.vsr.hold = some due) (raw : s.vsr.rawRev = false) (was : s.vsr.reverse = true)
    (gear : gearSource s.vsr = false) (cadence : s.che.cadence = true) (waiting : s.sto.waiting = none) :
    ∃ t, exec .holdTimer s = .next t ∧ cadenceStopped s t := by
  obtain ⟨t, ran, -, clock, left, slots⟩ := holdTimer_changes (new := false) h (by simp [raw, gear]) (by simp [was])
  have taken : (reverseTaken false (holdEnded due s)).vsr.reverse = false := by rw [reverseTaken_vsr]
  have waits : (reverseTaken false (holdEnded due s)).sto.waiting = none := by
    rw [show (reverseTaken false (holdEnded due s)).sto = (holdEnded due s).sto from
      same_reverseTaken (p := .sto) (by decide) (by decide) false]
    exact waiting
  have kept := chimesKept_trans (chimesKept_reverseTaken (due := due) false s) (chimesKept_viewReverseOff waits)
  have vsr : (viewReverseOff (reverseTaken false (holdEnded due s))).vsr = (reverseTaken false (holdEnded due s)).vsr :=
    (same_viewReverseOff (p := .vsr) (by decide)).2 rfl
  have time : cabin t = cabin (viewReverseOff (reverseTaken false (holdEnded due s))) := by
    have same : Part.clock.same (reach due s) (viewReverseOff (reverseTaken false (holdEnded due s))) := by
      rw [same_viewReverseOff (by decide)]
      exact same_reverseTaken (p := .clock) (by decide) (by decide) false
    exact cabin_congr (clock.trans same.symm)
  rw [handReverse_off taken] at left slots
  refine ⟨t, ran, ((evalCadence_acts (frame := false) kept (left .che (by decide) (by decide) (by decide))
    (left .mix (by decide) (by decide) (by decide)) slots time).2 ?_).1 cadence⟩
  rw [vsr]
  simp [cadenceNow]

/-- R135: no distance is known where each of the four is 255. -/
theorem nearest_eq_none_iff (p : ParkPart) : nearest p = none ↔
    p.leftOuter = 255 ∧ p.leftInner = 255 ∧ p.rightInner = 255 ∧ p.rightOuter = 255 := by
  unfold nearest
  simp only [ite_eq_left_iff, reduceCtorEq, imp_false, not_not]
  have bound : ∀ b : Byte, b.toNat = 255 ↔ b = 255 := fun b => ⟨fun e => BitVec.eq_of_toNat_eq e, fun e => e ▸ rfl⟩
  rw [← bound, ← bound, ← bound, ← bound]
  omega

/-- Settles O47: the cycles, the evaluations of the condition, and the internal arrivals, row by row. -/
theorem cadenceCyclesAreDecided : Obligations.CadenceCyclesAreDecided := by
  unfold Obligations.CadenceCyclesAreDecided
  intro decided
  refine ⟨fun s p c d playing one cycle => ⟨_, _, rfl, (settle_che _).trans (cadenceDecision_che playing one cycle),
      fun near => decideCycle_of_nearest near _⟩,
    fun s p c n playing one cycle next => ⟨_, rfl, (settle_che _).trans (cadenceCycle_che playing one cycle next)⟩,
    fun s p d tail playing one cycle => ?_, fun s run ones seq a b c d hr ho => parkFrame_cadence a b c d hr ho,
    fun s due h => parkStale_cadence h, fun s due h raw was off silent => reverseOn_chimes h raw was off silent,
    fun s due h raw was gear cadence waiting => reverseOff_chimes h raw was gear cadence waiting,
    fun s due h v => startTimer_arrival h v, fun s due h locked live => cameraDeadline_arrival h locked live,
    fun s r take hold fresh known slow dark => viewRequest_arrival take hold fresh known slow dark, nearest_eq_none_iff⟩
  obtain ⟨q, begun, first, one', same⟩ := chimeInstant_begins (v := s.vsr) tail playing one cycle
  refine ⟨_, q, _, rfl, ?_, first, one', same, fun near => decideCycle_of_nearest near false⟩
  rw [settle_che, sampleInstant_che, uiAdvance_playing]
  exact begun

end Arrivals

end Sys2Proof.Machine

/-! PROOFS. Chapter 4: the record of a pipe and the place of an answer after each change of a pipe's state, the clipped planes and the scenes,
the pixels and the output lines, and the statements of the display pipes. -/

namespace Sys2Proof.Machine

/-! ## Pixels (R85, R86) -/

section Pixels

theorem blendChannel_zero (src dst : Nat) : blendChannel 0 src dst = dst := by unfold blendChannel; omega

theorem blendChannel_full (src dst : Nat) : blendChannel 255 src dst = src := by unfold blendChannel; omega

/-- R85: rounding to nearest cannot leave the interval, whose ends are whole numbers. -/
theorem blendChannel_between {a : Nat} (h : a ≤ 255) (src dst : Nat) :
    min src dst ≤ blendChannel a src dst ∧ blendChannel a src dst ≤ max src dst := by
  obtain ⟨b, hb⟩ := Nat.exists_eq_add_of_le h
  have whole : ∀ m : Nat, a * m + b * m = 255 * m := fun m => by rw [hb, Nat.add_mul]
  have low := Nat.add_le_add (Nat.mul_le_mul_left a (Nat.min_le_left src dst)) (Nat.mul_le_mul_left b (Nat.min_le_right src dst))
  have high := Nat.add_le_add (Nat.mul_le_mul_left a (Nat.le_max_left src dst)) (Nat.mul_le_mul_left b (Nat.le_max_right src dst))
  rw [whole] at low high
  rw [blendChannel, show 255 - a = b by omega]
  exact ⟨by omega, by omega⟩

theorem effectiveAlpha_full (a : Nat) : effectiveAlpha a 255 = a ∧ effectiveAlpha 255 a = a := by
  unfold effectiveAlpha; omega

theorem effectiveAlpha_le {pa ga : Nat} (p : pa ≤ 255) (g : ga ≤ 255) : effectiveAlpha pa ga ≤ min pa ga := by
  have left := Nat.mul_le_mul_left pa g
  have right := Nat.mul_le_mul_right ga p
  unfold effectiveAlpha
  omega

theorem clampChannel_le (v : Int) : clampChannel v ≤ 255 := by
  unfold clampChannel saturate
  repeat' split
  all_goals omega

/-- R86: neutral chroma leaves the three channels the luma's own. -/
theorem convert_neutral (y : Nat) : convert y 128 128 =
    ⟨clampChannel (298 * ((y : Int) - 16) + 128), clampChannel (298 * ((y : Int) - 16) + 128),
      clampChannel (298 * ((y : Int) - 16) + 128)⟩ := by
  simp [convert]

/-- Settles O33: the ends and the bounds of the blend, and the channels of the conversion. -/
theorem blendingStaysBetween : Obligations.BlendingStaysBetween := by
  refine ⟨fun a src dst ha hs _ => ?_, fun y cb cr => ⟨clampChannel_le _, clampChannel_le _, clampChannel_le _⟩, fun y => ?_,
    by decide, by decide⟩
  · obtain ⟨low, high⟩ := blendChannel_between ha src dst
    obtain ⟨left, right⟩ := effectiveAlpha_full a
    exact ⟨blendChannel_zero src dst, blendChannel_full src dst, low, high, left, right, effectiveAlpha_le ha hs⟩
  · rw [convert_neutral]
    exact ⟨rfl, rfl⟩

end Pixels

/-! ## The planes of a scene (R79 to R81) -/

section Clipping

/-- R80: the pixels of a clipped interval are those of the interval that lie in the area. -/
theorem mem_clipSpan (a : Int) (n size : Nat) (x : Int) :
    ((clipSpan a n size).1 ≤ x ∧ x < (clipSpan a n size).1 + (clipSpan a n size).2) ↔ a ≤ x ∧ x < a + n ∧ 0 ≤ x ∧ x < size := by
  unfold clipSpan
  simp only
  omega

theorem clipSpan_start (a : Int) (n size : Nat) : (((clipSpan a n size).1 - a).toNat : Int) = (clipSpan a n size).1 - a := by
  unfold clipSpan
  simp only
  omega

/-- R80: an interval is cut away whole exactly when no pixel of it lies in the area. -/
theorem clipSpan_empty (a : Int) (n size : Nat) :
    (clipSpan a n size).2 = 0 ↔ ∀ x : Int, ¬ (a ≤ x ∧ x < a + n ∧ 0 ≤ x ∧ x < size) := by
  refine ⟨fun h x k => ?_, fun h => ?_⟩
  · rw [← mem_clipSpan, h] at k
    omega
  · have first := h (clipSpan a n size).1
    rw [← mem_clipSpan] at first
    omega

theorem clipPlane_eq_none {area : Nat × Nat} {e : PlaneEntry} {k : PlaneKind} (h : planeKindOfCode e.kind = some k) :
    clipPlane area e = none ↔ (clipSpan e.x.toInt e.width.toNat area.1).2 = 0 ∨ (clipSpan e.y.toInt e.height.toNat area.2).2 = 0 := by
  simp only [clipPlane, h]
  split <;> simp_all

/-- R80: a plane that is stored: its rectangle is clipped on both axes. -/
theorem clipPlane_eq_some {area : Nat × Nat} {e : PlaneEntry} {k : PlaneKind} {q : Plane} (h : planeKindOfCode e.kind = some k)
    (s : clipPlane area e = some q) : q.kind = k ∧ 0 < q.w ∧ 0 < q.h ∧
    (q.x, q.w) = clipSpan e.x.toInt e.width.toNat area.1 ∧ (q.y, q.h) = clipSpan e.y.toInt e.height.toNat area.2 ∧
    q.ox = (q.x - e.x.toInt).toNat ∧ q.oy = (q.y - e.y.toInt).toNat ∧ q.safe = (e.flags.getLsbD 0 && k.film.isNone) := by
  have kept := mt (clipPlane_eq_none (area := area) h).2 (by rw [s]; exact Option.some_ne_none q)
  simp only [clipPlane, h, if_neg kept, Option.some.injEq] at s
  subst s
  exact ⟨rfl, Nat.pos_of_ne_zero (fun z => kept (.inl z)), Nat.pos_of_ne_zero (fun z => kept (.inr z)), rfl, rfl, rfl, rfl,
    rfl⟩

/-- Settles O30: a pixel lies in the clipped rectangle exactly when each of its coordinates lies in the clipped interval. -/
theorem planesAreClippedToThePipe : Obligations.PlanesAreClippedToThePipe := by
  intro area e k hk inside
  have columns := clipSpan_empty e.x.toInt e.width.toNat area.1
  have rows := clipSpan_empty e.y.toInt e.height.toNat area.2
  refine ⟨?_, fun q hq => ?_⟩
  · rw [clipPlane_eq_none hk, columns, rows]
    refine ⟨?_, fun none => ?_⟩
    · rintro (h | h) px py ⟨x1, x2, y1, y2, x3, x4, y3, y4⟩
      · exact h px ⟨x1, x2, x3, x4⟩
      · exact h py ⟨y1, y2, y3, y4⟩
    · by_contra some
      push Not at some
      obtain ⟨⟨px, x1, x2, x3, x4⟩, py, y1, y2, y3, y4⟩ := some
      exact none px py ⟨x1, x2, y1, y2, x3, x4, y3, y4⟩
  · obtain ⟨kind, w, h, xs, ys, ox, oy, safe⟩ := clipPlane_eq_some hk hq
    have column := mem_clipSpan e.x.toInt e.width.toNat area.1
    have row := mem_clipSpan e.y.toInt e.height.toNat area.2
    have left := clipSpan_start e.x.toInt e.width.toNat area.1
    have top := clipSpan_start e.y.toInt e.height.toNat area.2
    rw [← xs] at column left
    rw [← ys] at row top
    refine ⟨kind, w, h, fun px py => ?_, ox ▸ left, oy ▸ top, ?_⟩
    · constructor
      · rintro ⟨x1, x2, y1, y2⟩
        obtain ⟨x1, x2, x3, x4⟩ := (column px).1 ⟨x1, x2⟩
        obtain ⟨y1, y2, y3, y4⟩ := (row py).1 ⟨y1, y2⟩
        exact ⟨x1, x2, y1, y2, x3, x4, y3, y4⟩
      · rintro ⟨x1, x2, y1, y2, x3, x4, y3, y4⟩
        obtain ⟨x1, x2⟩ := (column px).2 ⟨x1, x2, x3, x4⟩
        obtain ⟨y1, y2⟩ := (row py).2 ⟨y1, y2, y3, y4⟩
        exact ⟨x1, x2, y1, y2⟩
    · rintro (rfl | rfl) <;> simp [safe, PlaneKind.film]

end Clipping

section Scenes
variable {s t : State} {r : RecordRef} {p : PipeId} {c : SceneParams}

theorem withPipe_of_code {code : Byte} (h : pipeOfCode code = some p) (s : State) (k : PipeId → State × Answer) :
    withPipe code s k = k p := by
  simp [withPipe, h]

/-- R80, R176: a plane counts for nothing exactly when it is stored whole, with its mark. -/
theorem planeAdjustments_eq_zero (area : Nat × Nat) (e : PlaneEntry) : planeAdjustments area e = 0 ↔
    ∃ q, clipPlane area e = some q ∧ q.w = e.width.toNat ∧ q.h = e.height.toNat ∧ q.safe = e.flags.getLsbD 0 := by
  unfold planeAdjustments
  cases clip : clipPlane area e with
  | none => simp
  | some q =>
    have marked : q.safe = true → e.flags.getLsbD 0 = true := by
      cases kind : planeKindOfCode e.kind with
      | none => simp [clipPlane, kind] at clip
      | some k =>
        obtain ⟨-, -, -, -, -, -, -, safe⟩ := clipPlane_eq_some kind clip
        simp_all
    simp only [Option.some.injEq, exists_eq_left', Nat.add_eq_zero_iff, ite_eq_left_iff, ite_eq_right_iff]
    generalize e.flags.getLsbD 0 = mark at marked
    cases mark <;> cases safe : q.safe <;> simp_all

theorem planeAdjustments_le (area : Nat × Nat) (e : PlaneEntry) : planeAdjustments area e ≤ 2 := by
  unfold planeAdjustments
  repeat' split
  all_goals omega

/-- R176: the adjustments of a scene's planes, which are at most six. -/
theorem sum_planeAdjustments_le (area : Nat × Nat) (es : List PlaneEntry) : (es.map (planeAdjustments area)).sum ≤ 2 * es.length := by
  have each := List.sum_le_card_nsmul (es.map (planeAdjustments area)) 2 (by simp [planeAdjustments_le])
  simpa [Nat.mul_comm] using each

/-- R79: a scene of more than six planes. -/
theorem ownSetScene_tooMany (code : pipeOfCode c.pipe = some p) (many : 6 < c.count.toNat) (s : State) :
    ownSetScene c s = (s, answerInvalid .tooMany) := by
  rw [ownSetScene, withPipe_of_code code]
  exact if_pos many

/-- R79: the first faulty plane decides. -/
theorem ownSetScene_fault (code : pipeOfCode c.pipe = some p) (whole : c.planes.length = c.count.toNat) (few : ¬ 6 < c.count.toNat)
    {pre post : List PlaneEntry} {e : PlaneEntry} {m : Minor} (split : c.planes = pre ++ e :: post)
    (sound : ∀ x ∈ pre, planeFault (requestWindow s) x = none) (fault : planeFault (requestWindow s) e = some m) :
    ownSetScene c s = (s, answerInvalid m) := by
  have found : c.planes.findSome? (planeFault (requestWindow s)) = some m := by
    rw [split, List.findSome?_append, List.findSome?_eq_none_iff.2 sound]
    simp [fault]
  rw [ownSetScene, withPipe_of_code code]
  simp only [if_neg few, if_neg (show ¬ c.planes.length < c.count.toNat by omega), List.take_of_length_le whole.le, found]

/-- R80, R81: a scene of sound planes is stored. -/
theorem ownSetScene_sound (code : pipeOfCode c.pipe = some p) (whole : c.planes.length = c.count.toNat) (few : ¬ 6 < c.count.toNat)
    (sound : ∀ x ∈ c.planes, planeFault (requestWindow s) x = none) : ownSetScene c s =
      (setPipe p (storeScene ⟨c.backdrop, (c.planes.filterMap (clipPlane (activeArea p (pipeOf s p)))).map some⟩ (pipeOf s p)) s,
        answerAdjusted ((c.planes.map (planeAdjustments (activeArea p (pipeOf s p)))).sum)) := by
  rw [ownSetScene, withPipe_of_code code]
  simp only [if_neg few, if_neg (show ¬ c.planes.length < c.count.toNat by omega), List.take_of_length_le whole.le,
    List.findSome?_eq_none_iff.2 sound]

theorem exec_setScene (h : canTake r s = true) (c : SceneParams) : exec (.setScene r c) s =
    .next (settle (enterAnswer r (ownSetScene c (answerPlaced r s)).2 (ownSetScene c (answerPlaced r s)).1)) := request_of_canTake h

/-- Settles O29, by the three outcomes of the checks. -/
theorem setSceneBecomesPending : Obligations.SetSceneBecomesPending := by
  intro s r c p take code whole
  refine ⟨_, exec_setScene take c, ?_⟩
  split
  · rename_i many
    rw [ownSetScene_tooMany code many]
    exact answerAlone _
  · rename_i few
    refine ⟨fun pre e post m planes sound fault => ?_, fun sound => ?_⟩
    · rw [ownSetScene_fault (s := answerPlaced r s) code whole few planes sound fault]
      exact answerAlone _
    · rw [ownSetScene_sound (s := answerPlaced r s) code whole few sound]
      generalize hx : storeScene _ (pipeOf (answerPlaced r s) p) = x
      have stored : ∀ q, pipeOf (settle (enterAnswer r (answerAdjusted ((c.planes.map (planeAdjustments (activeArea p
          (pipeOf (answerPlaced r s) p)))).sum)) (setPipe p x (answerPlaced r s)))) q = if q = p then x else pipeOf s q := fun q => by
        rw [pipe_of_answer, pipeOf_setPipe]; rfl
      refine ⟨by rw [stored, if_pos rfl, ← hx]; rfl, ?_, by rw [stored, if_pos rfl, ← hx]; rfl,
        fun q other => by rw [stored, if_neg other], (c.planes.map (planeAdjustments (activeArea p (pipeOf s p)))).sum, ?_, ?_⟩
      · rw [stored, if_pos rfl, ← hx]
        cases scene : (pipeOf s p).pendingScene <;> simp [storeScene, scene, show pipeOf (answerPlaced r s) p = pipeOf s p from rfl]
      · simp only [List.sum_eq_zero_iff, List.mem_map, forall_exists_index, and_imp, forall_apply_eq_imp_iff₂, planeAdjustments_eq_zero]
      · have bound := sum_planeAdjustments_le (activeArea p (pipeOf s p)) c.planes
        rw [← answerAdjusted_eq (by omega)]
        exact answered_of_awaited (answerAwaited_congr rfl (answerAwaited_placed r s))

end Scenes
/-! ## Pipes that start and stop (R72, R74) -/

section PipeStates
variable {s t : State} {r : RecordRef} {p q : PipeId} {cause : PipeCause}

/-! ### The pipes -/

theorem pipeOf_setReader_other (h : q ≠ p) (n : Nat) (x : SlotReader) (s : State) : pipeOf (setReader p n x s) q = pipeOf s q := by
  rw [setReader, pipeOf_setPipe, if_neg h]

theorem pipeOf_hideSlots_other (h : q ≠ p) (s : State) : pipeOf (hideSlots p s) q = pipeOf s q := by
  have each : ∀ n u, pipeOf (hideSlot p n u) q = pipeOf u q := fun n u => by
    rw [hideSlot, suspendChannel, pipeOf_setFen, pipeOf_setReader_other h]
  rw [hideSlots]
  exact onSlots_keeps (g := fun u => pipeOf u q) each s

theorem pipeOf_stopSlots_other (h : q ≠ p) (s : State) : pipeOf (stopSlots p s) q = pipeOf s q := by
  have each : ∀ n u, pipeOf (stopSlot p n u) q = pipeOf u q := fun n u => by
    rw [stopSlot, stopChannel, pipeOf_setFen, pipeOf_setReader_other h]
  rw [stopSlots]
  exact onSlots_keeps (g := fun u => pipeOf u q) each s

@[simp] theorem pipeOf_raisePipe (q' : PipeId) (a b : PipeState) (s : State) : pipeOf (raisePipe q' a b cause s) q = pipeOf s q :=
  pipeOf_raise _ _ _ _ _

@[simp] theorem pipeOf_completeAll (l : List LongReq) (st : Status) (s : State) (q : PipeId) :
    pipeOf (completeAll l st s) q = pipeOf s q := pipeOf_of_same ((same_completeAll (by decide)).2 rfl) q

/-- R72: the state in which a pipe that starts has given up what it fetched and showed. -/
def startCleared (p : PipeId) (s : State) : State :=
  if p = .centre then startLayout (pipeOf s p).st (dropLayers (hideSlots p s)) else hideSlots p s

theorem enterStarting_eq (p : PipeId) (cause : PipeCause) (s : State) : enterStarting p cause s =
    handSet p false false (raisePipe p .starting (pipeOf s p).st cause (setPipe p
      (startedPipe (startingContent p (startCleared p s)) (startCleared p s).clockNs (pipeOf (startCleared p s) p)) (startCleared p s))) := rfl

theorem pipeOf_startCleared (p q : PipeId) (s : State) : pipeOf (startCleared p s) q = pipeOf (hideSlots p s) q := by
  unfold startCleared
  split
  · rw [pipeOf_startLayout, pipeOf_dropLayers]
  · rfl

theorem same_startCleared {x : Part} (c : x ≠ .cmp) (f : x ≠ .fen) : x.same s (startCleared p s) := by
  unfold startCleared
  split <;> simp [c, f]

/-- R72: the record of a pipe that enters STARTING. -/
theorem bare_enterStarting (p : PipeId) (cause : PipeCause) (s : State) :
    (pipeOf (enterStarting p cause s) p).bare = (startedPipe .none s.clockNs (pipeOf s p)).bare := by
  have cleared : (pipeOf (startCleared p s) p).bare = (pipeOf s p).bare := by rw [pipeOf_startCleared, bare_hideSlots]
  have clock : (startCleared p s).clockNs = s.clockNs := same_startCleared (x := .clock) (by decide) (by decide)
  have started : ∀ (c c' : Content) (n : Nat) (x y : Pipe), x.bare = y.bare → (startedPipe c n x).bare = (startedPipe c' n y).bare := by
    intro c c' n x y h
    have period : periodOf x = periodOf y := by rw [periodOf, periodOf, timing_of_bare h]
    unfold startedPipe
    rw [period]
    exact congrArg (fun z : Pipe => { z with
      st := .starting, startCount := 0, nextVblankNs := n + periodOf y, outLine := 0, noticed := false, line := [] }) h
  rw [enterStarting_eq, pipeOf_handSet, pipeOf_raisePipe, pipeOf_setPipe, if_pos rfl, clock]
  exact started _ _ _ _ _ cleared

theorem pipeOf_enterStarting_other (h : q ≠ p) (cause : PipeCause) (s : State) :
    pipeOf (enterStarting p cause s) q = pipeOf s q := by
  rw [enterStarting_eq, pipeOf_handSet, pipeOf_raisePipe, pipeOf_setPipe, if_neg h, pipeOf_startCleared, pipeOf_hideSlots_other h]

/-- R74: the state in which a pipe that goes OFF has given up what it fetched and showed. -/
def offCleared (p : PipeId) (s : State) : State :=
  let u := stopSlots p (hideSlots p s)
  if p = .centre then freeShown (dropLayers u) else u

theorem enterOff_eq (p : PipeId) (s : State) : enterOff p s =
    completeAll (pipeOf s p).restarts (statusFailed .pipeOff) (handSet p false false (raisePipe p .off (pipeOf s p).st .off
      (setPipe p { pipeOf (offCleared p s) p with st := .off, content := .none, restarts := [], line := [] } (offCleared p s)))) := rfl

theorem pipeOf_offCleared (p q : PipeId) (s : State) : pipeOf (offCleared p s) q = pipeOf (stopSlots p (hideSlots p s)) q := by
  unfold offCleared
  simp only
  split
  · rw [freeShown, pipeOf_setCin, pipeOf_dropLayers]
  · rfl

/-- R74: the record of a pipe that enters OFF. -/
theorem bare_enterOff (p : PipeId) (s : State) :
    (pipeOf (enterOff p s) p).bare = { (pipeOf s p).bare with st := .off, restarts := [], line := [] } := by
  have cleared : (pipeOf (offCleared p s) p).bare = (pipeOf s p).bare := by rw [pipeOf_offCleared, bare_stopSlots, bare_hideSlots]
  rw [enterOff_eq, pipeOf_completeAll, pipeOf_handSet, pipeOf_raisePipe, pipeOf_setPipe, if_pos rfl]
  exact congrArg (fun z : Pipe => { z with st := .off, restarts := [], line := [] }) cleared

theorem pipeOf_enterOff_other (h : q ≠ p) (s : State) : pipeOf (enterOff p s) q = pipeOf s q := by
  rw [enterOff_eq, pipeOf_completeAll, pipeOf_handSet, pipeOf_raisePipe, pipeOf_setPipe, if_neg h, pipeOf_offCleared,
    pipeOf_stopSlots_other h, pipeOf_hideSlots_other h]

/-- R30, R74: no camera buffer is SHOWN after the CENTRE pipe has gone OFF. -/
theorem enterOff_shown (s : State) : bufCount (enterOff .centre s).cin .shown = 0 := by
  have cin : (enterOff .centre s).cin = moveBufs .shown .free s.cin := by
    have cleared : Part.cin.same s (dropLayers (stopSlots .centre (hideSlots .centre s))) := by simp
    have kept : Part.cin.same (offCleared .centre s) (enterOff .centre s) := by rw [enterOff_eq]; simp
    exact kept.trans (congrArg (moveBufs .shown .free) cleared)
  rw [cin, bufCount_moveBufs_old (by decide)]

/-! ### The record that brought the request -/

theorem enterStarting_spares (k : recordSpared r s) : recordSpared r (enterStarting p cause s) := by
  have wai : (startCleared p s).wai = s.wai := same_startCleared (x := .wai) (by decide) (by decide)
  have flm : (startCleared p s).flm = s.flm := same_startCleared (x := .flm) (by decide) (by decide)
  rw [enterStarting_eq]
  refine handSet_spares (recordSpared_congr ?_ (fun st => ?_) k)
  · rw [raisePipe, raise_scanQueue]
    exact congrArg Wai.scanQueue wai
  · rw [filmOf, filmOf, ← flm]
    exact congrArg (fun x : Flm => x.streams.get st) ((same_raisePipe (p := .flm) (by decide)).2 rfl)

theorem completeAll_spares {l : List LongReq} {st : Status} (h : ∀ x ∈ l, x.ref ≠ some r) (k : recordSpared r s) :
    recordSpared r (completeAll l st s) := by
  unfold completeAll
  induction l generalizing s with
  | nil => exact k
  | cons x l ih =>
    exact ih (fun y m => h y (List.mem_cons_of_mem x m)) (completeRequest_spares (h x List.mem_cons_self) k)

theorem enterOff_spares (h : ∀ x ∈ (pipeOf s p).restarts, x.ref ≠ some r) (k : recordSpared r s) : recordSpared r (enterOff p s) := by
  have kept : ∀ x : Part, x ≠ .cin → x ≠ .cmp → x ≠ .fen → x.same s (offCleared p s) := fun x i c f => by
    unfold offCleared
    simp only
    split <;> simp [i, c, f]
  have wai : (offCleared p s).wai = s.wai := kept .wai (by decide) (by decide) (by decide)
  have flm : (offCleared p s).flm = s.flm := kept .flm (by decide) (by decide) (by decide)
  rw [enterOff_eq]
  refine completeAll_spares h (handSet_spares (recordSpared_congr ?_ (fun st => ?_) k))
  · rw [raisePipe, raise_scanQueue]
    exact congrArg Wai.scanQueue wai
  · rw [filmOf, filmOf, ← flm]
    exact congrArg (fun x : Flm => x.streams.get st) ((same_raisePipe (p := .flm) (by decide)).2 rfl)

theorem notHeld_restarts (h : held r s = false) (p : PipeId) (x : LongReq) (m : x ∈ (pipeOf s p).restarts) : x.ref ≠ some r := by
  intro e
  simp only [held, Bool.or_eq_false_iff] at h
  obtain ⟨⟨⟨⟨⟨⟨⟨c, l⟩, d⟩, -⟩, -⟩, -⟩, -⟩, -⟩ := h
  cases p <;> simp only [List.any_eq_false] at c l d
  · exact c x m (by simp [e])
  · exact l x m (by simp [e])
  · exact d x m (by simp [e])

theorem recordSpared_placed (h : held r s = false) : recordSpared r (answerPlaced r s) :=
  ⟨answerAwaited_placed r s, fun st q e => notHeld_films h st q e⟩

theorem viewOwns_iff (p : PipeId) (s : State) : viewOwns p s = true ↔ p = .centre ∧ s.vwc.view ≠ .off := by
  simp [viewOwns]

end PipeStates

/-! ## SET_PIPE_TIMING, PIPE_OFF and RESTART_PIPE (R69 to R77) -/

section PipeRequests
variable {s t : State} {r : RecordRef} {p q : PipeId}

theorem exec_setPipeTiming (h : canTake r s = true) (c : TimingParams) : exec (.setPipeTiming r c) s =
    .next (settle (enterAnswer r (ownSetPipeTiming c (answerPlaced r s)).2 (ownSetPipeTiming c (answerPlaced r s)).1)) :=
  request_of_canTake h
theorem exec_pipeOff (h : canTake r s = true) (c : Byte) : exec (.pipeOff r c) s =
    .next (settle (enterAnswer r (ownPipeOff c (answerPlaced r s)).2 (ownPipeOff c (answerPlaced r s)).1)) :=
  request_of_canTake h
theorem exec_restartPipe (h : canTake r s = true) (c : Byte) : exec (.restartPipe r c) s =
    .next (settle (enterAnswer r (ownRestartPipe ⟨some r⟩ c (answerPlaced r s)).2 (ownRestartPipe ⟨some r⟩ c (answerPlaced r s)).1)) :=
  request_of_canTake h

/-- R69, R70: the limits of a timing, over the pixel rate of its code. -/
theorem timingOk_iff (p : PipeId) (t : Timing) : timingOk p t = true ↔
    ∃ rate, [252, 408, 672, 936, 1080, 1188, 1344, 1488][t.rate]? = some rate ∧
      t.activeW % 2 = 0 ∧ 320 ≤ t.activeW ∧ t.activeW ≤ (if p = .centre then 1920 else 1280) ∧
      240 ≤ t.activeH ∧ t.activeH ≤ (if p = .centre then 720 else 800) ∧
      t.activeW + 16 ≤ t.totalW ∧ t.totalW ≤ 4096 ∧ t.activeH + 4 ≤ t.totalH ∧ t.totalH ≤ 2048 ∧
      framePeriodNs t = t.totalW * t.totalH * 10000 / rate ∧ 8000000 ≤ framePeriodNs t ∧ framePeriodNs t ≤ 40000000 := by
  have area : largestArea p = (if p = .centre then 1920 else 1280, if p = .centre then 720 else 800) := by cases p <;> rfl
  simp only [timingOk, area, Bool.and_eq_true, decide_eq_true_eq]
  constructor
  · rintro ⟨⟨⟨⟨⟨⟨⟨⟨⟨⟨⟨even, w1⟩, w2⟩, h1⟩, h2⟩, w3⟩, w4⟩, h3⟩, h4⟩, code⟩, low⟩, high⟩
    have listed : t.rate < [252, 408, 672, 936, 1080, 1188, 1344, 1488].length := Nat.lt_succ_of_le code
    refine ⟨_, List.getElem?_eq_getElem listed, even, w1, w2, h1, h2, w3, w4, h3, h4, ?_, low, high⟩
    rw [framePeriodNs, pixelRate, nth, List.getElem?_eq_getElem listed]
    rfl
  · rintro ⟨rate, listed, even, w1, w2, h1, h2, w3, w4, h3, h4, -, low, high⟩
    have code := (List.getElem?_eq_some_iff.1 listed).1
    exact ⟨⟨⟨⟨⟨⟨⟨⟨⟨⟨⟨even, w1⟩, w2⟩, h1⟩, h2⟩, w3⟩, w4⟩, h3⟩, h4⟩, Nat.le_of_lt_succ code⟩, low⟩, high⟩

/-- R69: the timing record that a SET_PIPE_TIMING carries. -/
def timingOf (c : TimingParams) : Timing := ⟨c.activeW.toNat, c.activeH.toNat, c.totalW.toNat, c.totalH.toNat, c.rate.toNat⟩

/-- R71: the checks of SET_PIPE_TIMING on a pipe, in their order. -/
theorem ownSetPipeTiming_eq {c : TimingParams} (h : pipeOfCode c.pipe = some p) (s : State) : ownSetPipeTiming c s =
    if timingOk p (timingOf c) = false then (s, answerInvalid .range)
    else if p = .centre ∧ s.vwc.view ≠ .off then (s, answerState .viewActive)
    else (enterStarting p .setTiming (setPipe p { pipeOf s p with timing := some (timingOf c) } s), answerDone) := by
  rw [ownSetPipeTiming, withPipe_of_code h]
  exact if_congr (by rw [Bool.not_eq_true]; rfl) rfl (if_congr (viewOwns_iff p s) rfl rfl)

/-- R72: the other pipes, and the record of one that enters STARTING, field by field. -/
theorem enterStarting_record (p : PipeId) (cause : PipeCause) (s : State) :
    (pipeOf (enterStarting p cause s) p).timing = (pipeOf s p).timing ∧ (pipeOf (enterStarting p cause s) p).st = .starting ∧
    (pipeOf (enterStarting p cause s) p).startCount = 0 ∧
    (pipeOf (enterStarting p cause s) p).nextVblankNs = s.clockNs + periodOf (pipeOf s p) ∧
    (pipeOf (enterStarting p cause s) p).active = (pipeOf s p).active ∧
    (pipeOf (enterStarting p cause s) p).pendingScene = (pipeOf s p).pendingScene ∧
    (pipeOf (enterStarting p cause s) p).underflow = (pipeOf s p).underflow ∧
    (pipeOf (enterStarting p cause s) p).superseded = (pipeOf s p).superseded ∧
    (pipeOf (enterStarting p cause s) p).restarts = (pipeOf s p).restarts := by
  have record := bare_enterStarting p cause s
  exact ⟨(congrArg Pipe.timing record :), (congrArg Pipe.st record :), (congrArg Pipe.startCount record :),
    (congrArg Pipe.nextVblankNs record :), (congrArg Pipe.active record :), (congrArg Pipe.pendingScene record :),
    (congrArg Pipe.underflow record :), (congrArg Pipe.superseded record :), (congrArg Pipe.restarts record :)⟩

/-- R71, R72: the timing that is taken starts the pipe. -/
theorem setPipeTiming_starts (free : held r s = false) (tm : Timing) (h : t = settle (enterAnswer r answerDone
      (enterStarting p .setTiming (setPipe p { pipeOf (answerPlaced r s) p with timing := some tm } (answerPlaced r s))))) :
    (pipeOf t p).timing = some tm ∧ (pipeOf t p).st = .starting ∧ (pipeOf t p).startCount = 0 ∧
    (pipeOf t p).nextVblankNs = s.clockNs + framePeriodNs tm ∧
    (pipeOf t p).active = (pipeOf s p).active ∧ (pipeOf t p).pendingScene = (pipeOf s p).pendingScene ∧
    (pipeOf t p).underflow = (pipeOf s p).underflow ∧ (pipeOf t p).superseded = (pipeOf s p).superseded ∧
    (pipeOf t p).restarts = (pipeOf s p).restarts ∧ (∀ q, q ≠ p → pipeOf t q = pipeOf s q) ∧
    answered r ⟨⟨.done, .none⟩, 0⟩ t := by
  generalize hu : setPipe p { pipeOf (answerPlaced r s) p with timing := some tm } (answerPlaced r s) = u at h
  have pipe : pipeOf u p = { pipeOf s p with timing := some tm } := by rw [← hu, pipeOf_setPipe, if_pos rfl]; rfl
  have others : ∀ q, q ≠ p → pipeOf u q = pipeOf s q := fun q h => by rw [← hu, pipeOf_setPipe, if_neg h]; rfl
  have spared : recordSpared r u := by rw [← hu]; exact recordSpared_congr rfl (fun _ => rfl) (recordSpared_placed free)
  have clock : u.clockNs = s.clockNs := by rw [← hu]; rfl
  obtain ⟨timing, st, count, vblank, active, pending, underflow, superseded, restarts⟩ := enterStarting_record p .setTiming u
  have left : ∀ q, pipeOf t q = pipeOf (enterStarting p .setTiming u) q := fun q => by rw [h, pipe_of_answer]
  rw [pipe] at timing vblank active pending underflow superseded restarts
  rw [left, timing, st, count, vblank, active, pending, underflow, superseded, restarts, clock]
  exact ⟨rfl, rfl, rfl, rfl, rfl, rfl, rfl, rfl, rfl, fun q h => by rw [left, pipeOf_enterStarting_other h, others q h],
    h ▸ answered_of_awaited (enterStarting_spares spared).1⟩

/-- R44, R76: the timing with which the view starts a CENTRE pipe that is OFF. -/
theorem startByView_starts (h : (pipeOf s .centre).st = .off) : (pipeOf (startByView s) .centre).st = .starting ∧
    (pipeOf (startByView s) .centre).startCount = 0 ∧
    (pipeOf (startByView s) .centre).timing = some (viewTiming s.sto.running) := by
  generalize hu : setPipe .centre { pipeOf s .centre with timing := some (viewTiming s.sto.running) } s = u
  have started : startByView s = enterStarting .centre .view u := by rw [← hu]; simp [startByView, h]
  have pipe : pipeOf u .centre = { pipeOf s .centre with timing := some (viewTiming s.sto.running) } := by
    rw [← hu, pipeOf_setPipe, if_pos rfl]
  obtain ⟨timing, st, count, -⟩ := enterStarting_record .centre .view u
  rw [started, timing, st, count, pipe]
  exact ⟨rfl, rfl, rfl⟩

/-- R44: a move of the view into STARTING starts a CENTRE pipe that is OFF. -/
theorem moveView_starts {manual : Bool} {cause : ViewCause} (h : (pipeOf s .centre).st = .off) :
    (pipeOf (moveView .starting manual cause s) .centre).st = .starting ∧
    (pipeOf (moveView .starting manual cause s) .centre).startCount = 0 ∧
    (pipeOf (moveView .starting manual cause s) .centre).timing = some (viewTiming s.sto.running) := by
  have sto : (viewMoved .starting manual s).sto = s.sto :=
    same_viewMoved (p := .sto) (by decide) (by decide) (by decide) (by decide) (by decide) (by decide)
  rw [moveView_eq, enterView, ← sto, ← raise_sto .viewChange _ _ (viewMoved .starting manual s)]
  refine startByView_starts ?_
  rw [raiseView_pipe, st_of_bare (bare_viewMoved _), h]

/-- R42, R70, R76: REVERSE that opens the view over a CENTRE pipe in OFF starts the pipe. -/
theorem reverse_startsPipe {due : Nat} (h : s.vsr.hold = some due) (raw : s.vsr.rawRev = true) (was : s.vsr.reverse = false)
    (off : s.vwc.view = .off) (dark : (pipeOf s .centre).st = .off) :
    ∃ t, exec .holdTimer s = .next t ∧ (pipeOf t .centre).st = .starting ∧ (pipeOf t .centre).startCount = 0 ∧
      (pipeOf t .centre).timing = some (viewTiming s.sto.running) := by
  obtain ⟨t, ran, -, -, left, -⟩ := holdTimer_changes (new := true) h (by simp [raw]) (by simp [was])
  generalize hv : reverseTaken true (holdEnded due s) = v at left
  have is : v.vsr.reverse = true := by rw [← hv, reverseTaken_vsr]
  have vwc : v.vwc = s.vwc := by rw [← hv, reverseTaken_vwc]; rfl
  have sto : v.sto = s.sto := by rw [← hv]; exact same_reverseTaken (p := .sto) (by decide) (by decide) true
  have pipe : pipeOf v .centre = pipeOf s .centre := by rw [← hv, pipeOf_reverseTaken]; rfl
  have opens := viewReverseOn_of_off (s := v) (by rw [vwc]; exact off)
  have waits : (viewReverseOn v).vwc.view ≠ .live := by rw [opens, moveView_vwc (by decide)]; simp [movedView]
  have tpipe : pipeOf t .centre = pipeOf (viewReverseOn v) .centre := pipeOf_of_same (Part.same_trans
    (handReverse_on_same is (.inl waits) (by decide) (by decide) (by decide) (by decide) (by decide))
    (left .cmp (by decide) (by decide) (by decide))) .centre
  have starts := moveView_starts (s := v) (manual := false) (cause := .reverseOn) (by rw [pipe]; exact dark)
  rw [sto] at starts
  rw [← opens, ← tpipe] at starts
  exact ⟨t, ran, starts⟩

/-- Settles O27: the checks in their order, the timing that starts the pipe, the limits, and the timing that the view takes. -/
theorem setPipeTimingStartsThePipe : Obligations.SetPipeTimingStartsThePipe := by
  refine ⟨fun s r c take free => ⟨_, exec_setPipeTiming take c, ?_⟩, timingOk_iff, fun s due hold raw was off dark => ?_⟩
  · cases code : pipeOfCode c.pipe with
    | none =>
      rw [ownSetPipeTiming, withPipe, code]
      exact answerAlone _
    | some p =>
      rw [ownSetPipeTiming_eq code]
      change if timingOk p (timingOf c) = false then _ else _
      split
      · exact answerAlone _
      · split
        · rename_i view
          rw [if_pos (by exact view)]
          exact answerAlone _
        · rename_i view
          rw [if_neg (by exact view)]
          exact setPipeTiming_starts free (timingOf c) rfl
  · obtain ⟨t, ran, st, count, timing⟩ := reverse_startsPipe hold raw was off dark
    exact ⟨t, ran, st, count, timing⟩

theorem ownPipeOff_eq {c : Byte} (h : pipeOfCode c = some p) (view : ¬ (p = .centre ∧ s.vwc.view ≠ .off)) :
    ownPipeOff c s = if (pipeOf s p).st = .off then (s, answerDone) else (enterOff p s, answerDone) := by
  rw [ownPipeOff, withPipe_of_code h, if_neg (by rwa [viewOwns_iff])]

theorem ownRestartPipe_eq {x : LongReq} {c : Byte} (h : pipeOfCode c = some p) (room : (pipeOf s p).restarts.length < 8)
    (timed : (pipeOf s p).timing ≠ none) : ownRestartPipe x c s =
      (enterStarting p .restart (setPipe p { pipeOf s p with restarts := (pipeOf s p).restarts ++ [x] } s), answerPending) := by
  rw [ownRestartPipe, withPipe_of_code h]
  simp only
  rw [if_neg (by omega), if_neg (fun e => timed e.2)]

/-- Settles O28: the pipe's record after PIPE_OFF and after RESTART_PIPE. -/
theorem pipesAreTurnedOffAndRestarted : Obligations.PipesAreTurnedOffAndRestarted := by
  refine ⟨fun s r c p take free code view => ⟨_, exec_pipeOff take c, ?_⟩,
    fun s r c p take free code room timed => ⟨_, exec_restartPipe take c, ?_⟩⟩
  · rw [ownPipeOff_eq (s := answerPlaced r s) code view]
    split
    · rename_i off
      obtain ⟨only, done⟩ := answerAlone (r := r) (s := s) answerDone
      have left := pipe_of_answer (r := r) answerDone (answerPlaced r s)
      rw [left]
      exact ⟨off, rfl, rfl, rfl, rfl, rfl, fun q _ => left q, done, fun _ => only, fun on => absurd off on⟩
    · rename_i on
      have left := pipe_of_answer (r := r) answerDone (enterOff p (answerPlaced r s))
      have record := bare_enterOff p (answerPlaced r s)
      have spared := enterOff_spares (s := answerPlaced r s) (p := p) (notHeld_restarts free p) (recordSpared_placed free)
      rw [left]
      refine ⟨(congrArg Pipe.st record :), (congrArg Pipe.timing record :), (congrArg Pipe.active record :),
        (congrArg Pipe.pendingScene record :), (congrArg Pipe.underflow record :), (congrArg Pipe.superseded record :),
        fun q h => by rw [left, pipeOf_enterOff_other h]; rfl, answered_of_awaited spared.1, fun off => absurd off on,
        fun _ => ⟨(congrArg Pipe.restarts record :), ?_⟩⟩
      rintro rfl
      rw [settle_cin]
      exact enterOff_shown (answerPlaced r s)
  · rw [ownRestartPipe_eq (s := answerPlaced r s) code room timed]
    generalize hu : setPipe p _ (answerPlaced r s) = u
    have pipe : pipeOf u p = { pipeOf s p with restarts := (pipeOf s p).restarts ++ [⟨some r⟩] } := by
      rw [← hu, pipeOf_setPipe, if_pos rfl]; rfl
    have spared : recordSpared r u := by rw [← hu]; exact recordSpared_congr rfl (fun _ => rfl) (recordSpared_placed free)
    have clock : u.clockNs = s.clockNs := by rw [← hu]; rfl
    obtain ⟨timing, st, count, vblank, active, -, -, -, restarts⟩ := enterStarting_record p .restart u
    rw [pipe_of_answer, timing, st, count, vblank, active, restarts, pipe, clock]
    exact ⟨rfl, rfl, rfl, rfl, rfl, rfl, answered_of_awaited (enterStarting_spares spared).1⟩

end PipeRequests

/-! ## Output lines (R83 to R87, R91) -/

section OutputLines
variable {s : State} {p : PipeId} {tm : Timing}

theorem exec_outputLine (timing : (pipeOf s p).timing = some tm) (on : (pipeOf s p).st ≠ .off) (left : (pipeOf s p).outLine < tm.activeH) :
    exec (.outputLine p) s = .next (settle (outputLine p tm.activeW s)) := by
  simp [exec, execOutputLine, timing, on, left, finish]

/-! ### The pipe's record -/

theorem pipeOf_countLate (p : PipeId) (n : Nat) (s : State) :
    pipeOf (countLate p n s) p = { pipeOf s p with underflow := (pipeOf s p).underflow + 1, noticed := true } := by
  unfold countLate
  simp only
  split <;> simp

/-- R91: each late plane is counted once. -/
theorem pipeOf_countLates (p : PipeId) (late : List Nat) (s : State) : ∃ noticed,
    pipeOf (late.foldl (fun t n => countLate p n t) s) p
      = { pipeOf s p with underflow := (pipeOf s p).underflow + BitVec.ofNat 32 late.length, noticed := noticed } := by
  induction late generalizing s with
  | nil => exact ⟨(pipeOf s p).noticed, by simp⟩
  | cons n late ih =>
    obtain ⟨noticed, counted⟩ := ih (countLate p n s)
    refine ⟨noticed, ?_⟩
    have more : (pipeOf s p).underflow + 1 + BitVec.ofNat 32 late.length
        = (pipeOf s p).underflow + BitVec.ofNat 32 (n :: late).length := by
      rw [List.length_cons, Nat.add_comm, BitVec.ofNat_add, BitVec.add_assoc]
      rfl
    rw [List.foldl_cons, counted, pipeOf_countLate]
    simp only [more]

@[simp] theorem unread_passLine (q : PipeId) (y n : Nat) (s : State) : (pipeOf (passLine p y n s) q).unread = (pipeOf s q).unread := by
  unfold passLine
  simp only
  split
  · rfl
  · rw [unread_handLine, unread_setReader]

/-- R91: the slots whose planes are late on the line that begins. -/
def lateSlots (s : State) (p : PipeId) : List Nat :=
  if (pipeOf s p).st = .running then slotNumbers.filter (slotLate s p (pipeOf s p).outLine) else []

/-- R83, R91: the pipe's record after the start of an output line. -/
theorem unread_outputLine (p : PipeId) (w : Nat) (s : State) : ∃ noticed, (pipeOf (outputLine p w s) p).unread =
    { (pipeOf s p).unread with
      underflow := (pipeOf s p).underflow + BitVec.ofNat 32 (lateSlots s p).length
      noticed := noticed
      line := composeLine s p (pipeOf s p).outLine w
      outLine := (pipeOf s p).outLine + 1 } := by
  obtain ⟨noticed, counted⟩ := pipeOf_countLates p (lateSlots s p) s
  refine ⟨noticed, ?_⟩
  generalize hu : (lateSlots s p).foldl (fun t n => countLate p n t) s = u at counted
  have passed : ∀ v, (pipeOf (onSlots (passLine p (pipeOf s p).outLine) v) p).unread = (pipeOf v p).unread := fun v =>
    onSlots_keeps (g := fun v => (pipeOf v p).unread) (fun n v => unread_passLine p _ n v) v
  have ends : (pipeOf (outputLine p w s) p).unread = (pipeOf (onSlots (passLine p (pipeOf s p).outLine)
      (setPipe p { pipeOf (countDrawn u) p with line := composeLine s p (pipeOf s p).outLine w, outLine := (pipeOf s p).outLine + 1 }
        (countDrawn u))) p).unread := by
    rw [← hu, outputLine]
    simp only
    split <;> rfl
  rw [ends, passed, pipeOf_setPipe, if_pos rfl, pipeOf_countDrawn, counted]
  rfl

theorem length_lateSlots (s : State) (p : PipeId) : BitVec.ofNat 32 (lateSlots s p).length = if (pipeOf s p).st = .running then
    BitVec.ofNat 32 ((List.range 6).countP (slotLate s p (pipeOf s p).outLine)) else 0 := by
  unfold lateSlots
  split
  · rw [← List.countP_eq_length_filter]; rfl
  · rfl

/-! ### The pixels -/

theorem length_composeLine (s : State) (p : PipeId) (y w : Nat) : (composeLine s p y w).length = w := by simp [composeLine]

/-- R83: a frame of a backdrop alone. -/
theorem composeLine_of_backdrop (h : (pipeOf s p).content = .hostBackdrop ∨ (pipeOf s p).content = .viewBackdrop) (y w : Nat) :
    composeLine s p y w = List.replicate w (backdropOf s p) := by
  have layers : layersOf s p y = [] := by rcases h with e | e <;> simp [layersOf, e]
  simp [composeLine, layers]

theorem blend_noInk (d : Rgb) : blend d noInk = d := by
  simp only [blend, noInk, blendChannel_zero]

theorem blend_full (d c : Rgb) : blend d ⟨255, c⟩ = c := by
  simp only [blend, blendChannel_full]

theorem slotLayer_of_empty {n : Nat} (h : planeOf (pipeOf s p) n = none) (y : Nat) : slotLayer s p n y = fun _ => noInk := by
  simp [slotLayer, h]

/-- R87: a suppressed plane is not shown. -/
theorem slotLayer_of_suppressed {n : Nat} {q : Plane} (h : planeOf (pipeOf s p) n = some q) (hidden : suppressed s p q = true) (y : Nat) :
    slotLayer s p n y = fun _ => noInk := by
  simp [slotLayer, h, hidden]

/-- R84: an opaque FILL plane on a line that it covers. -/
theorem slotLayer_of_fill {n y : Nat} {q : Plane} (h : planeOf (pipeOf s p) n = some q) (fill : q.kind = .fill) (solid : q.alpha = 255)
    (shown : (readerOf (pipeOf s p) n).fetched = true) (top : q.y ≤ y) (bottom : y < q.y + q.h) (px : Nat) :
    slotLayer s p n y px = if q.x ≤ px ∧ (px : Int) < q.x + q.w then ⟨255, rgbOf q.colour⟩ else noInk := by
  have free : suppressed s p q = false := by simp [suppressed, interlocked, fill, PlaneKind.film, PlaneKind.fetches]
  simp [slotLayer, h, shown, free, planeRow, top, bottom, planeInk, fill, solid, effectiveAlpha]

/-- R84, R85: a scene of one opaque FILL plane, pixel by pixel. -/
theorem composeLine_of_fill {y w : Nat} {q : Plane} (content : (pipeOf s p).content = .hostScene)
    (scene : (pipeOf s p).active.slots = [some q]) (fill : q.kind = .fill) (solid : q.alpha = 255)
    (shown : (readerOf (pipeOf s p) 0).fetched = true) (top : q.y ≤ y) (bottom : y < q.y + q.h) (px : Nat) (h : px < w) :
    (composeLine s p y w)[px]? = some (if q.x ≤ px ∧ (px : Int) < q.x + q.w then rgbOf q.colour
      else rgbOf (pipeOf s p).active.backdrop) := by
  have first : planeOf (pipeOf s p) 0 = some q := by simp [planeOf, nth, scene]
  have others : ∀ n, slotLayer s p (n + 1) y = fun _ => noInk := fun n => slotLayer_of_empty (by simp [planeOf, nth, scene]) y
  have layers : layersOf s p y = [slotLayer s p 0 y, fun _ => noInk, fun _ => noInk, fun _ => noInk, fun _ => noInk, fun _ => noInk] := by
    simp only [layersOf, content, shownSlots]
    change [slotLayer s p 0 y, slotLayer s p (0 + 1) y, slotLayer s p (1 + 1) y, slotLayer s p (2 + 1) y, slotLayer s p (3 + 1) y,
      slotLayer s p (4 + 1) y] = _
    simp only [others]
  have backdrop : backdropOf s p = rgbOf (pipeOf s p).active.backdrop := by simp [backdropOf, content]
  simp only [composeLine, layers, List.getElem?_map, List.getElem?_range h, Option.map_some, List.foldl_cons, List.foldl_nil, blend_noInk,
    backdrop, slotLayer_of_fill first fill solid shown top bottom]
  split
  · rw [blend_full]
  · rw [blend_noInk]

/-! ### The film interlock (R87) -/

/-- The state in which the CENTRE pipe's scene has no FILM planes. -/
def filmless (s : State) : State := setPipe .centre { pipeOf s .centre with active := withoutFilms (pipeOf s .centre).active } s

theorem pipeOf_filmless (s : State) : pipeOf (filmless s) .centre = { pipeOf s .centre with
    active := withoutFilms (pipeOf s .centre).active } := by
  rw [filmless, pipeOf_setPipe, if_pos rfl]

theorem planeOf_filmless (s : State) (n : Nat) : planeOf (pipeOf (filmless s) .centre) n =
    match planeOf (pipeOf s .centre) n with
    | some q => if q.kind.film.isSome then none else some q
    | none => none := by
  rw [pipeOf_filmless]
  simp only [planeOf, nth, withoutFilms, List.getElem?_map]
  cases (pipeOf s .centre).active.slots[n]? <;> rfl

/-- R87: with PARKED false a FILM plane of the CENTRE pipe has no layer, and neither has its empty slot. -/
theorem slotLayer_filmless (parked : s.vsr.parked = false) (n y : Nat) :
    slotLayer (filmless s) .centre n y = slotLayer s .centre n y := by
  have empty := planeOf_filmless s n
  cases plane : planeOf (pipeOf s .centre) n with
  | none =>
    rw [plane] at empty
    rw [slotLayer_of_empty plane, slotLayer_of_empty empty]
  | some q =>
    rw [plane] at empty
    by_cases film : q.kind.film.isSome = true
    · simp only [film, if_true] at empty
      rw [slotLayer_of_suppressed plane (by simp [suppressed, interlocked, film, parked]), slotLayer_of_empty empty]
    · simp only [film, Bool.false_eq_true, if_false] at empty
      have reader : readerOf (pipeOf (filmless s) .centre) n = readerOf (pipeOf s .centre) n := by rw [pipeOf_filmless]; rfl
      unfold slotLayer
      simp only [empty, plane, reader]
      rfl

theorem safeSlots_withoutFilms {sc : Scene} (h : ∀ q : Plane, some q ∈ sc.slots → q.kind = .filmA ∨ q.kind = .filmB → q.safe = false) :
    safeSlots (withoutFilms sc) = safeSlots sc := by
  unfold safeSlots
  congr 1
  refine List.filter_congr fun n _ => ?_
  simp only [nth, withoutFilms, List.getElem?_map]
  cases slot : sc.slots[n]? with
  | none => rfl
  | some o =>
    cases o with
    | none => rfl
    | some q =>
      have unmarked := h q (List.mem_of_getElem? slot)
      cases kind : q.kind <;> simp_all [PlaneKind.film]

/-- R87: the line of the CENTRE pipe while PARKED is false. -/
theorem composeLine_filmless (parked : s.vsr.parked = false)
    (h : ∀ q : Plane, some q ∈ (pipeOf s .centre).active.slots → q.kind = .filmA ∨ q.kind = .filmB → q.safe = false) (y w : Nat) :
    composeLine s .centre y w = composeLine (filmless s) .centre y w := by
  have layers : layersOf (filmless s) .centre y = layersOf s .centre y := by
    have content : (pipeOf (filmless s) .centre).content = (pipeOf s .centre).content := by rw [pipeOf_filmless]
    have shown : ∀ c, shownSlots c (pipeOf (filmless s) .centre).active = shownSlots c (pipeOf s .centre).active := fun c => by
      rw [pipeOf_filmless]
      unfold shownSlots
      simp only [safeSlots_withoutFilms h]
    unfold layersOf
    simp only [shown, content, slotLayer_filmless parked]
    rfl
  have backdrop : backdropOf (filmless s) .centre = backdropOf s .centre := by
    unfold backdropOf
    rw [pipeOf_filmless]
    rfl
  rw [composeLine, composeLine, layers, backdrop]

/-- Settles O32: the pipe's record after the line, and its pixels in each content. -/
theorem outputLinesAreComposed : Obligations.OutputLinesAreComposed := by
  intro s p tm timing on left
  refine ⟨_, exec_outputLine timing on left, ?_⟩
  obtain ⟨noticed, record⟩ := unread_outputLine p tm.activeW s
  have line : (pipeOf (outputLine p tm.activeW s) p).line = composeLine s p (pipeOf s p).outLine tm.activeW :=
    (congrArg Pipe.line record :)
  have next : (pipeOf (outputLine p tm.activeW s) p).outLine = (pipeOf s p).outLine + 1 := (congrArg Pipe.outLine record :)
  have underflow : (pipeOf (outputLine p tm.activeW s) p).underflow
      = (pipeOf s p).underflow + BitVec.ofNat 32 (lateSlots s p).length := (congrArg Pipe.underflow record :)
  rw [pipeOf_settle, line, next, underflow, length_lateSlots]
  refine ⟨rfl, length_composeLine s p _ _, fun content => ?_, fun content => ?_,
    fun content q scene fill full shown top bottom px h => composeLine_of_fill content scene fill full shown top bottom px h, rfl, ?_⟩
  · rw [composeLine_of_backdrop (.inl content), backdropOf, content]
  · rw [composeLine_of_backdrop (.inr content), backdropOf, content]
  · rintro rfl parked unmarked
    exact composeLine_filmless parked unmarked _ _

end OutputLines

/-! PROOFS. Chapter 7: an exit from ATTACHED, the units of the system port and their places, what each unit hands over, and what a failed one
ends; the statement of the completions and failures. -/

/-! ## An exit from ATTACHED (R112, R153, R158, R167) -/

section Exit
variable {s t u : State} {p q : PipeId} {st : StreamId} {n : Nat}

/-! ### The interface's own record

Off the page table and off the board an event can do no more to it than raise notices. -/

/-- With no page taken and no live board, what an event leaves of the interface's record is all but the notice slots. -/
def Hushed (s t : State) : Prop := s.wai.taken = [] → boardLive s.wai = false → ∃ xs, t.wai = { s.wai with slots := xs }

theorem hushed_of_wai (h : t.wai = s.wai) : Hushed s t := fun _ _ => ⟨s.wai.slots, h⟩

theorem Hushed.trans (h : Hushed s t) (k : Hushed t u) : Hushed s u := fun taken live => by
  obtain ⟨xs, e⟩ := h taken live
  obtain ⟨ys, e'⟩ := k (by rw [e]; exact taken) (by rw [e]; exact live)
  exact ⟨ys, by rw [e', e]⟩

theorem Hushed.from_wai (k : Hushed u t) (h : u.wai = s.wai) : Hushed s t := (hushed_of_wai h).trans k

theorem hushed_raise (k : NoticeKind) (a b : Word) (s : State) : Hushed s (raise k a b s) := fun _ live => by
  unfold raise
  split
  · exact ⟨_, rfl⟩
  · split
    · simp only [live, Bool.false_and, Bool.or_false]
      exact ⟨_, rfl⟩
    · exact ⟨_, rfl⟩

theorem hushed_completeRequest (x : LongReq) (status : Status) (s : State) : Hushed s (completeRequest x status s) :=
  fun taken _ => ⟨s.wai.slots, by
    unfold completeRequest
    split
    · rfl
    · rw [taken]; rfl⟩

theorem hushed_completeFlush (st : StreamId) (s : State) : Hushed s (completeFlush st s) := by
  unfold completeFlush
  simp only
  split
  · exact hushed_of_wai rfl
  · exact (hushed_completeRequest _ _ _).from_wai rfl

theorem hushed_examineStream (st : StreamId) (s : State) : Hushed s (examineStream st s) := by
  have closed : Hushed s (completeClose st s) := by
    unfold completeClose
    simp only
    split
    · exact hushed_of_wai rfl
    · exact (hushed_completeFlush st s).trans ((hushed_completeRequest _ _ _).from_wai rfl)
  unfold examineStream
  simp only
  repeat' split
  · exact closed
  · exact hushed_of_wai rfl
  · exact hushed_completeFlush st s
  · exact hushed_of_wai rfl

theorem hushed_handSet (p : PipeId) (a b : Bool) (s : State) : Hushed s (handSet p a b s) := by
  have retired : ∀ (st : StreamId) (v : State), Hushed v (retireStream st v) := fun st v => by
    rw [retireStream]
    exact (hushed_examineStream st _).from_wai rfl
  obtain ⟨v, e, wai⟩ : ∃ v, handSet p a b s = retireStream .b (retireStream .a v) ∧ v.wai = s.wai := ⟨_, rfl, rfl⟩
  rw [e]
  exact ((retired .a v).from_wai wai).trans (retired .b _)

theorem hushed_abandonWrite (s : State) : Hushed s (abandonWrite s) := by
  unfold abandonWrite
  split
  · simp only [raiseSettings]
    exact (hushed_raise _ _ _ _).from_wai ((same_dropBulk (p := .wai) (by decide)).2 rfl)
  · split <;> exact hushed_of_wai rfl

/-! ### The streams -/

@[simp] theorem filmOf_completeRequest (x : LongReq) (status : Status) (s : State) (st : StreamId) :
    filmOf (completeRequest x status s) st = filmOf s st := by
  rw [filmOf, show (completeRequest x status s).flm = s.flm from (same_completeRequest (p := .flm) (by decide)).2 rfl]; rfl

theorem completeFlush_st (st' st : StreamId) (s : State) : (filmOf (completeFlush st' s) st).st = (filmOf s st).st := by
  unfold completeFlush
  simp only
  split
  · rfl
  · rw [filmOf_completeRequest, filmOf_setFilm]
    split
    · rename_i e; rw [e]
    · rfl

/-- R111: no end of a flush or a close opens a stream. -/
theorem examineStream_closed (st' : StreamId) (h : (filmOf s st).st = .closed) : (filmOf (examineStream st' s) st).st = .closed := by
  have flushed := (completeFlush_st st' st s).trans h
  have closed : (filmOf (completeClose st' s) st).st = .closed := by
    unfold completeClose
    simp only
    split
    · exact h
    · rw [filmOf_completeRequest, filmOf_setFilm]
      split
      · rfl
      · exact flushed
  unfold examineStream
  simp only
  repeat' split
  all_goals assumption

theorem handSet_closed (p : PipeId) (a b : Bool) (h : (filmOf s st).st = .closed) : (filmOf (handSet p a b s) st).st = .closed := by
  have video : ∀ (st' : StreamId) (v : FilmVideo) (x : State), (filmOf x st).st = .closed →
      (filmOf (setVideo st' v x) st).st = .closed := fun st' v x k => by
    rw [setVideo, filmOf_setFilm]
    split
    · rename_i e; rw [← e]; exact k
    · exact k
  have retired : ∀ (st' : StreamId) (x : State), (filmOf x st).st = .closed → (filmOf (retireStream st' x) st).st = .closed :=
    fun st' x k => examineStream_closed st' (video _ _ _ k)
  exact retired _ _ (retired _ _ (video _ _ _ (video _ _ _ h)))

theorem filmOf_of_same (h : Part.flm.same s t) (st : StreamId) : filmOf t st = filmOf s st := by
  rw [filmOf, show t.flm = s.flm from h]; rfl

theorem detachStream_closes (st : StreamId) (s : State) : (filmOf (detachStream st s) st).st = .closed := by
  rw [detachStream, stopChannel, filmOf_setFen]
  split
  · assumption
  · rw [filmOf_setFilm, if_pos rfl]; rfl

/-- R112: both streams are CLOSED. -/
theorem streamsDetached_closed (s : State) (st : StreamId) : (filmOf (onStreams detachStream s) st).st = .closed := by
  unfold onStreams
  cases st with
  | a =>
    have first := detachStream_closes .a s
    rw [detachStream, stopChannel, filmOf_setFen]
    split
    · exact first
    · rw [filmOf_setFilm, if_neg (by decide)]; exact first
  | b => exact detachStream_closes .b _

/-! ### The readers -/

/-- The progress records of the plane readers and of the audio readers, and WORK's list. -/
def fetchRecords (s : State) : PerPipe (List Channel) × PerStream Channel × List WorkItem := (s.fen.planes, s.fen.audio, s.fen.work)

theorem fetchRecords_of_fen (h : t.fen = s.fen) : fetchRecords t = fetchRecords s := by rw [fetchRecords, h]; rfl

@[simp] theorem fetchRecords_raise (k : NoticeKind) (a b : Word) (s : State) : fetchRecords (raise k a b s) = fetchRecords s :=
  fetchRecords_of_fen ((same_raise (by decide)).2 (Part.same_self .fen s))

@[simp] theorem fetchRecords_dropBulk (id : BulkId) (s : State) : fetchRecords (dropBulk id s) = fetchRecords s := by
  unfold dropBulk cutLocal
  simp only
  repeat' split
  all_goals rfl

@[simp] theorem fetchRecords_abandonLoad (n : Nat) (s : State) : fetchRecords (abandonLoad n s) = fetchRecords s := by
  unfold abandonLoad dropLoad
  split
  · rw [fetchRecords_dropBulk]; rfl
  · rfl

theorem fetchRecords_abandonLoads (s : State) : fetchRecords (onSounds abandonLoad s) = fetchRecords s := by
  have all : ∀ (ns : List Nat) (u : State), fetchRecords (ns.foldl (fun t n => abandonLoad n t) u) = fetchRecords u := fun ns => by
    induction ns with
    | nil => exact fun _ => rfl
    | cons n ns ih => exact fun u => (ih _).trans (fetchRecords_abandonLoad n u)
  exact all _ s

@[simp] theorem fetchRecords_abandonWrite (s : State) : fetchRecords (abandonWrite s) = fetchRecords s := by
  unfold abandonWrite
  split
  · simp only [raiseSettings]
    rw [fetchRecords_raise]
    exact fetchRecords_dropBulk _ _
  · split <;> rfl

@[simp] theorem fetchRecords_abandonRead (s : State) : fetchRecords (abandonRead s) = fetchRecords s := by
  unfold abandonRead
  split
  · rfl
  · simp only
    split
    · rw [fetchRecords_of_fen ((same_freeFlash (p := .fen) (by decide)).2 rfl), fetchRecords_dropBulk]; rfl
    · rw [fetchRecords_dropBulk]; rfl

/-- What one pipe's action brings about, and the others' actions keep, holds of all pipes in the end. -/
theorem onPipes_establishes {Q : PipeId → State → Prop} {f : PipeId → State → State} (new : ∀ p u, Q p (f p u))
    (old : ∀ p q u, q ≠ p → Q q u → Q q (f p u)) (s : State) (p : PipeId) : Q p (onPipes f s) := by
  cases p with
  | centre => exact old _ _ _ (by decide) (old _ _ _ (by decide) (new _ _))
  | rearL => exact old _ _ _ (by decide) (new _ _)
  | rearR => exact new _ _

theorem onPipes_keeps {α : Type} {g : State → α} {f : PipeId → State → State} (h : ∀ p u, g (f p u) = g u) (s : State) :
    g (onPipes f s) = g s := by
  rw [onPipes, h, h, h]

theorem onPipes_preserves {Q : State → Prop} {f : PipeId → State → State} (h : ∀ p u, Q u → Q (f p u)) {s : State} (k : Q s) :
    Q (onPipes f s) := h _ _ (h _ _ (h _ _ k))

/-- R89, R158: the reader of a slot is stopped, whatever its plane. -/
theorem fetchRecords_withdrawSlot (p : PipeId) (n : Nat) (s : State) : fetchRecords (withdrawSlot p n s)
    = (s.fen.planes.set p ((s.fen.planes.get p).set n idleChannel), s.fen.audio, s.fen.work) := by
  unfold withdrawSlot
  split
  · split <;> rfl
  · rfl

/-- The plane reader of a slot has no transfer. -/
def readerIdle (p : PipeId) (n : Nat) (s : State) : Prop := nth (s.fen.planes.get p) n idleChannel = idleChannel

theorem readerIdle_congr (h : fetchRecords t = fetchRecords s) (k : readerIdle p n s) : readerIdle p n t := by
  have planes : t.fen.planes = s.fen.planes := congrArg Prod.fst h
  rw [readerIdle, planes]; exact k

theorem nth_set {α : Type} (l : List α) (n m : Nat) (x d : α) :
    nth (l.set n x) m d = if n = m ∧ n < l.length then x else nth l m d := by
  simp only [nth, List.getElem?_set]
  split
  · rename_i e
    subst e
    split
    · rename_i h; simp [h]
    · rename_i h; simp [h]
  · rename_i e; simp [e]

/-- R158: the stop of a slot's reader, and no stop starts another one. -/
theorem withdrawSlot_idle (p : PipeId) (n : Nat) (s : State) :
    readerIdle p n (withdrawSlot p n s) ∧ ∀ q m, readerIdle q m s → readerIdle q m (withdrawSlot p n s) := by
  have planes : (withdrawSlot p n s).fen.planes = s.fen.planes.set p ((s.fen.planes.get p).set n idleChannel) :=
    congrArg Prod.fst (fetchRecords_withdrawSlot p n s)
  unfold readerIdle
  rw [planes]
  refine ⟨?_, fun q m h => ?_⟩
  · rw [PerPipe.get_set, if_pos rfl, nth_set]
    split
    · rfl
    · rename_i out
      rw [nth, List.getElem?_eq_none (by omega)]; rfl
  · rw [PerPipe.get_set]
    split
    · rename_i e
      subst e
      rw [nth_set]
      split
      · rfl
      · exact h
    · exact h

/-- What each slot's action brings about, and every slot's action keeps, holds of all six slots in the end. -/
theorem onSlots_establishes {Q : Nat → State → Prop} {f : Nat → State → State} (new : ∀ n u, Q n (f n u))
    (old : ∀ n m u, Q m u → Q m (f n u)) (s : State) (h : n < 6) : Q n (onSlots f s) := by
  have kept : ∀ (ns : List Nat) (m : Nat) (u : State), Q m u → Q m (ns.foldl (fun t n => f n t) u) := fun ns m => by
    induction ns with
    | nil => exact fun _ k => k
    | cons n ns ih => exact fun u k => ih _ (old n m u k)
  have all : ∀ (ns : List Nat) (u : State), ∀ m ∈ ns, Q m (ns.foldl (fun t n => f n t) u) := fun ns => by
    induction ns with
    | nil => exact fun _ m k => absurd k List.not_mem_nil
    | cons n ns ih =>
      intro u m k
      rcases List.mem_cons.1 k with rfl | k
      · exact kept ns m _ (new m u)
      · exact ih _ m k
  exact all slotNumbers s n (List.mem_range.2 h)

/-- R158: the six readers of a pipe are stopped, and no other is started. -/
theorem withdrawPipe_idle (p : PipeId) (s : State) : (∀ m < 6, readerIdle p m (withdrawPipe p s)) ∧
    ∀ q m, readerIdle q m s → readerIdle q m (withdrawPipe p s) := by
  have records : fetchRecords (withdrawPipe p s) = fetchRecords (onSlots (withdrawSlot p) s) :=
    fetchRecords_of_fen ((same_handSet (p := .fen) (by decide) (by decide)).2 rfl)
  refine ⟨fun m h => readerIdle_congr records ?_, fun q m h => readerIdle_congr records ?_⟩
  · exact onSlots_establishes (Q := fun m u => readerIdle p m u) (fun n u => (withdrawSlot_idle p n u).1)
      (fun n m u => (withdrawSlot_idle p n u).2 p m) s h
  · have all : ∀ (ns : List Nat) (u : State), readerIdle q m u → readerIdle q m (ns.foldl (fun t n => withdrawSlot p n t) u) :=
      fun ns => by
        induction ns with
        | nil => exact fun _ k => k
        | cons n ns ih => exact fun u k => ih _ ((withdrawSlot_idle p n u).2 q m k)
    exact all _ s h

/-- The audio readers and WORK's list. -/
def soundAndWork (s : State) : PerStream Channel × List WorkItem := (s.fen.audio, s.fen.work)

theorem soundAndWork_withdrawPipe (p : PipeId) (s : State) : soundAndWork (withdrawPipe p s) = soundAndWork s := by
  have left : soundAndWork (withdrawPipe p s) = soundAndWork (onSlots (withdrawSlot p) s) := by
    rw [soundAndWork, show (withdrawPipe p s).fen = (onSlots (withdrawSlot p) s).fen from
      (same_handSet (p := .fen) (by decide) (by decide)).2 rfl]
    rfl
  rw [left]
  exact onSlots_keeps (g := soundAndWork) (fun n u => congrArg Prod.snd (fetchRecords_withdrawSlot p n u)) s

/-! ### The scenes -/

/-- R89: no plane of a pipe fetches. -/
def nothingFetched (p : PipeId) (s : State) : Prop := ∀ e ∈ (pipeOf s p).active.slots, ∀ x, e = some x → x.kind = .fill

theorem nothingFetched_congr (h : (pipeOf t p).active = (pipeOf s p).active) (k : nothingFetched p s) : nothingFetched p t := by
  rw [nothingFetched, h]; exact k

theorem withoutFetched_fills (sc : Scene) : ∀ e ∈ (withoutFetched sc).slots, ∀ x, e = some x → x.kind = .fill := by
  intro e h x ex
  obtain ⟨o, -, rfl⟩ := List.mem_map.1 h
  cases o with
  | none => simp at ex
  | some q =>
    cases kind : q.kind <;> simp_all [PlaneKind.fetches]

theorem unread_withdrawSlot (q p : PipeId) (n : Nat) (s : State) : (pipeOf (withdrawSlot p n s) q).unread = (pipeOf s q).unread := by
  unfold withdrawSlot
  split
  · split
    · exact unread_stopSlot p n s
    · rfl
  · exact unread_stopSlot p n s

/-- R89: the planes that fetch leave the pipe's scene; the other pipes' scenes stay. -/
theorem withdrawPipe_active (q p : PipeId) (s : State) : (pipeOf (withdrawPipe p s) q).active
    = if q = p then withoutFetched (pipeOf s p).active else (pipeOf s q).active := by
  have stopped : ∀ r, (pipeOf (onSlots (withdrawSlot p) s) r).active = (pipeOf s r).active := fun r =>
    (congrArg Pipe.active (onSlots_keeps (g := fun u => (pipeOf u r).unread) (fun n u => unread_withdrawSlot r p n u) s) :)
  rw [withdrawPipe, pipeOf_handSet, pipeOf_setPipe]
  split
  · simp only [stopped]
  · exact stopped q

theorem pipesWithdrawn_active (s : State) (p : PipeId) : nothingFetched p (onPipes withdrawPipe s) :=
  onPipes_establishes (Q := nothingFetched)
    (fun q u => by rw [nothingFetched, withdrawPipe_active, if_pos rfl]; exact withoutFetched_fills _)
    (fun r q u h k => nothingFetched_congr (by rw [withdrawPipe_active, if_neg h]) k) s p

theorem pipesWithdrawn_idle (s : State) (p : PipeId) (h : n < 6) : readerIdle p n (onPipes withdrawPipe s) :=
  onPipes_establishes (Q := fun p u => readerIdle p n u) (fun q u => (withdrawPipe_idle q u).1 n h)
    (fun r q u _ => (withdrawPipe_idle r u).2 q n) s p

theorem soundAndWork_streamsDetached (s : State) : soundAndWork (onStreams detachStream s) = (⟨idleChannel, idleChannel⟩, s.fen.work) := by
  have each : ∀ (st : StreamId) (u : State), soundAndWork (detachStream st u) = (u.fen.audio.set st idleChannel, u.fen.work) :=
    fun st u => by
      unfold detachStream
      simp only
      split <;> rfl
  have audio : ∀ u : State, (detachStream .a u).fen.audio = u.fen.audio.set .a idleChannel ∧ (detachStream .a u).fen.work = u.fen.work :=
    fun u => Prod.mk.inj (each .a u)
  rw [onStreams, each, (audio s).1, (audio s).2]
  rfl

/-! ### The whole exit -/

/-- The state in which WAI and WORK have left ATTACHED, and the host window is closed. -/
def workLeft (new : AttachState) (cause : AttachCause) (s : State) : State :=
  let u := stopWork (s.setWai (waiExit new cause s.wai))
  u.setFen { u.fen with window := none }

/-- The state in which the streams are closed, the planes withdrawn, and the restarts abandoned. -/
def screensLeft (new : AttachState) (cause : AttachCause) (s : State) : State :=
  onPipes abandonRestarts (onPipes withdrawPipe (onStreams detachStream (workLeft new cause s)))

theorem exitAttached_eq (new : AttachState) (cause : AttachCause) (s : State) :
    exitAttached new cause s = abandonRead (abandonWrite (onSounds abandonLoad (screensLeft new cause s))) := rfl

theorem fetchRecords_exitAttached (new : AttachState) (cause : AttachCause) (s : State) : fetchRecords (exitAttached new cause s)
    = fetchRecords (onPipes withdrawPipe (onStreams detachStream (workLeft new cause s))) := by
  rw [exitAttached_eq, fetchRecords_abandonRead, fetchRecords_abandonWrite, fetchRecords_abandonLoads]
  exact onPipes_keeps (g := fetchRecords) (f := abandonRestarts) (fun _ _ => rfl) _

/-- R153, R158, R167: WORK's list is empty, and every reader is stopped. -/
theorem exitAttached_readers (new : AttachState) (cause : AttachCause) (s : State) : (exitAttached new cause s).fen.work = [] ∧
    (∀ p, ∀ slot < 6, channelOf (exitAttached new cause s).fen (.plane p slot) = idleChannel) ∧
    ∀ st, channelOf (exitAttached new cause s).fen (.audio st) = idleChannel := by
  have records := fetchRecords_exitAttached new cause s
  have others : soundAndWork (exitAttached new cause s) = (⟨idleChannel, idleChannel⟩, []) := by
    have withdrawn : ∀ u : State, soundAndWork (onPipes withdrawPipe u) = soundAndWork u :=
      onPipes_keeps (g := soundAndWork) soundAndWork_withdrawPipe
    refine (congrArg Prod.snd records).trans ?_
    exact (withdrawn _).trans (soundAndWork_streamsDetached _)
  obtain ⟨audio, work⟩ := Prod.mk.inj others
  refine ⟨work, fun p slot h => readerIdle_congr records (pipesWithdrawn_idle _ p h), fun st => ?_⟩
  rw [channelOf, audio]
  cases st <;> rfl

theorem same_screensLeft {x : Part} (c : x ≠ .cmp) (f : x ≠ .fen) (w : x ≠ .wai) (m : x ≠ .flm)
    (new : AttachState) (cause : AttachCause) (s : State) : x.same (workLeft new cause s) (screensLeft new cause s) := by
  have abandoned : ∀ q v, x.same v (abandonRestarts q v) := fun q v => by simp [abandonRestarts, c]
  simp [screensLeft, c, f, w, m, abandoned]

theorem same_exitEnded {x : Part} (c : x ≠ .che) (b : x ≠ .bank) (o : x ≠ .sto) (f : x ≠ .fen) (w : x ≠ .wai)
    (new : AttachState) (cause : AttachCause) (s : State) : x.same (screensLeft new cause s) (exitAttached new cause s) := by
  rw [exitAttached_eq]
  simp [c, b, o, f, w]

/-- R89, R112: both streams are CLOSED, and no plane that fetches is left. -/
theorem exitAttached_screens (new : AttachState) (cause : AttachCause) (s : State) :
    (∀ st, (filmOf (exitAttached new cause s) st).st = .closed) ∧ ∀ p, nothingFetched p (exitAttached new cause s) := by
  refine ⟨fun st => ?_, fun p => ?_⟩
  · rw [filmOf_of_same (same_exitEnded (x := .flm) (by decide) (by decide) (by decide) (by decide) (by decide) new cause s)]
    have withdrawn : ∀ (p : PipeId) (u : State), (filmOf u st).st = .closed → (filmOf (withdrawPipe p u) st).st = .closed :=
      fun p u h => handSet_closed p false false (s := setPipe p _ (onSlots (withdrawSlot p) u)) (by
        rw [filmOf_of_same (s := u) (by
          rw [same_setPipe (by decide) (by simp), same_onSlots (fun n v => by simp)]; exact Part.same_self _ _)]
        exact h)
    have left : (filmOf (onPipes withdrawPipe (onStreams detachStream (workLeft new cause s))) st).st = .closed :=
      onPipes_preserves (Q := fun u => (filmOf u st).st = .closed) withdrawn (streamsDetached_closed _ st)
    rw [screensLeft, onPipes_keeps (g := fun u => filmOf u st) (f := abandonRestarts) (fun _ _ => rfl)]
    exact left
  · have abandoned : ∀ (q : PipeId) (u : State), (pipeOf (abandonRestarts q u) p).active = (pipeOf u p).active := fun q u => by
      rw [abandonRestarts, pipeOf_setPipe]
      split
      · rename_i e; rw [e]
      · rfl
    refine nothingFetched_congr ?_ (pipesWithdrawn_active (onStreams detachStream (workLeft new cause s)) p)
    rw [pipeOf_of_same (same_exitEnded (x := .cmp) (by decide) (by decide) (by decide) (by decide) (by decide) new cause s), screensLeft,
      onPipes_keeps (g := fun u => (pipeOf u p).active) abandoned]

/-- R167: the interface's own record after an exit from ATTACHED: as WAI leaves it, but for notices. -/
theorem exitAttached_wai {new : AttachState} (h : new ≠ .attached) (cause : AttachCause) (s : State) :
    (exitAttached new cause s).fen.window = none ∧
    ∃ xs, (exitAttached new cause s).wai = { waiExit new cause s.wai with slots := xs } := by
  have withdrawn : ∀ (p : PipeId) (u : State), Hushed u (withdrawPipe p u) := fun p u => by
    have stopped : (onSlots (withdrawSlot p) u).wai = u.wai :=
      (same_onSlots (p := .wai) (s := u) (fun n v => (same_withdrawSlot (by decide) (by decide)).2 (Part.same_self _ v))).2 rfl
    rw [withdrawPipe]
    exact (hushed_handSet p false false _).from_wai stopped
  have detached : (onStreams detachStream (workLeft new cause s)).wai = (workLeft new cause s).wai :=
    (same_onStreams (p := .wai) (fun st v => (same_detachStream (by decide) (by decide)).2 (Part.same_self _ v))).2 rfl
  have screens : Hushed (workLeft new cause s) (screensLeft new cause s) := by
    rw [screensLeft]
    refine onPipes_preserves (Q := Hushed (workLeft new cause s)) (f := abandonRestarts) (fun p u h => h.trans (hushed_of_wai rfl)) ?_
    exact onPipes_preserves (Q := Hushed (workLeft new cause s)) (fun p u h => h.trans (withdrawn p u)) (hushed_of_wai detached)
  have sounds : (onSounds abandonLoad (screensLeft new cause s)).wai = (screensLeft new cause s).wai :=
    (same_onSounds (p := .wai) (fun n v => (same_abandonLoad (by decide) (by decide) (by decide)).2 (Part.same_self _ v))).2 rfl
  have read : ∀ v : State, (abandonRead v).wai = v.wai := fun v => (same_abandonRead (p := .wai) (by decide) (by decide)).2 rfl
  have whole : Hushed (workLeft new cause s) (exitAttached new cause s) := by
    rw [exitAttached_eq]
    exact screens.trans ((hushed_of_wai sounds).trans ((hushed_abandonWrite _).trans (hushed_of_wai (read _))))
  have link : Part.link.same (workLeft new cause s) (exitAttached new cause s) :=
    Part.same_trans (same_screensLeft (by decide) (by decide) (by decide) (by decide) new cause s)
      (same_exitEnded (by decide) (by decide) (by decide) (by decide) (by decide) new cause s)
  obtain ⟨-, -, -, -, -, window⟩ := link
  exact ⟨window, whole rfl (by cases new <;> simp_all [boardLive, workLeft, waiExit, stopWork])⟩

end Exit
/-! ## Units and their places (R146, R150, R153, R154) -/

section Units
variable {f : Fen} {s : State} {c : ChanId} {u v x y : FetchUnit} {us : List FetchUnit} {place n : Nat} {data : List Byte}

theorem unitAt_eq (f : Fen) (place : Nat) : unitAt f place = f.units.find? (isAt place) := rfl

theorem unitAt_mem (h : unitAt f place = some u) : u ∈ f.units ∧ isAt place u = true :=
  ⟨List.mem_of_find?_eq_some h, List.find?_some h⟩

theorem unitAt_eq_none (h : ∀ x ∈ f.units, isAt place x = false) : unitAt f place = none := by
  rw [unitAt_eq, List.find?_eq_none]
  exact fun x m => by simp [h x m]

theorem not_mem_placesUsed (h : ∀ x ∈ f.units, isAt place x = false) : place ∉ placesUsed f := by
  intro m
  obtain ⟨x, k, e⟩ := List.mem_map.1 m
  obtain ⟨mem, keeps⟩ := List.mem_filter.1 k
  have free := h x mem
  simp_all [isAt]

/-- R146: the unit in a place is the only one there. -/
theorem eq_of_isAt (ok : placesOk f = true) (hx : x ∈ f.units) (hy : y ∈ f.units) (ax : isAt place x = true) (ay : isAt place y = true) :
    x = y := by
  have distinct : (placesUsed f).Nodup := by simp_all [placesOk]
  simp only [isAt, Bool.and_eq_true, beq_iff_eq] at ax ay
  exact List.inj_on_of_nodup_map distinct (List.mem_filter.2 ⟨hx, ax.1⟩) (List.mem_filter.2 ⟨hy, ay.1⟩) (ax.2.trans ay.2.symm)

theorem live_of_flying (h : u.phase = .inFlight) : u.live = true := by simp [FetchUnit.live, h]

theorem isLiveOf_self (h : u.live = true) : isLiveOf u.chan u = true := by simp [isLiveOf, h]

theorem isAt_of_held {d : List Byte} (h : u.phase = .held d) : isAt place u = false := by simp [isAt, FetchUnit.keepsPlace, h]

/-- The unit in a place takes another phase. -/
def rephased (place : Nat) (ph : UnitPhase) (u : FetchUnit) : FetchUnit := if isAt place u then { u with phase := ph } else u

theorem rephase_eq (place : Nat) (ph : UnitPhase) (s : State) :
    rephase place ph s = s.setFen { s.fen with units := s.fen.units.map (rephased place ph) } := rfl

theorem rephased_of_isAt (h : isAt place u = true) (ph : UnitPhase) : rephased place ph u = { u with phase := ph } := if_pos h
theorem rephased_of_not_isAt (h : isAt place u = false) (ph : UnitPhase) : rephased place ph u = u := by simp [rephased, h]

theorem rephased_chan (place : Nat) (ph : UnitPhase) (u : FetchUnit) : (rephased place ph u).chan = u.chan := by
  unfold rephased; split <;> rfl
theorem rephased_discard (place : Nat) (ph : UnitPhase) (u : FetchUnit) : (rephased place ph u).discard = u.discard := by
  unfold rephased; split <;> rfl

/-- R150: a unit that is held keeps no place. -/
theorem isAt_rephased_held (d : List Byte) (u : FetchUnit) : isAt place (rephased place (.held d) u) = false := by
  by_cases h : isAt place u = true
  · rw [rephased_of_isAt h]; exact isAt_of_held rfl
  · rw [rephased_of_not_isAt (by simpa using h)]; simpa using h

/-- R150: the units that a channel still awaits or holds, after the completion of its unit in flight in a place. -/
theorem liveUnits_rephased (ok : placesOk f = true) (unit : unitAt f place = some u) (flying : u.phase = .inFlight) (d : List Byte)
    (c : ChanId) : (f.units.map (rephased place (.held d))).filter (isLiveOf c) = (f.units.filter (isLiveOf c)).map (rephased place (.held d)) := by
  obtain ⟨mem, at_⟩ := unitAt_mem unit
  rw [List.filter_map]
  congr 1
  refine List.filter_congr fun x hx => ?_
  by_cases h : isAt place x = true
  · rw [eq_of_isAt ok hx mem h at_, Function.comp, rephased_of_isAt at_]
    simp [isLiveOf, FetchUnit.live, flying]
  · rw [Function.comp, rephased_of_not_isAt (by simpa using h)]

theorem filter_eraseP {α : Type} (p : α → Bool) (l : List α) : (l.eraseP p).filter p = (l.filter p).tail := by
  induction l with
  | nil => rfl
  | cons a l ih =>
    rw [List.eraseP_cons]
    cases h : p a <;> simp [h, ih]

/-! ### Handing over in address order (R150) -/

theorem drain_of_none (h : s.fen.units.filter (isLiveOf c) = []) (n : Nat) : drain n c s = s := by
  cases n with
  | zero => rfl
  | succ n => rw [drain, ← List.head?_filter, h]; rfl

theorem drain_of_flying (h : s.fen.units.find? (isLiveOf c) = some v) (flying : v.phase = .inFlight) (n : Nat) : drain n c s = s := by
  cases n with
  | zero => rfl
  | succ n => rw [drain, h]; simp only [flying]

theorem drain_of_held {rest : List FetchUnit} (h : s.fen.units.filter (isLiveOf c) = v :: rest) (held : v.phase = .held data) (n : Nat) :
    drain (n + 1) c s = drain n c (handData c v.discard data (s.setFen { s.fen with units := s.fen.units.eraseP (isLiveOf c) })) := by
  rw [drain, ← List.head?_filter, h]
  simp only [List.head?_cons, held, dropFirst_eq_eraseP]

theorem fitBytes_of_length (h : data.length = n) : fitBytes n data = data := by
  simp [fitBytes, ← h]

theorem completion_of_good (unit : unitAt s.fen place = some u) (flying : u.phase = .inFlight) (len : data.length = u.len) :
    completion place true data s = drain 16 u.chan (rephase place (.held data) s) := by
  rw [completion, unit]
  simp only [flying, if_true, fitBytes_of_length len]

theorem completion_of_failed (unit : unitAt s.fen place = some u) (flying : u.phase = .inFlight) :
    completion place false data s = failChannel u.chan u.addr u.discard (removeUnit place s) := by
  rw [completion, unit]
  simp [flying]

theorem exec_readCompletion (place : Nat) (ok : Bool) (data : List Byte) (s : State) :
    exec (.readCompletion place ok data) s = .next (settle (completion place ok data s)) := rfl

theorem exec_unitTimeout (place : Nat) (s : State) : exec (.unitTimeout place) s = .next (settle (unitTimedOut place s)) := rfl

/-- No unit that a channel awaits or holds is left, and a place is free. -/
def HandedOver (c : ChanId) (place : Nat) (us : List FetchUnit) : Prop := ∀ x ∈ us, isLiveOf c x = false ∧ isAt place x = false

theorem HandedOver.live (h : HandedOver c place us) : us.filter (isLiveOf c) = [] :=
  List.filter_eq_nil_iff.2 fun x m => by simp [h x m]

theorem HandedOver.free (h : HandedOver c place f.units) : unitAt f place = none := unitAt_eq_none fun x m => (h x m).2

/-- R153: what became of each unit that is left when a channel's units are cut off. -/
theorem mem_orphanUnits (h : y ∈ orphanUnits c us) : ∃ x ∈ us, y.chan = x.chan ∧ y.discard = x.discard ∧
    (∀ n, isAt n y = isAt n x) ∧ ∀ d, isLiveOf d y = true → isLiveOf d x = true := by
  obtain ⟨x, m, e⟩ := List.mem_map.1 h
  refine ⟨x, (List.mem_filter.1 m).1, ?_⟩
  rw [← e]
  split
  · rename_i k
    exact ⟨rfl, rfl, fun n => by simp [isAt, FetchUnit.keepsPlace, k.2], fun d l => by simp [isLiveOf, FetchUnit.live] at l⟩
  · exact ⟨rfl, rfl, fun _ => rfl, fun _ l => l⟩

theorem HandedOver.orphan (h : HandedOver c place us) (d : ChanId) : HandedOver c place (orphanUnits d us) := fun y m => by
  obtain ⟨x, mx, -, -, places, live⟩ := mem_orphanUnits m
  obtain ⟨dead, free⟩ := h x mx
  exact ⟨by by_contra l; simp [live c (by simpa using l)] at dead, (places place).trans free⟩

/-- R150: the completion of the only unit that a channel awaits is handed over, where the handing brings the channel no other one. -/
theorem completion_of_sole (sole : soleUnit s place u) (len : data.length = u.len) : ∃ us, HandedOver u.chan place us ∧
    (HandedOver u.chan place (handData u.chan u.discard data (s.setFen { s.fen with units := us })).fen.units →
      completion place true data s = handData u.chan u.discard data (s.setFen { s.fen with units := us })) := by
  obtain ⟨ok, unit, flying, one⟩ := sole
  obtain ⟨mem, at_⟩ := unitAt_mem unit
  have lives : s.fen.units.filter (isLiveOf u.chan) = [u] := by
    have mine : u ∈ s.fen.units.filter (isLiveOf u.chan) := List.mem_filter.2 ⟨mem, isLiveOf_self (live_of_flying flying)⟩
    rw [List.countP_eq_length_filter] at one
    obtain ⟨w, e⟩ := List.length_eq_one_iff.1 one
    rw [e] at mine ⊢
    rw [List.mem_singleton.1 mine]
  have held : (rephase place (.held data) s).fen.units.filter (isLiveOf u.chan) = [{ u with phase := .held data }] := by
    rw [rephase_eq, State.setFen_fen, liveUnits_rephased ok unit flying, lives, List.map_singleton, rephased_of_isAt at_]
  refine ⟨(s.fen.units.map (rephased place (.held data))).eraseP (isLiveOf u.chan), fun x m => ⟨?_, ?_⟩, fun k => ?_⟩
  · have gone := filter_eraseP (isLiveOf u.chan) (s.fen.units.map (rephased place (.held data)))
    rw [show (s.fen.units.map (rephased place (.held data))).filter (isLiveOf u.chan) = _ from held] at gone
    simpa using List.filter_eq_nil_iff.1 gone x m
  · obtain ⟨w, -, rfl⟩ := List.mem_map.1 (List.mem_of_mem_eraseP m)
    exact isAt_rephased_held data w
  · rw [completion_of_good unit flying len, drain_of_held held rfl]
    exact drain_of_none k.live 15

/-! ### Channels after their replacement -/

theorem settle_units (s : State) : (settle s).fen.units = s.fen.units := by rw [settle_fen]

theorem channelOf_settle (h : c ≠ .work) (s : State) : channelOf (settle s).fen c = channelOf s.fen c := by
  rw [settle_fen]
  cases c with
  | work => exact absurd rfl h
  | _ => rfl

/-- R144: a plane reader takes its new record where the reader stands. -/
theorem channelOf_setChannel_plane {p : PipeId} {slot : Nat} (h : slot < (f.planes.get p).length) (x : Channel) :
    channelOf (setChannel f (.plane p slot) x) (.plane p slot) = x := by
  rw [channelOf, setChannel, PerPipe.get_set, if_pos rfl, nth_set, if_pos ⟨rfl, h⟩]

theorem planeReader_stands {p : PipeId} {slot : Nat} (h : (channelOf f (.plane p slot)).toMove ≠ []) : slot < (f.planes.get p).length := by
  by_contra out
  rw [channelOf, nth, List.getElem?_eq_none (by omega)] at h
  exact h rfl

/-- A stopped reader is idle, whether or not it stands. -/
theorem channelOf_setChannel_plane_idle (f : Fen) (p : PipeId) (slot : Nat) :
    channelOf (setChannel f (.plane p slot) idleChannel) (.plane p slot) = idleChannel := by
  rw [channelOf, setChannel, PerPipe.get_set, if_pos rfl, nth_set]
  split
  · rfl
  · rename_i out
    rw [nth, List.getElem?_eq_none (by omega)]; rfl

end Units
/-! ## What a completion hands over (R91, R104, R145, R149, R150, R190) -/

section PlaneUnits
variable {s t : State} {p : PipeId} {slot place n : Nat} {u : FetchUnit} {r : Range} {q : Plane} {data : List Byte} {us : List FetchUnit}

theorem readerOf_setReader (h : slot < (pipeOf s p).readers.length) (x : SlotReader) :
    readerOf (pipeOf (setReader p slot x s) p) slot = x := by
  rw [setReader, pipeOf_setPipe, if_pos rfl, readerOf, nth_set, if_pos ⟨rfl, h⟩]

theorem length_readers_setReader (x : SlotReader) : (pipeOf (setReader p slot x s) p).readers.length = (pipeOf s p).readers.length := by
  rw [setReader, pipeOf_setPipe, if_pos rfl, List.length_set]

theorem planeOf_setReader (x : SlotReader) : planeOf (pipeOf (setReader p slot x s) p) n = planeOf (pipeOf s p) n := by
  rw [setReader, pipeOf_setPipe, if_pos rfl]; rfl

theorem latchedFrame_of_film (h : t.flm = s.flm) (p : PipeId) (q : Plane) : latchedFrame t p q = latchedFrame s p q := by
  unfold latchedFrame
  cases q.kind.film with
  | none => rfl
  | some st => simp only [filmOf, h]

theorem filmShape_of_film (h : t.flm = s.flm) (q : Plane) : filmShape t q = filmShape s q := by
  unfold filmShape
  cases q.kind.film with
  | none => rfl
  | some st => simp only [filmOf, h]

theorem sourceSize_of_film (h : t.flm = s.flm) (p : PipeId) (q : Plane) : sourceSize t p q = sourceSize s p q := by
  unfold sourceSize
  rw [latchedFrame_of_film h, filmShape_of_film h]

theorem lineRanges_of_film (h : t.flm = s.flm) (p : PipeId) (q : Plane) (row : Nat) : lineRanges t p q row = lineRanges s p q row := by
  unfold lineRanges
  rw [sourceSize_of_film h, latchedFrame_of_film h, filmShape_of_film h]

/-- R145: a reader has room for its next line, and a line is left. -/
def mayFetch (s : State) (p : PipeId) (q : Plane) (x : SlotReader) : Prop :=
  x.fetched = true ∧ ¬ x.busy = true ∧ x.lines.length < 2 ∧ x.next < (sourceSize s p q).2

theorem handLine_of_mayFetch (plane : planeOf (pipeOf s p) slot = some q) (h : mayFetch s p q (readerOf (pipeOf s p) slot)) :
    handLine p slot s = startChannel (.plane p slot) (lineRanges s p q (readerOf (pipeOf s p) slot).next)
      (setReader p slot { readerOf (pipeOf s p) slot with
        busy := true, lumaLen := lumaBytes (lineRanges s p q (readerOf (pipeOf s p) slot).next), got := [] } s) := by
  simp only [handLine, plane]
  exact if_pos h

theorem handLine_of_not_mayFetch (plane : planeOf (pipeOf s p) slot = some q) (h : ¬ mayFetch s p q (readerOf (pipeOf s p) slot)) :
    handLine p slot s = s := by
  simp only [handLine, plane]
  exact if_neg h

/-- R91, R145: a reader whose line is whole: the line is held unless it is late, and the next one's turn comes. -/
def lineHeld (q : Plane) (outLine : Nat) (x : SlotReader) : SlotReader :=
  let chroma := if x.lumaLen < x.got.length then x.got.drop x.lumaLen else x.chroma
  { x with
    next := x.next + 1
    busy := false
    got := []
    chroma := chroma
    lines := if q.y + x.next < outLine then x.lines else x.lines ++ [⟨x.next, x.got.take x.lumaLen, chroma⟩] }

theorem lineDone_of_busy (plane : planeOf (pipeOf s p) slot = some q) (busy : (readerOf (pipeOf s p) slot).busy = true) :
    lineDone p slot s = handLine p slot (setReader p slot (lineHeld q (pipeOf s p).outLine (readerOf (pipeOf s p) slot)) s) := by
  simp only [lineDone, plane, busy, if_true, lineHeld, decide_eq_true_eq]

/-- The state in which the bytes of a plane's unit have joined its line, and its channel has moved to `x`. -/
def lineJoined (p : PipeId) (slot : Nat) (data : List Byte) (x : Channel) (s : State) : State :=
  setReader p slot { readerOf (pipeOf s p) slot with got := (readerOf (pipeOf s p) slot).got ++ data }
    (s.setFen (setChannel s.fen (.plane p slot) x))

theorem handData_plane (busy : (readerOf (pipeOf s p) slot).busy = true) (discard : Bool) :
    handData (.plane p slot) discard data s =
      if ((channelOf s.fen (.plane p slot)).moved data.length).toMove.isEmpty then
        lineDone p slot (lineJoined p slot data ((channelOf s.fen (.plane p slot)).moved data.length) s)
      else lineJoined p slot data ((channelOf s.fen (.plane p slot)).moved data.length) s := by
  have joined : ∀ x, lineBytes p slot data (s.setFen (setChannel s.fen (.plane p slot) x)) = lineJoined p slot data x s := fun x => by
    rw [lineBytes]
    exact if_pos busy
  simp only [handData, joined]

theorem lineJoined_units (x : Channel) : (lineJoined p slot data x s).fen.units = s.fen.units := setChannel_units _ _ _

theorem HandedOver.startChannel {c d : ChanId} {rs : List Range} (h : HandedOver c place s.fen.units) :
    HandedOver c place (startChannel d rs s).fen.units := by
  have units : (Machine.startChannel d rs s).fen.units = orphanUnits d s.fen.units := setChannel_units _ _ _
  rw [units]
  exact h.orphan d

/-- R145: a unit inside a plane's line. -/
theorem planeUnit_joins (sole : soleUnit s place u) (len : data.length = u.len) (toMove : (channelOf s.fen u.chan).toMove = [r])
    (chan : u.chan = .plane p slot) (reads : slot < (pipeOf s p).readers.length) (busy : (readerOf (pipeOf s p) slot).busy = true)
    (inside : u.len < r.len) :
    ∃ t, exec (.readCompletion place true data) s = .next t ∧ unitAt t.fen place = none ∧
      readerOf (pipeOf t p) slot = { readerOf (pipeOf s p) slot with got := (readerOf (pipeOf s p) slot).got ++ data } ∧
      channelOf t.fen u.chan = { channelOf s.fen u.chan with toMove := [⟨r.addr + u.len, r.len - u.len⟩] } := by
  obtain ⟨us, handed, whole⟩ := completion_of_sole sole len
  rw [chan] at toMove handed whole ⊢
  generalize hv : s.setFen { s.fen with units := us } = v at whole
  have channel : channelOf v.fen (.plane p slot) = channelOf s.fen (.plane p slot) := by rw [← hv]; rfl
  have pipe : pipeOf v p = pipeOf s p := by rw [← hv]; rfl
  have units : v.fen.units = us := by rw [← hv]; rfl
  have stands : slot < (v.fen.planes.get p).length := planeReader_stands (by rw [channel, toMove]; simp)
  have moved := moved_of_lt (c := channelOf v.fen (.plane p slot)) (n := data.length) (by rw [channel]; exact toMove) (by omega)
  rw [handData_plane (by rw [pipe]; exact busy), moved] at whole
  simp only [List.isEmpty_cons, Bool.false_eq_true, if_false] at whole
  refine ⟨_, exec_readCompletion place true data s, ?_⟩
  rw [whole (by rw [lineJoined_units, units]; exact handed), channelOf_settle (by simp), pipeOf_settle]
  refine ⟨(HandedOver.free (c := .plane p slot) (by rw [settle_units, lineJoined_units, units]; exact handed)), ?_, ?_⟩
  · rw [lineJoined, readerOf_setReader (by rw [pipeOf_setFen, pipe]; exact reads), pipe]
  · rw [← len, ← channel]
    exact channelOf_setChannel_plane stands _

/-- R91, R145: the last unit of a plane's line. -/
theorem planeUnit_ends (sole : soleUnit s place u) (len : data.length = u.len) (toMove : (channelOf s.fen u.chan).toMove = [r])
    (chan : u.chan = .plane p slot) (reads : slot < (pipeOf s p).readers.length) (plane : planeOf (pipeOf s p) slot = some q)
    (busy : (readerOf (pipeOf s p) slot).busy = true) (last : u.len = r.len) :
    let x := readerOf (pipeOf s p) slot
    let y := lineHeld q (pipeOf s p).outLine { x with got := x.got ++ data }
    ∃ t, exec (.readCompletion place true data) s = .next t ∧ unitAt t.fen place = none ∧
      (readerOf (pipeOf t p) slot).next = y.next ∧ (readerOf (pipeOf t p) slot).got = [] ∧
      (readerOf (pipeOf t p) slot).lines = y.lines ∧
      channelOf t.fen u.chan = (if y.fetched = true ∧ y.lines.length < 2 ∧ y.next < (sourceSize s p q).2 then
        Channel.started (lineRanges s p q y.next) else idleChannel) := by
  intro x y
  obtain ⟨us, handed, whole⟩ := completion_of_sole sole len
  rw [chan] at toMove handed whole ⊢
  generalize hv : s.setFen { s.fen with units := us } = v at whole
  have channel : channelOf v.fen (.plane p slot) = channelOf s.fen (.plane p slot) := by rw [← hv]; rfl
  have pipe : pipeOf v p = pipeOf s p := by rw [← hv]; rfl
  have stands : slot < (v.fen.planes.get p).length := planeReader_stands (by rw [channel, toMove]; simp)
  have moved := moved_of_le (c := channelOf v.fen (.plane p slot)) (n := data.length) (by rw [channel]; exact toMove) (by omega)
  rw [handData_plane (by rw [pipe]; exact busy), moved] at whole
  simp only [idleChannel, List.isEmpty_nil, if_true] at whole
  -- the line is held, and the reader waits for its next one
  generalize hw : lineJoined p slot data _ v = w at whole
  have reader : readerOf (pipeOf w p) slot = { x with got := x.got ++ data } := by
    rw [← hw, lineJoined, readerOf_setReader (by rw [pipeOf_setFen, pipe]; exact reads), pipe]
  have shown : planeOf (pipeOf w p) slot = some q := by rw [← hw, lineJoined, planeOf_setReader, pipeOf_setFen, pipe]; exact plane
  have outLine : (pipeOf w p).outLine = (pipeOf s p).outLine := by
    rw [← hw, lineJoined, setReader, pipeOf_setPipe, if_pos rfl, pipeOf_setFen, pipe]
  have room : slot < (pipeOf w p).readers.length := by rw [← hw, lineJoined, length_readers_setReader, pipeOf_setFen, pipe]; exact reads
  rw [lineDone_of_busy shown (by rw [reader]; exact busy), reader, outLine] at whole
  generalize hz : setReader p slot y w = z at whole
  have ready : readerOf (pipeOf z p) slot = y := by rw [← hz, readerOf_setReader room]
  have stays : planeOf (pipeOf z p) slot = some q := by rw [← hz, planeOf_setReader]; exact shown
  have idle : channelOf z.fen (.plane p slot) = idleChannel := by
    rw [← hz, ← hw]; exact channelOf_setChannel_plane stands _
  have units : HandedOver (.plane p slot) place z.fen.units := by
    rw [← hz, ← hw]
    show HandedOver _ _ (lineJoined p slot data _ v).fen.units
    rw [lineJoined_units, ← hv]
    exact handed
  have flm : z.flm = s.flm := by rw [← hz, ← hw, ← hv]; rfl
  have size := sourceSize_of_film flm p q
  have ranges := lineRanges_of_film flm p q y.next
  have fetch : mayFetch z p q (readerOf (pipeOf z p) slot) ↔ y.fetched = true ∧ y.lines.length < 2 ∧ y.next < (sourceSize s p q).2 := by
    rw [mayFetch, ready, size]
    simp [y, lineHeld]
  have again : slot < (z.fen.planes.get p).length := by
    rw [← hz, ← hw]
    show slot < ((v.fen.planes.set p _).get p).length
    rw [PerPipe.get_set, if_pos rfl, List.length_set]
    exact stands
  refine ⟨_, exec_readCompletion place true data s, ?_⟩
  by_cases more : mayFetch z p q (readerOf (pipeOf z p) slot)
  · have handed' := units.startChannel (d := .plane p slot) (rs := lineRanges s p q y.next)
    rw [handLine_of_mayFetch stays more, ready, ranges] at whole
    rw [whole handed', channelOf_settle (by simp), pipeOf_settle, if_pos (fetch.1 more)]
    refine ⟨HandedOver.free (c := .plane p slot) (by rw [settle_units]; exact handed'), ?_⟩
    rw [pipeOf_startChannel, readerOf_setReader (by rw [← hz, length_readers_setReader]; exact room)]
    exact ⟨rfl, rfl, rfl, channelOf_setChannel_plane again _⟩
  · rw [handLine_of_not_mayFetch stays more] at whole
    rw [whole units, channelOf_settle (by simp), pipeOf_settle, if_neg (fun h => more (fetch.2 h)), ready]
    exact ⟨HandedOver.free (c := .plane p slot) (by rw [settle_units]; exact units), rfl, rfl, rfl, idle⟩

end PlaneUnits
/-! ## The units of an audio reader (R104, R107, R108) -/

section AudioUnits
variable {s t u : State} {st : StreamId} {c : ChanId} {place : Nat} {b : AudioBuf} {rest : List AudioBuf} {data : List Byte} {disc : Bool}

/-- A stream's audio record but for what the start of its reader and the retirement of discarded buffers move. -/
def FilmAudio.sound (a : FilmAudio) : FilmAudio := { a with reading := none, discarded := [], lastRetired := 0, playedSince := false }

/-- What follows an audio unit keeps of a stream: its sound, its frames, and the last retired token where no buffer is discarded. -/
structure SoundKept (st : StreamId) (s t : State) : Prop where
  sound : (filmOf t st).audio.sound = (filmOf s st).audio.sound
  frames : (filmOf t st).video.queue = (filmOf s st).video.queue
  retired : (filmOf s st).audio.discarded = [] →
    (filmOf t st).audio.discarded = [] ∧ (filmOf t st).audio.lastRetired = (filmOf s st).audio.lastRetired

theorem SoundKept.trans (h : SoundKept st s t) (k : SoundKept st t u) : SoundKept st s u where
  sound := k.sound.trans h.sound
  frames := k.frames.trans h.frames
  retired d := by
    obtain ⟨d', e⟩ := h.retired d
    obtain ⟨d'', e'⟩ := k.retired d'
    exact ⟨d'', e'.trans e⟩

theorem soundKept_of_film (h : filmOf t st = filmOf s st) : SoundKept st s t where
  sound := by rw [h]
  frames := by rw [h]
  retired d := by rw [h]; exact ⟨d, rfl⟩

theorem SoundKept.audio_eq (h : SoundKept st s t) :
    (filmOf t st).audio.staging = (filmOf s st).audio.staging ∧ (filmOf t st).audio.queue = (filmOf s st).audio.queue ∧
    (filmOf t st).audio.errors = (filmOf s st).audio.errors ∧ (filmOf t st).audio.underrun = (filmOf s st).audio.underrun ∧
    (filmOf t st).audio.lastError = (filmOf s st).audio.lastError :=
  ⟨(congrArg FilmAudio.staging h.sound :), (congrArg FilmAudio.queue h.sound :), (congrArg FilmAudio.errors h.sound :),
    (congrArg FilmAudio.underrun h.sound :), (congrArg FilmAudio.lastError h.sound :)⟩

@[simp] theorem filmOf_setAudio (st : StreamId) (a : FilmAudio) (s : State) :
    filmOf (setAudio st a s) st = { filmOf s st with audio := a } := by
  rw [setAudio, filmOf_setFilm, if_pos rfl]

/-- R109, R111: of a stream's sound, the end of a flush or of a close moves only R106's count from the flush. -/
theorem examineStream_film (st : StreamId) (s : State) : (filmOf (examineStream st s) st).video = (filmOf s st).video ∧
    ∃ played, (filmOf (examineStream st s) st).audio = { (filmOf s st).audio with playedSince := played } := by
  have flushed : (filmOf (completeFlush st s) st).video = (filmOf s st).video ∧
      ∃ played, (filmOf (completeFlush st s) st).audio = { (filmOf s st).audio with playedSince := played } := by
    unfold completeFlush
    simp only
    split
    · exact ⟨rfl, _, rfl⟩
    · rw [filmOf_completeRequest, filmOf_setFilm, if_pos rfl]; exact ⟨rfl, false, rfl⟩
  have closed : (filmOf (completeClose st s) st).video = (filmOf s st).video ∧
      ∃ played, (filmOf (completeClose st s) st).audio = { (filmOf s st).audio with playedSince := played } := by
    unfold completeClose
    simp only
    split
    · exact ⟨rfl, _, rfl⟩
    · rw [filmOf_completeRequest, filmOf_setFilm, if_pos rfl]; exact flushed
  unfold examineStream
  simp only
  repeat' split
  · exact closed
  · exact ⟨rfl, _, rfl⟩
  · exact flushed
  · exact ⟨rfl, _, rfl⟩

@[simp] theorem examineStream_fen (st : StreamId) (s : State) : (examineStream st s).fen = s.fen :=
  (same_examineStream (p := .fen) (by decide) (by decide)).2 rfl

theorem examineStream_soundKept (st : StreamId) (s : State) : SoundKept st s (examineStream st s) := by
  obtain ⟨video, played, audio⟩ := examineStream_film st s
  exact ⟨by rw [audio]; rfl, by rw [video], fun d => by rw [audio]; exact ⟨d, rfl⟩⟩

/-- The state in which a stream's reader is started on a buffer. -/
def readerStarted (st : StreamId) (b : AudioBuf) (s : State) : State :=
  startChannel (.audio st) [⟨b.addr.toNat + 4 * b.off, 4 * (b.len - b.off)⟩]
    (setAudio st { (filmOf s st).audio with reading := some b.token } s)

theorem startReader_cases (st : StreamId) (s : State) :
    startReader st s = s ∨ ∃ b, startReader st s = readerStarted st b s := by
  unfold startReader
  simp only
  split
  · exact .inl rfl
  · rename_i b _ _
    exact (ite_eq_or_eq _ _ _).elim (fun e => .inr ⟨b, e⟩) .inl

theorem startReader_of_idle (h : (filmOf s st).audio.queue = [] ∨ (filmOf s st).st ≠ .opened) : startReader st s = s := by
  unfold startReader
  simp only
  split
  · rfl
  · rename_i b more e
    exact if_neg fun k => h.elim (fun h => by simp [h] at e) (fun h => h k.1)

/-- R107: after an error the reader is started on the buffer that has become the head of the queue. -/
theorem startReader_of_error (queue : (filmOf s st).audio.queue = b :: rest) (opened : (filmOf s st).st = .opened)
    (quiet : discardFlying s st = false) (error : (s.fen.audio.get st).st = .error) : startReader st s = readerStarted st b s := by
  unfold startReader
  simp only [queue]
  rw [if_pos ⟨opened, by simp [quiet], .inr (.inl error)⟩, ← queue]
  rfl

theorem filmOf_readerStarted (st : StreamId) (b : AudioBuf) (s : State) :
    filmOf (readerStarted st b s) st = { filmOf s st with audio := { (filmOf s st).audio with reading := some b.token } } :=
  filmOf_setAudio st _ s

theorem startReader_soundKept (st : StreamId) (s : State) : SoundKept st s (startReader st s) := by
  rcases startReader_cases st s with e | ⟨b, e⟩ <;> rw [e]
  · exact soundKept_of_film rfl
  · exact ⟨by rw [filmOf_readerStarted]; rfl, by rw [filmOf_readerStarted], fun d => by rw [filmOf_readerStarted]; exact ⟨d, rfl⟩⟩

theorem retireDiscarded_soundKept (st : StreamId) (s : State) : SoundKept st s (retireDiscarded st s) := by
  unfold retireDiscarded
  simp only
  split
  · exact soundKept_of_film rfl
  · refine ⟨by rw [filmOf_setAudio]; rfl, by rw [filmOf_setAudio], fun d => ?_⟩
    rw [filmOf_setAudio, d]; exact ⟨rfl, rfl⟩

@[simp] theorem retireDiscarded_fen (st : StreamId) (s : State) : (retireDiscarded st s).fen = s.fen :=
  (same_retireDiscarded (p := .fen) (by decide)).2 rfl

theorem retireDiscarded_st (st : StreamId) (s : State) : (filmOf (retireDiscarded st s) st).st = (filmOf s st).st := by
  unfold retireDiscarded
  simp only
  split
  · rfl
  · rw [filmOf_setAudio]

theorem afterAudioUnit_soundKept (st : StreamId) (s : State) : SoundKept st s (afterAudioUnit st s) :=
  (retireDiscarded_soundKept st s).trans ((startReader_soundKept st _).trans (examineStream_soundKept st _))

theorem HandedOver.afterAudioUnit (h : HandedOver c place s.fen.units) (st : StreamId) :
    HandedOver c place (afterAudioUnit st s).fen.units := by
  rw [Machine.afterAudioUnit, examineStream_fen]
  rcases startReader_cases st (retireDiscarded st s) with e | ⟨b, e⟩ <;> rw [e]
  · rw [retireDiscarded_fen]; exact h
  · refine HandedOver.startChannel ?_
    show HandedOver c place (retireDiscarded st s).fen.units
    rw [retireDiscarded_fen]; exact h

theorem handData_audio (st : StreamId) (disc : Bool) (data : List Byte) (s : State) : ∃ x, handData (.audio st) disc data s =
    afterAudioUnit st (if disc then s.setFen (setChannel s.fen (.audio st) x)
      else setAudio st (takeSamples data (filmOf s st).audio) (s.setFen (setChannel s.fen (.audio st) x))) := by
  refine ⟨(channelOf s.fen (.audio st)).moved data.length, ?_⟩
  rw [handData, audioUnitDone]
  cases disc <;> rfl

/-- R104: the unit that holds a buffer's last sample frame retires the buffer. -/
theorem takeSamples_of_cons {a : FilmAudio} (h : a.queue = b :: rest) : (takeSamples data a).staging = a.staging ++ samplesOf data ∧
    (takeSamples data a).discarded = a.discarded ∧
    if b.len ≤ b.off + data.length / 4 then (takeSamples data a).queue = rest ∧ (takeSamples data a).lastRetired = b.token
    else (takeSamples data a).queue = { b with off := b.off + data.length / 4 } :: rest := by
  unfold takeSamples
  rw [h]
  simp only
  split
  · exact ⟨rfl, rfl, rfl, rfl⟩
  · exact ⟨rfl, rfl, rfl⟩

/-- R104, R108: the only unit of an audio reader. -/
theorem audioUnit_taken {u : FetchUnit} (sole : soleUnit s place u) (len : data.length = u.len) (chan : u.chan = .audio st)
    (queue : (filmOf s st).audio.queue = b :: rest) :
    ∃ t, exec (.readCompletion place true data) s = .next t ∧ unitAt t.fen place = none ∧
      (u.discard = true → (filmOf t st).audio.staging = (filmOf s st).audio.staging ∧ (filmOf t st).audio.queue = b :: rest) ∧
      (u.discard = false → (filmOf t st).audio.staging = (filmOf s st).audio.staging ++ samplesOf data ∧
        if b.len ≤ b.off + data.length / 4 then (filmOf t st).audio.queue = rest ∧
          ((filmOf s st).audio.discarded = [] → (filmOf t st).audio.lastRetired = b.token)
        else (filmOf t st).audio.queue = { b with off := b.off + data.length / 4 } :: rest) := by
  obtain ⟨us, handed, whole⟩ := completion_of_sole sole len
  rw [chan] at handed whole
  generalize hv : s.setFen { s.fen with units := us } = v at whole
  have film : filmOf v st = filmOf s st := by rw [← hv]; rfl
  have units : v.fen.units = us := by rw [← hv]; rfl
  obtain ⟨x, e⟩ := handData_audio st u.discard data v
  rw [e] at whole
  generalize hw : (if u.discard then v.setFen (setChannel v.fen (.audio st) x)
      else setAudio st (takeSamples data (filmOf v st).audio) (v.setFen (setChannel v.fen (.audio st) x))) = w at whole
  have left : HandedOver (.audio st) place (afterAudioUnit st w).fen.units := by
    refine HandedOver.afterAudioUnit ?_ st
    rw [show w.fen.units = us by rw [← hw, ← units]; split <;> rfl]
    exact handed
  rw [exec_readCompletion, whole left]
  have kept := (afterAudioUnit_soundKept st w).trans (soundKept_of_film (filmOf_settle (afterAudioUnit st w) st))
  obtain ⟨staging, frames, -⟩ := kept.audio_eq
  refine ⟨_, rfl, HandedOver.free (c := .audio st) (by rw [settle_units]; exact left), fun d => ?_, fun d => ?_⟩
  · have same : filmOf w st = filmOf s st := by rw [← hw, d, ← film]; rfl
    rw [staging, frames, same]
    exact ⟨rfl, queue⟩
  · have took : (filmOf w st).audio = takeSamples data (filmOf s st).audio := by
      rw [← hw, d, ← film]; exact congrArg Film.audio (filmOf_setAudio st _ _)
    obtain ⟨joined, discarded, ended⟩ := takeSamples_of_cons (data := data) queue
    rw [staging, frames, took, joined]
    refine ⟨rfl, ?_⟩
    split <;> rename_i last
    · rw [if_pos last] at ended
      refine ⟨ended.1, fun empty => ?_⟩
      rw [(kept.retired (by rw [took, discarded, empty])).2, took, ended.2]
    · rw [if_neg last] at ended
      exact ended

end AudioUnits
/-! ## The units of BULK's copies (R139, R149, R190) -/

section BulkUnits
variable {s t u : State} {id : BulkId} {c : ChanId} {place n k : Nat} {r : Range} {data : List Byte} {disc : Bool} {x : Channel}
variable {l : List BulkItem}

theorem bulkChannel_absent (h : ∀ b ∈ l, b.id ≠ id) : bulkChannel l id = idleChannel := by
  rw [bulkChannel, List.find?_eq_none.2 fun b m => by simp [h b m]]

theorem bulkChannel_map (h : ∃ b ∈ l, b.id = id) :
    bulkChannel (l.map fun b => if b.id = id then { b with chan := x } else b) id = x := by
  induction l with
  | nil => obtain ⟨b, m, _⟩ := h; exact absurd m List.not_mem_nil
  | cons b l ih =>
    by_cases e : b.id = id
    · simp [bulkChannel, e]
    · have rest := ih (by simpa [e] using h)
      simpa [bulkChannel, e] using rest

/-- R149: a progress record of BULK advances where its transfer is listed. -/
theorem bulkChannel_advanced (l : List BulkItem) (id : BulkId) (n : Nat) :
    (bulkChannel (l.map fun b => if b.id = id then
      { b with chan := { bulkChannel l id with toMove := advance n (bulkChannel l id).toMove } } else b) id).toMove
      = advance n (bulkChannel l id).toMove := by
  by_cases h : ∃ b ∈ l, b.id = id
  · rw [bulkChannel_map h]
  · push Not at h
    have absent : ∀ b ∈ l.map fun b => if b.id = id then
        { b with chan := { bulkChannel l id with toMove := advance n (bulkChannel l id).toMove } } else b, b.id ≠ id := fun b m => by
      obtain ⟨a, ma, rfl⟩ := List.mem_map.1 m
      rw [if_neg (h a ma)]
      exact h a ma
    rw [bulkChannel_absent absent, bulkChannel_absent h]
    rfl

/-- The state in which a unit of a sound load has joined the data store. -/
def soundStored (n : Nat) (data : List Byte) (s : State) : State :=
  s.setFen { setChannel s.fen (.bulk (.sound n)) { channelOf s.fen (.bulk (.sound n)) with
      toMove := advance data.length (channelOf s.fen (.bulk (.sound n))).toMove } with
    store := s.fen.store ++ [(.sound n, data)] }

theorem handData_sound (n : Nat) (disc : Bool) (data : List Byte) (s : State) :
    handData (.bulk (.sound n)) disc data s = soundStored n data s := rfl

theorem soundStored_toMove (n : Nat) (data : List Byte) (s : State) :
    (bulkChannel (soundStored n data s).fen.bulk (.sound n)).toMove = advance data.length (bulkChannel s.fen.bulk (.sound n)).toMove :=
  bulkChannel_advanced s.fen.bulk (.sound n) data.length

/-- The state in which a unit that is not the last one of the settings copy has joined the staged image. -/
def imageStaged (data : List Byte) (s : State) : State :=
  (s.setSto { s.sto with staged := s.sto.staged ++ data }).setFen (setChannel s.fen (.bulk .settingsIn)
    { channelOf s.fen (.bulk .settingsIn) with toMove := advance data.length (channelOf s.fen (.bulk .settingsIn)).toMove })

theorem imageStaged_toMove (data : List Byte) (s : State) : (bulkChannel (imageStaged data s).fen.bulk .settingsIn).toMove
    = advance data.length (bulkChannel s.fen.bulk .settingsIn).toMove :=
  bulkChannel_advanced s.fen.bulk .settingsIn data.length

theorem handData_settingsIn_more (h : advance data.length (bulkChannel s.fen.bulk .settingsIn).toMove ≠ []) :
    handData (.bulk .settingsIn) disc data s = imageStaged data s := by
  have more : (advance data.length (channelOf s.fen (.bulk .settingsIn)).toMove).isEmpty = false := by simpa [channelOf] using h
  rw [handData]
  simp only [more, Bool.false_eq_true, if_false]
  rfl

theorem handData_settingsIn_last (h : advance data.length (bulkChannel s.fen.bulk .settingsIn).toMove = []) :
    handData (.bulk .settingsIn) disc data s
      = copyInDone (dropBulk .settingsIn (s.setSto { s.sto with staged := s.sto.staged ++ data })) := by
  have last : (advance data.length (channelOf s.fen (.bulk .settingsIn)).toMove).isEmpty = true := by simpa [channelOf] using h
  rw [handData]
  simp only [last, if_true]

theorem dropBulk_fen (id : BulkId) (s : State) : (dropBulk id s).fen.units = orphanUnits (.bulk id) s.fen.units ∧
    (dropBulk id s).fen.bulk = s.fen.bulk.filter (fun b => b.id ≠ id) := by
  have same : ∀ l : List BulkItem, l.filter (fun b => b.id != id) = l.filter (fun b => b.id ≠ id) := fun l =>
    List.filter_congr fun b _ => by simp [bne, BEq.beq]
  rw [← same]
  unfold dropBulk cutLocal
  simp only
  repeat' split
  all_goals exact ⟨rfl, rfl⟩

@[simp] theorem dropBulk_sto (id : BulkId) (s : State) : (dropBulk id s).sto = s.sto := (same_dropBulk (p := .sto) (by decide)).2 rfl
@[simp] theorem dropBulk_smn (id : BulkId) (s : State) : (dropBulk id s).smn = s.smn := (same_dropBulk (p := .smn) (by decide)).2 rfl
@[simp] theorem dropBulk_clockNs (id : BulkId) (s : State) : (dropBulk id s).clockNs = s.clockNs :=
  (same_dropBulk (p := .clock) (by decide)).2 rfl

@[simp] theorem completeRequest_sto (x : LongReq) (st : Status) (s : State) : (completeRequest x st s).sto = s.sto :=
  (same_completeRequest (p := .sto) (by decide)).2 rfl

theorem failWrite_sto (reason : WriteReason) (s : State) : (failWrite reason s).sto =
    { s.sto with writePhase := .idle, writeReq := none, lastOutcome := some reason } := by
  unfold failWrite
  simp only [raiseSettings, raise_sto]
  split <;> simp

/-- R191: of STO's record, the free port moves its own operation. -/
theorem serveFlash_sto (s : State) : ∃ op, (serveFlash s).sto = { s.sto with flash := op } := by
  unfold serveFlash
  repeat' split
  all_goals exact ⟨_, rfl⟩

/-- R190: what the checks of the whole image lead to. -/
theorem copyInDone_sto (s : State) : (copyInDone s).sto.staged = s.sto.staged ∧ (copyInDone s).sto.running = s.sto.running ∧
    (∀ reason, imageFault s.sto.staged = some reason → (copyInDone s).sto.writePhase = .idle ∧ (copyInDone s).sto.writeReq = none ∧
      (copyInDone s).sto.lastOutcome = some (.image reason)) ∧
    (imageFault s.sto.staged = none → (copyInDone s).sto.lastOutcome = s.sto.lastOutcome ∧ (copyInDone s).sto.writeReq = s.sto.writeReq ∧
      (copyInDone s).sto.writePhase = (if s.smn.low then .waitSupply else .erasing) ∧
      (s.smn.low = false → s.sto.flash = none → (copyInDone s).sto.flash = some (if s.sto.notReady then
        .readyWait true (s.clockNs + 1000000000) else .erase (s.clockNs + 1000000000)))) := by
  unfold copyInDone
  split
  · rename_i reason e
    rw [failWrite_sto]
    exact ⟨rfl, rfl, fun _ h => by rw [e] at h; obtain rfl := Option.some.inj h; exact ⟨rfl, rfl, rfl⟩,
      fun h => by simp [e] at h⟩
  · rename_i e
    have valid : ∀ reason, imageFault s.sto.staged ≠ some reason := fun _ h => by simp [e] at h
    cases low : s.smn.low with
    | true => exact ⟨rfl, rfl, fun reason h => absurd h (valid reason), fun _ => ⟨rfl, rfl, rfl, fun h => by simp at h⟩⟩
    | false =>
      obtain ⟨op, keeps⟩ := serveFlash_sto (s.setSto { s.sto with writePhase := .erasing })
      refine ⟨by simp [keeps], by simp [keeps], fun reason h => absurd h (valid reason), fun _ => ⟨by simp [keeps], by simp [keeps],
        by simp [keeps], fun _ flash => ?_⟩⟩
      cases waits : s.sto.notReady <;> simp [serveFlash, setFlash, flash, waits, low, eraseLimitNs]

theorem HandedOver.copyInDone (h : HandedOver c place s.fen.units) : HandedOver c place (copyInDone s).fen.units := by
  rw [show (Machine.copyInDone s).fen = s.fen from (same_copyInDone (p := .fen) (by decide) (by decide)).2 rfl]
  exact h

/-- R139, R149: the only unit of a sound load. -/
theorem soundUnit_stored {u : FetchUnit} (sole : soleUnit s place u) (len : data.length = u.len) (chan : u.chan = .bulk (.sound n))
    (toMove : (channelOf s.fen u.chan).toMove = [r]) :
    ∃ t, exec (.readCompletion place true data) s = .next t ∧ unitAt t.fen place = none ∧
      t.fen.store = s.fen.store ++ [(.sound n, data)] ∧ t.che = s.che ∧
      (bulkChannel t.fen.bulk (.sound n)).toMove = advance u.len [r] := by
  obtain ⟨us, handed, whole⟩ := completion_of_sole sole len
  rw [chan] at handed whole toMove
  rw [handData_sound] at whole
  rw [exec_readCompletion, whole handed]
  refine ⟨_, rfl, HandedOver.free (c := .bulk (.sound n)) (by rw [settle_units]; exact handed), ?_, ?_, ?_⟩
  · rw [settle_fen]; rfl
  · rw [settle_che]; rfl
  · rw [settle_fen]
    refine (soundStored_toMove n data _).trans ?_
    rw [← len, ← toMove]
    rfl

/-- R190: the only unit of the settings copy. -/
theorem settingsUnit_staged {u : FetchUnit} (sole : soleUnit s place u) (len : data.length = u.len) (chan : u.chan = .bulk .settingsIn)
    (toMove : (channelOf s.fen u.chan).toMove = [r]) :
    ∃ t, exec (.readCompletion place true data) s = .next t ∧ unitAt t.fen place = none ∧
      t.sto.staged = s.sto.staged ++ data ∧ t.sto.running = s.sto.running ∧
      (u.len < r.len → (bulkChannel t.fen.bulk .settingsIn).toMove = [⟨r.addr + u.len, r.len - u.len⟩] ∧
        t.sto.writePhase = s.sto.writePhase) ∧
      (u.len = r.len → t.fen.bulk = s.fen.bulk.filter (fun b => b.id ≠ .settingsIn) ∧
        (∀ reason, imageFault (s.sto.staged ++ data) = some reason → t.sto.writePhase = .idle ∧ t.sto.writeReq = none ∧
          t.sto.lastOutcome = some (.image reason)) ∧
        (imageFault (s.sto.staged ++ data) = none → t.sto.lastOutcome = s.sto.lastOutcome ∧ t.sto.writeReq = s.sto.writeReq ∧
          t.sto.writePhase = (if s.smn.low then .waitSupply else .erasing) ∧
          (s.smn.low = false → s.sto.flash = none → t.sto.flash = some (if s.sto.notReady then .readyWait true (s.clockNs + 1000000000)
            else .erase (s.clockNs + 1000000000))))) := by
  obtain ⟨us, handed, whole⟩ := completion_of_sole sole len
  rw [chan] at handed whole toMove
  generalize hv : s.setFen { s.fen with units := us } = v at whole
  have units : v.fen.units = us := by rw [← hv]; rfl
  have bulk : v.fen.bulk = s.fen.bulk := by rw [← hv]; rfl
  have sto : v.sto = s.sto := by rw [← hv]; rfl
  have smn : v.smn = s.smn := by rw [← hv]; rfl
  have clock : v.clockNs = s.clockNs := by rw [← hv]; rfl
  have moves : (bulkChannel v.fen.bulk .settingsIn).toMove = [r] := by rw [bulk]; exact toMove
  rw [exec_readCompletion]
  by_cases last : r.len ≤ u.len
  · rw [handData_settingsIn_last (by rw [moves, len]; simp [advance, last])] at whole
    generalize hw : dropBulk .settingsIn (v.setSto { v.sto with staged := v.sto.staged ++ data }) = w at whole
    obtain ⟨orphans, dropped⟩ := dropBulk_fen .settingsIn (v.setSto { v.sto with staged := v.sto.staged ++ data })
    rw [hw] at orphans dropped
    have left : HandedOver (.bulk .settingsIn) place (copyInDone w).fen.units := by
      refine HandedOver.copyInDone ?_
      rw [orphans, State.setSto_fen, units]
      exact handed.orphan _
    rw [whole left]
    have wsto : w.sto = { s.sto with staged := s.sto.staged ++ data } := by rw [← hw, dropBulk_sto, ← sto]; rfl
    have wsmn : w.smn = s.smn := by rw [← hw, dropBulk_smn, ← smn]; rfl
    have wclock : w.clockNs = s.clockNs := by rw [← hw, dropBulk_clockNs, ← clock]; rfl
    have done := copyInDone_sto w
    rw [wsto, wsmn, wclock] at done
    obtain ⟨staged, running, bad, good⟩ := done
    refine ⟨_, rfl, HandedOver.free (c := .bulk .settingsIn) (by rw [settle_units]; exact left), ?_⟩
    rw [settle_sto, settle_fen]
    refine ⟨staged, running, fun h => by omega, fun _ => ⟨?_, bad, good⟩⟩
    rw [show (copyInDone w).fen = w.fen from (same_copyInDone (p := .fen) (by decide) (by decide)).2 rfl, dropped, State.setSto_fen, bulk]
  · have rest : advance data.length (bulkChannel v.fen.bulk .settingsIn).toMove = [⟨r.addr + u.len, r.len - u.len⟩] := by
      rw [moves, len]; simp [advance, last]
    rw [handData_settingsIn_more (by rw [rest]; simp)] at whole
    have left : HandedOver (.bulk .settingsIn) place (imageStaged data v).fen.units := by
      show HandedOver _ _ v.fen.units
      rw [units]; exact handed
    rw [whole left]
    refine ⟨_, rfl, HandedOver.free (c := .bulk .settingsIn) (by rw [settle_units]; exact left), ?_⟩
    rw [settle_sto, settle_fen]
    refine ⟨by rw [← sto]; rfl, by rw [← sto]; rfl, fun _ => ⟨(imageStaged_toMove data v).trans rest, by rw [← sto]; rfl⟩,
      fun h => by omega⟩

/-! ### Completions held for an older one (R150) -/

/-- R150: two units of a channel that have completed are handed over in their order. -/
theorem completion_of_two {v w : FetchUnit} {later : List Byte} (ok : placesOk s.fen = true) (unit : unitAt s.fen place = some v)
    (flying : v.phase = .inFlight) (two : s.fen.units.filter (isLiveOf v.chan) = [v, w]) (held : w.phase = .held later)
    (len : data.length = v.len) : ∃ us vs, us.filter (isLiveOf v.chan) = [w] ∧ vs = us.eraseP (isLiveOf v.chan) ∧
      vs.filter (isLiveOf v.chan) = [] ∧
      ∀ first second, handData v.chan v.discard data (s.setFen { s.fen with units := us }) = first → first.fen.units = us →
        handData v.chan w.discard later (first.setFen { first.fen with units := vs }) = second → second.fen.units = vs →
        completion place true data s = second := by
  obtain ⟨mem, at_⟩ := unitAt_mem unit
  have lives : (rephase place (.held data) s).fen.units.filter (isLiveOf v.chan) = [{ v with phase := .held data }, w] := by
    rw [rephase_eq, State.setFen_fen, liveUnits_rephased ok unit flying, two, List.map_cons, List.map_singleton, rephased_of_isAt at_,
      rephased_of_not_isAt (isAt_of_held held)]
  generalize hu : (rephase place (.held data) s).fen.units = all at lives
  have one : (all.eraseP (isLiveOf v.chan)).filter (isLiveOf v.chan) = [w] := by rw [filter_eraseP, lives]; rfl
  have gone : ((all.eraseP (isLiveOf v.chan)).eraseP (isLiveOf v.chan)).filter (isLiveOf v.chan) = [] := by rw [filter_eraseP, one]; rfl
  refine ⟨all.eraseP (isLiveOf v.chan), _, one, rfl, gone, fun first second hfirst ufirst hsecond usecond => ?_⟩
  have start : (rephase place (.held data) s).setFen { (rephase place (.held data) s).fen with units := all.eraseP (isLiveOf v.chan) }
      = s.setFen { s.fen with units := all.eraseP (isLiveOf v.chan) } := rfl
  rw [completion_of_good unit flying len, drain_of_held (by rw [hu]; exact lives) rfl, hu, start]
  simp only at hfirst ⊢
  rw [hfirst, drain_of_held (by rw [ufirst]; exact one) held, ufirst, hsecond]
  exact drain_of_none (by rw [usecond]; exact gone) 14

end BulkUnits
/-! ## Units without an owner, completions out of order, and places that time out (R150, R154) -/

section Order
variable {s t : State} {place n : Nat} {u v w : FetchUnit} {r : Range} {data later : List Byte}

theorem units_onlyTouches (us : List FetchUnit) (s : State) :
    OnlyTouches [.fen, .wai] s (settle (s.setFen { s.fen with units := us })) := fun p h => by
  simp only [List.mem_cons, List.not_mem_nil, or_false, not_or] at h
  simp [h]

theorem channelOf_units (f : Fen) (us : List FetchUnit) (c : ChanId) : channelOf { f with units := us } c = channelOf f c := by
  cases c <;> rfl

theorem removeUnit_eq (place : Nat) (s : State) : removeUnit place s = s.setFen { s.fen with units := s.fen.units.eraseP (isAt place) } := by
  rw [removeUnit, dropFirst_eq_eraseP]

theorem afterOrphan_of_not_audio {c : ChanId} (h : ∀ st, c ≠ .audio st) (s : State) : afterOrphan c s = s := by
  cases c with
  | audio st => exact absurd rfl (h st)
  | _ => rfl

/-- R150: a late or unwanted completion frees the unit's place. -/
theorem completion_of_unwanted (unit : unitAt s.fen place = some u) (chan : ∀ st, u.chan ≠ .audio st)
    (phase : u.phase = .orphan ∨ ∃ n, u.phase = .timedOut n) (ok : Bool) (data : List Byte) :
    completion place ok data s = s.setFen { s.fen with units := s.fen.units.eraseP (isAt place) } := by
  rw [completion, unit, ← removeUnit_eq]
  rcases phase with e | ⟨n, e⟩ <;> simp only [e]
  exact afterOrphan_of_not_audio chan _

/-- R150: a completion before that of an older unit of its channel is held. -/
theorem completion_of_younger (ok : placesOk s.fen = true) (unit : unitAt s.fen place = some u) (flying : u.phase = .inFlight)
    (len : data.length = u.len) (oldest : s.fen.units.find? (isLiveOf u.chan) = some v) (older : v.phase = .inFlight)
    (other : v.place ≠ place) : completion place true data s = rephase place (.held data) s := by
  have elsewhere : isAt place v = false := by simp [isAt, other]
  rw [completion_of_good unit flying len]
  refine drain_of_flying (v := v) ?_ older 16
  have lives := liveUnits_rephased ok unit flying data u.chan
  rw [rephase_eq, State.setFen_fen, ← List.head?_filter, lives, List.head?_map, List.head?_filter, oldest, Option.map_some,
    rephased_of_not_isAt elsewhere]

theorem isAt_rephased_timedOut (u : FetchUnit) : isAt place (rephased place (.timedOut n) u) = isAt place u := by
  by_cases h : isAt place u = true
  · rw [rephased_of_isAt h, h]
    simp only [isAt, Bool.and_eq_true] at h
    simp [isAt, FetchUnit.keepsPlace, h.2]
  · rw [rephased_of_not_isAt (by simpa using h)]

theorem unitAt_rephased_timedOut {f : Fen} (unit : unitAt f place = some u) :
    (f.units.map (rephased place (.timedOut n))).find? (isAt place) = some { u with phase := .timedOut n } := by
  have same : isAt place ∘ rephased place (.timedOut n) = isAt place := funext isAt_rephased_timedOut
  rw [List.find?_map, same, ← unitAt_eq, unit, Option.map_some, rephased_of_isAt (unitAt_mem unit).2]

/-- R154: a unit whose data nobody wants has no completion within 50 ms. -/
theorem unwanted_timesOut (unit : unitAt s.fen place = some u) (orphan : u.phase = .orphan) (chan : ∀ st, u.chan ≠ .audio st) :
    ∃ t, exec (.unitTimeout place) s = .next t ∧ OnlyTouches [.clock, .fen, .wai] s t ∧
      t.clockNs = max s.clockNs (u.deadline * 1000) ∧
      ∃ v, unitAt t.fen place = some v ∧ v.phase = .timedOut (u.deadline + 50000) ∧ v.chan = u.chan := by
  have out : unitTimedOut place s = rephase place (.timedOut (u.deadline + unitTime)) (reach u.deadline s) := by
    rw [unitTimedOut, unit]
    simp only [orphan]
    exact afterOrphan_of_not_audio chan _
  refine ⟨_, exec_unitTimeout place s, fun p h => ?_, ?_, { u with phase := .timedOut (u.deadline + unitTime) }, ?_, rfl, rfl⟩
  · simp only [List.mem_cons, List.not_mem_nil, or_false, not_or] at h
    simp [out, rephase_eq, h]
  · rw [settle_clockNs, out]; rfl
  · rw [unitAt_eq, settle_units, out]
    exact unitAt_rephased_timedOut (f := s.fen) unit

/-- R154: the place of a unit that timed out is released. -/
theorem timedOut_released (unit : unitAt s.fen place = some u) (phase : u.phase = .timedOut n) :
    ∃ t, exec (.timeoutPlaceRelease place) s = .next t ∧ t.clockNs = max s.clockNs (n * 1000) ∧
      t.fen.units = s.fen.units.eraseP (isAt place) := by
  have released : placeRelease place s = removeUnit place (reach n s) := by
    rw [placeRelease, unit]
    simp only [phase]
  refine ⟨settle (placeRelease place s), rfl, ?_, ?_⟩
  · rw [settle_clockNs, released]; rfl
  · rw [settle_units, released, removeUnit_eq]; rfl

/-- R150: a completion before that of an older unit frees its place. -/
theorem younger_held (ok : placesOk s.fen = true) (unit : unitAt s.fen place = some u) (flying : u.phase = .inFlight)
    (len : data.length = u.len) (oldest : s.fen.units.find? (isLiveOf u.chan) = some v) (older : v.phase = .inFlight)
    (other : v.place ≠ place) :
    ∃ t, exec (.readCompletion place true data) s = .next t ∧ OnlyTouches [.fen, .wai] s t ∧ place ∉ placesUsed t.fen ∧
      t.fen.units = s.fen.units.map (fun x => if isAt place x then { x with phase := .held data } else x) ∧
      (u.chan ≠ .work → channelOf t.fen u.chan = channelOf s.fen u.chan) := by
  have held := completion_of_younger ok unit flying len oldest older other
  have units : (settle (completion place true data s)).fen.units = s.fen.units.map (rephased place (.held data)) := by
    rw [settle_units, held]; rfl
  refine ⟨_, exec_readCompletion place true data s, ?_, not_mem_placesUsed fun x m => ?_, units, fun h => ?_⟩
  · rw [held]; exact units_onlyTouches _ s
  · rw [units] at m
    obtain ⟨y, -, rfl⟩ := List.mem_map.1 m
    exact isAt_rephased_held data y
  · rw [channelOf_settle h, held, rephase_eq, State.setFen_fen, channelOf_units]

section Two
variable (ok : placesOk s.fen = true) (unit : unitAt s.fen place = some v) (flying : v.phase = .inFlight)
  (two : s.fen.units.filter (isLiveOf v.chan) = [v, w]) (held : w.phase = .held later) (len : data.length = v.len)
include ok unit flying two held len

/-- R149, R150: the two units of a sound load join the data store in their order. -/
theorem soundUnits_inOrder (chan : v.chan = .bulk (.sound n)) : ∃ t, exec (.readCompletion place true data) s = .next t ∧
    t.fen.store = s.fen.store ++ [(.sound n, data), (.sound n, later)] ∧ (∀ x ∈ t.fen.units, isLiveOf v.chan x = false) ∧
    (bulkChannel t.fen.bulk (.sound n)).toMove
      = advance later.length (advance data.length (bulkChannel s.fen.bulk (.sound n)).toMove) := by
  obtain ⟨us, vs, -, -, gone, whole⟩ := completion_of_two ok unit flying two held len
  rw [chan] at whole gone ⊢
  rw [exec_readCompletion, whole _ _ (handData_sound _ _ _ _) rfl (handData_sound _ _ _ _) rfl]
  refine ⟨_, rfl, ?_, fun x m => ?_, ?_⟩
  · rw [settle_fen]
    exact List.append_assoc _ _ _
  · rw [settle_units] at m
    simpa using List.filter_eq_nil_iff.1 gone x m
  · rw [settle_fen]
    refine (soundStored_toMove _ _ _).trans ?_
    congr 1
    exact soundStored_toMove n data _

/-- R150, R190: the two units of the settings copy join the staged image in their order. -/
theorem settingsUnits_inOrder (chan : v.chan = .bulk .settingsIn) (toMove : (bulkChannel s.fen.bulk .settingsIn).toMove = [r])
    (more : data.length + later.length < r.len) : ∃ t, exec (.readCompletion place true data) s = .next t ∧
      t.sto = { s.sto with staged := s.sto.staged ++ data ++ later } ∧ (∀ x ∈ t.fen.units, isLiveOf v.chan x = false) ∧
      (bulkChannel t.fen.bulk .settingsIn).toMove
        = [⟨r.addr + data.length + later.length, r.len - data.length - later.length⟩] := by
  obtain ⟨us, vs, -, -, gone, whole⟩ := completion_of_two ok unit flying two held len
  rw [chan] at whole gone ⊢
  have once : advance data.length [r] = [⟨r.addr + data.length, r.len - data.length⟩] := if_neg (by omega)
  have twice : advance later.length [⟨r.addr + data.length, r.len - data.length⟩]
      = [⟨r.addr + data.length + later.length, r.len - data.length - later.length⟩] := if_neg (by simp only; omega)
  have first := (imageStaged_toMove data (s.setFen { s.fen with units := us })).trans
    ((congrArg (advance data.length) toMove).trans once)
  generalize hx : imageStaged data (s.setFen { s.fen with units := us }) = x at first
  have second := (imageStaged_toMove later (x.setFen { x.fen with units := vs })).trans
    ((congrArg (advance later.length) first).trans twice)
  have handed : handData (.bulk .settingsIn) v.discard data (s.setFen { s.fen with units := us }) = x := by
    rw [← hx]
    refine handData_settingsIn_more ?_
    show advance data.length (bulkChannel s.fen.bulk .settingsIn).toMove ≠ []
    rw [toMove, once]; simp
  have handed' : handData (.bulk .settingsIn) w.discard later (x.setFen { x.fen with units := vs })
      = imageStaged later (x.setFen { x.fen with units := vs }) := by
    refine handData_settingsIn_more ?_
    show advance later.length (bulkChannel x.fen.bulk .settingsIn).toMove ≠ []
    rw [first, twice]; simp
  rw [exec_readCompletion, whole _ _ handed (by rw [← hx]; rfl) handed' rfl]
  refine ⟨_, rfl, ?_, fun y m => ?_, ?_⟩
  · rw [settle_sto, ← hx]; rfl
  · rw [settle_units] at m
    simpa using List.filter_eq_nil_iff.1 gone y m
  · rw [settle_fen]; exact second

end Two

/-- 5.8: a sample is two bytes, the low one first. -/
theorem ofNat_leNat_pair (a b : Byte) : BitVec.ofNat 16 (leNat [a, b]) = b ++ a := by
  apply BitVec.eq_of_toNat_eq
  simp only [leNat, BitVec.toNat_ofNat, BitVec.toNat_append]
  rw [← Nat.shiftLeft_add_eq_or_of_lt a.isLt]
  have := a.isLt
  have := b.isLt
  simp only [Nat.shiftLeft_eq]
  omega

theorem samplesOf_cons (a b c d : Byte) (rest : List Byte) :
    samplesOf (a :: b :: c :: d :: rest) = ⟨b ++ a, d ++ c⟩ :: samplesOf rest := by
  rw [samplesOf, ofNat_leNat_pair, ofNat_leNat_pair]

end Order
/-! ## Final statuses (R177) -/

section FinalStatus
variable {s t : State} {r : RecordRef} {st : Status} {c q : Bool}

theorem finalGiven_mono (h : finalGiven r st s) (answers : ∀ x ∈ s.wai.answers, x ∈ t.wai.answers)
    (scan : ∀ x ∈ s.wai.scanQueue, x ∈ t.wai.scanQueue) (work : ∀ x ∈ s.fen.work, x ∈ t.fen.work)
    (anchor : t.wai.anchor = s.wai.anchor) : finalGiven r st t := by
  obtain m | ⟨n, k, m⟩ | ⟨n, i, m, job, bytes, chan⟩ := h
  · exact .inl (answers _ m)
  · exact .inr (.inl ⟨n, k, scan _ m⟩)
  · exact .inr (.inr ⟨n, i, work _ m, job, bytes, by simpa [pageAddr, anchor] using chan⟩)

/-- R177: the owner's final status takes the place of the PENDING answer, or joins the answer queue. -/
theorem finalGiven_completeRequest (h : s.wai.taken.any (·.isOf r) = true) (st : Status) :
    finalGiven r st (completeRequest ⟨some r⟩ st s) := by
  unfold completeRequest
  simp only [h, if_true]
  split
  · rename_i pending
    obtain ⟨i, m, is⟩ := List.any_eq_true.1 pending
    refine .inr (.inl ?_)
    cases i with
    | answer r' st' n final counted =>
      simp only [ScanItem.isPendingOf, Bool.and_eq_true, beq_iff_eq] at is
      exact ⟨n, counted, List.mem_map.2 ⟨_, m, by simp [ScanItem.finish, is]⟩⟩
    | _ => simp [ScanItem.isPendingOf] at is
  · exact .inl (by simp)

theorem raise_places (k : NoticeKind) (a b : Word) (s : State) : (raise k a b s).wai.answers = s.wai.answers ∧
    (raise k a b s).wai.scanQueue = s.wai.scanQueue ∧ (raise k a b s).fen = s.fen ∧ (raise k a b s).wai.anchor = s.wai.anchor := by
  unfold raise
  split
  · exact ⟨rfl, rfl, rfl, rfl⟩
  · split <;> exact ⟨rfl, rfl, rfl, rfl⟩

theorem finalGiven_raise (k : NoticeKind) (a b : Word) (h : finalGiven r st s) : finalGiven r st (raise k a b s) := by
  obtain ⟨answers, scan, fen, anchor⟩ := raise_places k a b s
  exact finalGiven_mono h (fun x m => by rw [answers]; exact m) (fun x m => by rw [scan]; exact m) (fun x m => by rw [fen]; exact m) anchor

theorem finalHanded_answers {r' : RecordRef} {st' : Status} :
    ∀ x ∈ s.wai.answers, x ∈ (finalHanded q r' st' c s).wai.answers := by
  have checked : ∀ u : State, ∀ x ∈ u.wai.answers, x ∈ (checkPage q r' u).wai.answers := fun u x m => by
    have answered : ∀ p, x ∈ (answerPage q p u).wai.answers := fun p => by
      unfold answerPage
      simp only
      split
      · exact m
      · cases q with
        | true => exact List.mem_cons_of_mem _ m
        | false => exact m
    unfold checkPage
    split
    · split
      · exact answered _
      · exact m
    · exact m
  intro x m
  refine checked _ x ?_
  rw [(raise_places _ _ _ _).1]
  split <;> exact m

/-- R177: the final status of a record that is handed stands on WORK's list. -/
theorem finalGiven_handed (r : RecordRef) (st : Status) (n : Nat) (s : State) :
    finalGiven r st (finalHanded q r st c (handAnswerWrite r st n s)) := by
  obtain ⟨-, fen, anchor⟩ := finalHanded_keeps (q := q) (r := r) (st := st) (c := c) (s := handAnswerWrite r st n s)
  refine .inr (.inr ⟨n, ⟨.write, Channel.started [⟨pageAddr s r.page + r.off + 4, (answerBytes st n).length⟩] .write, answerBytes st n⟩,
    ?_, rfl, rfl, ?_⟩)
  · rw [fen]
    exact List.mem_append_right _ (List.mem_singleton_self _)
  · simp only [answerBytes_length, pageAddr, anchor]
    rfl

theorem handScan_answers (i : ScanItem) : ∀ x ∈ s.wai.answers, x ∈ (handScan i s).wai.answers := by
  intro x m
  cases i with
  | answer r st n final counted =>
    simp only [handScan]
    split
    · exact finalHanded_answers x m
    · exact m
  | look =>
    simp only [handScan, lookPage]
    split <;> exact m
  | _ => exact m

theorem finalGiven_handOne (h : finalGiven r st s) (e : handOne s = some t) : finalGiven r st t := by
  obtain ⟨-, -, rfl⟩ | ⟨i, q, hq, rfl⟩ | ⟨x, q, hq, rfl⟩ | ⟨m, -, rfl⟩ | ⟨-, rfl⟩ := handOne_cases e
  · unfold endScan beginScan
    simp only
    split
    · exact finalGiven_mono h (fun _ m => m) (fun _ m => List.mem_append_left _ m) (fun _ m => m) rfl
    · exact finalGiven_mono h (fun _ m => m) (fun _ m => m) (fun _ m => m) rfl
  · obtain ⟨scan, work, anchor⟩ := handScan_keeps (i := i) (s := s.setWai { s.wai with scanQueue := q })
    obtain m | ⟨n, k, m⟩ | ⟨n, j, m, job, bytes, chan⟩ := h
    · exact .inl (handScan_answers i _ m)
    · rw [hq] at m
      obtain rfl | m := List.mem_cons.1 m
      · exact finalGiven_handed r st n _
      · exact .inr (.inl ⟨n, k, scan _ m⟩)
    · exact .inr (.inr ⟨n, j, work _ m, job, bytes, by simpa [pageAddr, anchor] using chan⟩)
  · cases x with
    | final r' st' =>
      obtain ⟨scan, fen, anchor⟩ := finalHanded_keeps (q := true) (r := r') (st := st') (c := true)
        (s := handAnswerWrite r' st' 0 (s.setWai { s.wai with answers := q }))
      by_cases same : QueuedAnswer.final r st = .final r' st'
      · obtain ⟨rfl, rfl⟩ := QueuedAnswer.final.inj same
        exact finalGiven_handed r st 0 _
      · obtain m | m | ⟨n, j, m, job, bytes, chan⟩ := h
        · rw [hq] at m
          exact .inl (finalHanded_answers _ ((List.mem_cons.1 m).resolve_left same))
        · obtain ⟨n, k, m⟩ := m
          exact .inr (.inl ⟨n, k, scan _ m⟩)
        · have page : pageAddr (handQueued (.final r' st') (s.setWai { s.wai with answers := q })) r.page = pageAddr s r.page := by
            rw [pageAddr, handQueued, anchor]; rfl
          refine .inr (.inr ⟨n, j, ?_, job, bytes, by rw [page]; exact chan⟩)
          rw [handQueued, fen]
          exact List.mem_append_left _ m
    | header page bytes =>
      obtain m | m | ⟨n, j, m, w⟩ := h
      · rw [hq] at m
        exact .inl ((List.mem_cons.1 m).resolve_left (by simp))
      · exact .inr (.inl m)
      · exact .inr (.inr ⟨n, j, List.mem_append_left _ m, w⟩)
  · unfold handSlot
    split
    · exact h
    · exact finalGiven_mono h (fun _ m => m) (fun _ m => m) (fun _ m => List.mem_append_left _ m) rfl
  · exact finalGiven_mono h (fun _ m => m) (fun _ m => m) (fun _ m => List.mem_append_left _ m) rfl

/-- The end of a command leaves a final status in its place or hands it. -/
theorem finalGiven_settle (h : finalGiven r st s) : finalGiven r st (settle s) := by
  have loop : ∀ n (x : State), finalGiven r st x → finalGiven r st (handLoop n x) := by
    intro n
    induction n with
    | zero => exact fun _ h => h
    | succ n ih =>
      intro x h
      unfold handLoop
      split
      · rename_i u e; exact ih u (finalGiven_handOne h e)
      · exact h
  exact loop 64 s h

end FinalStatus
/-! ## Read units that fail (R82, R107, R139, R154, R164, R168, R190) -/

section Failures
variable {s t v : State} {p : PipeId} {slot place k n addr : Nat} {u : FetchUnit} {us : List FetchUnit} {c : ChanId} {q : Plane}
variable {st : StreamId} {disc : Bool} {b : AudioBuf} {rest : List AudioBuf}

/-- The state at an instant with other units in the port. -/
def unitsLeft (k : Nat) (us : List FetchUnit) (s : State) : State := (s.setClock k).setFen { s.fen with units := us }

/-- R154: the state in which a channel has failed, before its owner is told. -/
def channelFailed (c : ChanId) (addr : Nat) (s : State) : State :=
  s.setFen (setChannel { s.fen with units := orphanUnits c s.fen.units } c ((channelOf s.fen c).failed addr))

theorem failChannel_eq (c : ChanId) (addr : Nat) (disc : Bool) (s : State) :
    failChannel c addr disc s = tellOwner c addr disc (channelFailed c addr s) := by
  rw [failChannel, channelFailed, channelOf_units]

/-- The units that are left are those of before, but for their phases. -/
def unitsFrom (s : State) (us : List FetchUnit) : Prop := ∀ y ∈ us, ∃ z ∈ s.fen.units, y.chan = z.chan ∧ y.discard = z.discard

/-- R154: a unit in flight fails by its status, or by 50 ms without a completion. -/
theorem unit_fails {i : Instr} (unit : unitAt s.fen place = some u) (flying : u.phase = .inFlight) {data : List Byte}
    (h : i ∈ [Instr.readCompletion place false data, .unitTimeout place]) : ∃ k us,
      exec i s = .next (settle (tellOwner u.chan u.addr u.discard (channelFailed u.chan u.addr (unitsLeft k us s)))) ∧
      (i = .unitTimeout place → k = max s.clockNs (u.deadline * 1000)) ∧ unitsFrom s us := by
  rcases List.mem_cons.1 h with rfl | h
  · refine ⟨s.clockNs, s.fen.units.eraseP (isAt place), ?_, fun e => by simp at e, fun y m => ⟨y, List.mem_of_mem_eraseP m, rfl, rfl⟩⟩
    rw [exec_readCompletion, completion_of_failed unit flying, removeUnit_eq, failChannel_eq]
    rfl
  · obtain rfl := List.mem_singleton.1 h
    refine ⟨max s.clockNs (u.deadline * 1000), s.fen.units.map (rephased place (.timedOut (u.deadline + unitTime))), ?_, fun _ => rfl,
      fun y m => ?_⟩
    · rw [exec_unitTimeout, unitTimedOut, unit]
      simp only [flying]
      rw [failChannel_eq]
      rfl
    · obtain ⟨z, mz, rfl⟩ := List.mem_map.1 m
      exact ⟨z, mz, rephased_chan _ _ z, rephased_discard _ _ z⟩

/-- R82: the plane is removed and the reader stopped. -/
theorem planeError_of_fetching (plane : planeOf (pipeOf v p) slot = some q) (kind : q.kind ≠ .fill) (addr : Nat) :
    planeError p slot addr v = raise .fetchFault (BitVec.ofNat 32 (pipeCode p + 256 * slot + 65536 * planeKindCode q.kind))
      (BitVec.ofNat 32 addr) (stopSlot p slot (setPipe p { pipeOf v p with
        active := { (pipeOf v p).active with slots := (pipeOf v p).active.slots.set slot none } } v)) := by
  have fetches : q.kind.fetches = true := by
    cases e : q.kind with
    | fill => exact absurd e kind
    | _ => rfl
  unfold planeError
  simp only [plane, fetches, if_true]

theorem planeUnit_failed (plane : planeOf (pipeOf s p) slot = some q) (kind : q.kind ≠ .fill)
    (ht : t = settle (planeError p slot addr (channelFailed (.plane p slot) addr (unitsLeft k us s)))) :
    planeOf (pipeOf t p) slot = none ∧ (∀ n, n ≠ slot → planeOf (pipeOf t p) n = planeOf (pipeOf s p) n) ∧
      channelOf t.fen (.plane p slot) = idleChannel ∧
      noticeRaised .fetchFault (BitVec.ofNat 32 (pipeCode p + 256 * slot + 65536 * planeKindCode q.kind)) (BitVec.ofNat 32 addr) s t := by
  generalize hv : channelFailed (.plane p slot) addr (unitsLeft k us s) = v at ht
  have pipe : pipeOf v p = pipeOf s p := by rw [← hv]; rfl
  have slots : ∀ n, slotCore v n = slotCore s n := fun n => by rw [← hv]; rfl
  obtain ⟨w, hw⟩ : ∃ w, stopSlot p slot (setPipe p { pipeOf v p with
      active := { (pipeOf v p).active with slots := (pipeOf v p).active.slots.set slot none } } v) = w := ⟨_, rfl⟩
  rw [planeError_of_fetching (by rw [pipe]; exact plane) kind, hw] at ht
  have active : (pipeOf t p).active.slots = (pipeOf s p).active.slots.set slot none := by
    have removed : (pipeOf w p).active = { (pipeOf v p).active with slots := (pipeOf v p).active.slots.set slot none } := by
      rw [← hw]
      refine (congrArg Pipe.active (unread_stopSlot (q := p) p slot _) :).trans ?_
      rw [pipeOf_setPipe, if_pos rfl]
      rfl
    rw [ht, pipeOf_settle, pipeOf_raise, removed, pipe]
  refine ⟨?_, fun n other => ?_, ?_, ?_⟩
  · rw [planeOf, active, nth_set]
    split
    · rfl
    · rename_i out
      rw [nth, List.getElem?_eq_none (by omega)]; rfl
  · rw [planeOf, active, nth_set, if_neg (by omega)]; rfl
  · rw [ht, channelOf_settle (by simp), (raise_places _ _ _ w).2.2.1, ← hw]
    exact channelOf_setChannel_plane_idle _ p slot
  · rw [ht]
    exact noticeRaised_of_raise (u := w) (by rw [← hw]; exact slots _) (slotCore_settle (by decide))
      (by rw [cabin_settle]; exact (cabin_congr (raise_clockNs _ _ _ w)).symm)

/-- R168: WAI is FAULTED. -/
theorem workUnit_faults (attached : s.wai.st = .attached)
    (ht : t = settle (workError (channelFailed .work addr (unitsLeft k us s)))) :
    t.wai.st = .faulted ∧ t.wai.cause = .workFetch ∧ t.wai.anchor = none ∧ t.wai.taken = [] ∧ t.fen.work = [] ∧ t.fen.window = none := by
  generalize hv : channelFailed .work addr (unitsLeft k us s) = v at ht
  have wai : v.wai = s.wai := by rw [← hv]; rfl
  have exits : workError v = exitAttached .faulted .workFetch v := by
    rw [workError, wai, attached]
  obtain ⟨window, xs, record⟩ := exitAttached_wai (new := .faulted) (by simp) .workFetch v
  obtain ⟨work, -, -⟩ := exitAttached_readers .faulted .workFetch v
  have left : t = exitAttached .faulted .workFetch v := by
    rw [ht, exits]
    exact settle_of_not_attached (by rw [record]; simp [waiExit])
  rw [left, record]
  exact ⟨rfl, rfl, rfl, rfl, work, window⟩

/-- R164: an attach ends with its cause. -/
theorem workUnit_endsAttach (attaching : s.wai.st = .attaching)
    (ht : t = settle (workError (channelFailed .work addr (unitsLeft k us s)))) :
    t.wai.st = .detached ∧ t.wai.cause = .anchorFetch ∧ t.fen.work = [] := by
  generalize hv : channelFailed .work addr (unitsLeft k us s) = v at ht
  have wai : v.wai = s.wai := by rw [← hv]; rfl
  have fails : workError v = stopWork (failAttach .anchorFetch v) := by rw [workError, wai, attaching]
  have left : t = stopWork (failAttach .anchorFetch v) := by
    rw [ht, fails]
    exact settle_of_not_attached (by simp [stopWork, failAttach])
  rw [left]
  exact ⟨rfl, rfl, rfl⟩

/-- R139: a load that fails ends EMPTY. -/
theorem failLoad_spec {e : SoundEntry} (entry : v.che.bank[n]? = some e) : (failLoad n v).che.bank = v.che.bank.set n ⟨.empty, 0, [], none⟩ ∧
    (failLoad n v).che.loads = v.che.loads - 1 ∧
    (∀ b, b ∈ (failLoad n v).che.free ↔ b < 256 ∧ (b ∈ v.che.free ∨ b ∈ e.blocks)) ∧
    (∀ b ∈ (failLoad n v).fen.bulk, b.id ≠ .sound n) ∧
    (∀ r, e.load = some ⟨some r⟩ → v.wai.taken.any (·.isOf r) = true → finalGiven r ⟨.failed, .fetch⟩ (failLoad n v)) := by
  have sound : soundOf v.che n = e := by rw [soundOf, nth, entry]; rfl
  have che : (dropLoad n v).che = { v.che with
      bank := v.che.bank.set n ⟨.empty, 0, [], none⟩
      free := (List.range 256).filter (fun b => v.che.free.contains b || e.blocks.contains b)
      loads := v.che.loads - 1 } := by
    rw [dropLoad, sound, show ∀ x, (dropBulk (.sound n) x).che = x.che from fun x => (same_dropBulk (p := .che) (by decide)).2 rfl]
    rfl
  have bulk : ∀ b ∈ (dropLoad n v).fen.bulk, b.id ≠ .sound n := fun b m => by
    rw [dropLoad, (dropBulk_fen _ _).2] at m
    simpa using (List.mem_filter.1 m).2
  have wai : (dropLoad n v).wai = v.wai := by rw [dropLoad]; exact (same_dropBulk (p := .wai) (by decide)).2 rfl
  have ended : (failLoad n v).che = (dropLoad n v).che ∧ (failLoad n v).fen = (dropLoad n v).fen := by
    unfold failLoad
    split
    · exact ⟨completeRequest_che _ _ _, completeRequest_fen _ _ _⟩
    · exact ⟨rfl, rfl⟩
  rw [ended.1, ended.2, che]
  refine ⟨rfl, rfl, fun b => by simp, bulk, fun r load taken => ?_⟩
  unfold failLoad
  rw [sound, load]
  exact finalGiven_completeRequest (by rw [wai]; exact taken) _

/-- R190, R191: a write that fails raises its notice where its request has ended. -/
theorem failWrite_raises (reason : WriteReason) (v : State) : ∃ w, failWrite reason v = raise .settingsState
      (BitVec.ofNat 32 (5 + 256 * sourceCode v.sto.source + 65536 * writeReasonCode reason)) (failedSerial reason v.sto.staged) w ∧
    (∀ m, slotCore w m = slotCore v m) ∧ w.clockNs = v.clockNs ∧
    ∀ r, v.sto.writeReq = some ⟨some r⟩ → v.wai.taken.any (·.isOf r) = true → finalGiven r (writeFailure reason) w := by
  unfold failWrite
  simp only [raiseSettings]
  split
  · rename_i x hx
    refine ⟨(completeRequest x (writeFailure reason) v).setSto
      { v.sto with writePhase := .idle, lastOutcome := some reason, writeReq := none }, by simp,
      fun m => slotCore_completeRequest, ?_, fun r hr taken => ?_⟩
    · exact (same_completeRequest (p := .clock) (by decide)).2 rfl
    · obtain rfl : x = ⟨some r⟩ := Option.some.inj (hx.symm.trans hr)
      exact finalGiven_completeRequest taken _
  · rename_i hx
    exact ⟨_, rfl, fun _ => rfl, rfl, fun r hr => by rw [hx] at hr; simp at hr⟩

theorem filter_setBulk (l : List BulkItem) (id : BulkId) (x : Channel) :
    (l.map fun b => if b.id = id then { b with chan := x } else b).filter (fun b => b.id ≠ id) = l.filter (fun b => b.id ≠ id) := by
  induction l with
  | nil => rfl
  | cons b l ih =>
    by_cases e : b.id = id
    · simpa [e] using ih
    · simpa [e] using ih

/-- R190: the settings copy fails. -/
theorem settingsUnit_failed
    (ht : t = settle (copyInFailed (dropBulk .settingsIn (channelFailed (.bulk .settingsIn) addr (unitsLeft k us s))))) :
    t.sto = { s.sto with writePhase := .idle, writeReq := none, lastOutcome := some .fetch } ∧
      t.fen.bulk = s.fen.bulk.filter (fun b => b.id ≠ .settingsIn) ∧
      noticeRaised .settingsState (BitVec.ofNat 32 (327685 + 256 * sourceCode s.sto.source)) (u32At s.sto.staged 12) s t ∧
      (∀ q, s.sto.writeReq = some ⟨some q⟩ → s.wai.taken.any (·.isOf q) = true → finalGiven q ⟨.failed, .fetch⟩ t) := by
  obtain ⟨-, bulk⟩ := dropBulk_fen .settingsIn (channelFailed (.bulk .settingsIn) addr (unitsLeft k us s))
  have wai : (dropBulk .settingsIn (channelFailed (.bulk .settingsIn) addr (unitsLeft k us s))).wai = s.wai :=
    (same_dropBulk (p := .wai) (by decide)).2 rfl
  have sto : (dropBulk .settingsIn (channelFailed (.bulk .settingsIn) addr (unitsLeft k us s))).sto = s.sto := dropBulk_sto _ _
  generalize dropBulk .settingsIn (channelFailed (.bulk .settingsIn) addr (unitsLeft k us s)) = v at ht bulk wai sto
  obtain ⟨w, raised, slots, clock, final⟩ := failWrite_raises .fetch v
  rw [copyInFailed] at ht
  refine ⟨?_, ?_, ?_, fun r hr taken => ?_⟩
  · rw [ht, settle_sto, failWrite_sto, sto]
  · have fen : (failWrite .fetch v).fen = v.fen := (same_failWrite (p := .fen) (by decide) (by decide)).2 rfl
    rw [ht, settle_fen, fen, bulk]
    exact filter_setBulk s.fen.bulk .settingsIn _
  · have notice := noticeRaised_of_raise (k := .settingsState) (u := w) (s := s) (t := t) ((slots _).trans (slotCore_of_wai wai))
      (by rw [ht, raised, slotCore_settle (by decide)]) (by rw [ht, raised, cabin_settle]; exact (cabin_congr (raise_clockNs _ _ _ w)).symm)
    rw [sto] at notice
    rw [show 327685 + 256 * sourceCode s.sto.source = 5 + 256 * sourceCode s.sto.source + 65536 * writeReasonCode .fetch by
      rw [writeReasonCode]; omega]
    exact notice
  · rw [ht, raised]
    exact finalGiven_settle (finalGiven_raise _ _ _ (final r (by rw [sto]; exact hr) (by rw [wai]; exact taken)))

end Failures
/-! ## Audio units that fail (R107, R108) -/

section AudioFailures
variable {s t v : State} {k addr : Nat} {us : List FetchUnit} {st : StreamId} {disc : Bool} {b n : AudioBuf} {rest more : List AudioBuf}
variable {token : Word} {tokens : List Word}

/-- R107: a stream's audio record after an error: the head buffer ends, unless the unit was of a discarded one. -/
def FilmAudio.faulted (disc : Bool) (a : FilmAudio) : FilmAudio :=
  { (if disc then a else { a with queue := a.queue.tail, lastRetired := failedToken a false, reading := none }) with
    errors := a.errors + 1
    lastError := failedToken a disc }

/-- The state in which an error has ended the head buffer, with its notice. -/
def audioFaulted (st : StreamId) (disc : Bool) (s : State) : State :=
  raise .filmAudioUnderrun (underrunWord st 2 (filmOf s st)) (failedToken (filmOf s st).audio disc)
    (setAudio st ((filmOf s st).audio.faulted disc) s)

/-- R107: a reader that no buffer restarted is stopped. -/
def stopFaulted (st : StreamId) (s : State) : State := if (s.fen.audio.get st).st = .error then stopChannel (.audio st) s else s

theorem audioError_eq (st : StreamId) (disc : Bool) (s : State) :
    audioError st disc s = examineStream st (stopFaulted st (startReader st (retireDiscarded st (audioFaulted st disc s)))) := by
  cases disc <;> rfl

theorem faulted_of_live {a : FilmAudio} (h : a.queue = b :: rest) : a.faulted false =
    { a with queue := rest, lastRetired := b.token, reading := none, errors := a.errors + 1, lastError := b.token } := by
  simp [FilmAudio.faulted, failedToken, h]

theorem faulted_of_discarded {a : FilmAudio} (h : a.discarded = token :: tokens) :
    a.faulted true = { a with errors := a.errors + 1, lastError := token } := by
  simp [FilmAudio.faulted, failedToken, h]

theorem filmOf_audioFaulted (st : StreamId) (disc : Bool) (s : State) :
    filmOf (audioFaulted st disc s) st = { filmOf s st with audio := (filmOf s st).audio.faulted disc } := by
  rw [audioFaulted, filmOf_of_same (s := setAudio st _ s) ((same_raise (by decide)).2 (Part.same_self _ _)), filmOf_setAudio]

theorem audioFaulted_fen (st : StreamId) (disc : Bool) (s : State) : (audioFaulted st disc s).fen = s.fen :=
  (same_raise (p := .fen) (by decide)).2 rfl

theorem stopFaulted_soundKept (st : StreamId) (s : State) : SoundKept st s (stopFaulted st s) := by
  unfold stopFaulted
  split <;> exact soundKept_of_film rfl

theorem stopFaulted_onlyTouches (st : StreamId) (s : State) : OnlyTouches [.fen] s (stopFaulted st s) := fun p h => by
  have fen : p ≠ .fen := by simpa using h
  unfold stopFaulted
  split
  · exact (same_stopChannel fen).2 (Part.same_self _ _)
  · exact Part.same_self _ _

/-- R180: what follows an audio error leaves the notice slots and the clock. -/
theorem audioEnded_keeps (st : StreamId) (s : State) :
    (∀ m, slotCore (examineStream st (stopFaulted st (startReader st (retireDiscarded st s)))) m = slotCore s m) ∧
    (examineStream st (stopFaulted st (startReader st (retireDiscarded st s)))).clockNs = s.clockNs := by
  have examined : ∀ (u : State) m, slotCore (examineStream st u) m = slotCore u m := fun u m => by
    unfold examineStream completeClose
    simp only
    repeat' split
    all_goals simp
  obtain ⟨wai, clock⟩ : (stopFaulted st (startReader st (retireDiscarded st s))).wai = s.wai ∧
      (stopFaulted st (startReader st (retireDiscarded st s))).clockNs = s.clockNs := by
    refine ⟨Eq.trans (stopFaulted_onlyTouches st _ .wai (by decide)) ?_, Eq.trans (stopFaulted_onlyTouches st _ .clock (by decide)) ?_⟩
    · exact (same_startReader (p := .wai) (by decide) (by decide)).2 ((same_retireDiscarded (p := .wai) (by decide)).2 rfl)
    · exact (same_startReader (p := .clock) (by decide) (by decide)).2 ((same_retireDiscarded (p := .clock) (by decide)).2 rfl)
  refine ⟨fun m => (examined _ m).trans (slotCore_of_wai wai), ?_⟩
  exact ((same_examineStream (p := .clock) (by decide) (by decide)).2 rfl : _ = _).trans clock

theorem started_st_ne_error (rs : List Range) (dir : Direction) : (Channel.started rs dir).st ≠ .error := by
  unfold Channel.started
  simp only
  split <;> simp

theorem failed_st (addr : Nat) (c : Channel) : (c.failed addr).st = .error := by
  unfold Channel.failed
  split
  · assumption
  · rfl

theorem underrunWord_fault (st : StreamId) (f : Film) : underrunWord st 2 f
    = BitVec.ofNat 32 (512 + streamCode st + if f.st = .held then 65536 else 0) := by
  rw [underrunWord]
  congr 1
  by_cases h : f.st = .held <;> simp [bit, h] <;> omega

theorem discardFlying_eq_false (h : ∀ x ∈ s.fen.units, x.chan = .audio st → x.discard = false) : discardFlying s st = false := by
  rw [discardFlying, List.any_eq_false]
  intro x m
  by_cases mine : x.chan = .audio st
  · simp [h x m mine]
  · simp [mine]

/-- R107, R108: the only unit of an audio reader fails. -/
theorem audioUnit_failed (units : unitsFrom s us)
    (ht : t = settle (audioError st disc (channelFailed (.audio st) addr (unitsLeft k us s)))) :
    let a := (filmOf s st).audio
    let word : Word := BitVec.ofNat 32 (512 + streamCode st + if (filmOf s st).st = .held then 65536 else 0)
    (filmOf t st).audio.errors = a.errors + 1 ∧ (filmOf t st).audio.staging = a.staging ∧
    (filmOf t st).audio.underrun = a.underrun ∧ (filmOf t st).video.queue = (filmOf s st).video.queue ∧
    (∀ b rest, disc = false → a.queue = b :: rest →
      (filmOf t st).audio.queue = rest ∧ (filmOf t st).audio.lastError = b.token ∧
      (a.discarded = [] → (filmOf t st).audio.lastRetired = b.token) ∧
      noticeRaised .filmAudioUnderrun word b.token s t ∧
      (rest = [] ∨ (filmOf s st).st ≠ .opened → t.fen.audio.get st = idleChannel) ∧
      (∀ n more, rest = n :: more → (filmOf s st).st = .opened → (∀ x ∈ s.fen.units, x.chan = .audio st → x.discard = false) →
        t.fen.audio.get st = Channel.started [⟨n.addr.toNat + 4 * n.off, 4 * (n.len - n.off)⟩] ∧
        (filmOf t st).audio.reading = some n.token)) ∧
    (∀ token more, disc = true → a.discarded = token :: more →
      (filmOf t st).audio.queue = a.queue ∧ (filmOf t st).audio.lastError = token ∧
        noticeRaised .filmAudioUnderrun word token s t) := by
  intro a word
  generalize hv : channelFailed (.audio st) addr (unitsLeft k us s) = v at ht
  have film : filmOf v st = filmOf s st := by rw [← hv]; rfl
  have slots : ∀ m, slotCore v m = slotCore s m := fun m => by rw [← hv]; rfl
  have error : (v.fen.audio.get st).st = .error := by
    rw [← hv]
    show (((s.fen.audio.set st _).get st).st = .error)
    rw [PerStream.get_set, if_pos rfl]
    exact failed_st _ _
  have spared : (∀ x ∈ s.fen.units, x.chan = .audio st → x.discard = false) →
      ∀ x ∈ v.fen.units, x.chan = .audio st → x.discard = false := fun h x m mine => by
    rw [← hv] at m
    obtain ⟨y, my, chan, dis, -⟩ := mem_orphanUnits (us := us) m
    obtain ⟨z, mz, chan', dis'⟩ := units y my
    rw [dis, dis']
    exact h z mz (by rw [← chan', ← chan, mine])
  rw [audioError_eq] at ht
  -- the error has ended the head buffer
  have hx := filmOf_audioFaulted st disc v
  have xfen := audioFaulted_fen st disc v
  have notice : ∀ tok, failedToken a disc = tok → noticeRaised .filmAudioUnderrun word tok s t := by
    rintro tok rfl
    have raised : noticeRaised .filmAudioUnderrun (underrunWord st 2 (filmOf v st)) (failedToken (filmOf v st).audio disc) s t := by
      refine noticeRaised_of_raise (u := setAudio st ((filmOf v st).audio.faulted disc) v) (slots _) ?_ ?_
      · rw [ht, slotCore_settle (by decide)]
        exact (audioEnded_keeps st _).1 _
      · rw [ht, cabin_settle]
        exact (cabin_congr ((audioEnded_keeps st _).2.trans (raise_clockNs _ _ _ _))).symm
    rw [underrunWord_fault, film] at raised
    exact raised
  generalize audioFaulted st disc v = x at ht hx xfen
  have retired := retireDiscarded_soundKept st x
  have kept : SoundKept st x t := by
    rw [ht]
    exact retired.trans ((startReader_soundKept st _).trans ((stopFaulted_soundKept st _).trans
      ((examineStream_soundKept st _).trans (soundKept_of_film (filmOf_settle _ st)))))
  obtain ⟨staging, queue, errors, underrun, lastError⟩ := kept.audio_eq
  rw [film] at hx
  have xa : (filmOf x st).audio = a.faulted disc := by rw [hx]
  rw [errors, staging, underrun, kept.frames, queue, lastError, xa]
  refine ⟨rfl, by cases disc <;> rfl, by cases disc <;> rfl, by rw [hx], fun b rest live head => ?_, fun token more dead first => ?_⟩
  · subst live
    have whole := faulted_of_live head
    rw [whole] at xa ⊢
    have tok : failedToken a false = b.token := by simp [failedToken, head]
    have next : (filmOf (retireDiscarded st x) st).audio.queue = rest := by rw [retired.audio_eq.2.1, xa]
    have state : (filmOf (retireDiscarded st x) st).st = (filmOf s st).st := by rw [retireDiscarded_st, hx]
    have fen : (retireDiscarded st x).fen = v.fen := by rw [retireDiscarded_fen, xfen]
    have audio : t.fen.audio = (stopFaulted st (startReader st (retireDiscarded st x))).fen.audio := by
      rw [ht, settle_fen, examineStream_fen]
    refine ⟨rfl, rfl, fun empty => ?_, notice b.token tok, fun stops => ?_, fun n more e opened live => ?_⟩
    · rw [(kept.retired (by rw [xa]; exact empty)).2, xa]
    · rw [audio, startReader_of_idle (by rw [next, state]; exact stops), stopFaulted, fen, if_pos error]
      show (PerStream.set _ st idleChannel).get st = idleChannel
      rw [PerStream.get_set, if_pos rfl]
    · have quiet : discardFlying (retireDiscarded st x) st = false :=
        discardFlying_eq_false (by rw [fen]; exact spared live)
      have starts := startReader_of_error (next.trans e) (state.trans opened) quiet (by rw [fen]; exact error)
      have channel : (readerStarted st n (retireDiscarded st x)).fen.audio.get st
          = Channel.started [⟨n.addr.toNat + 4 * n.off, 4 * (n.len - n.off)⟩] := by
        show (PerStream.set _ st _).get st = _
        rw [PerStream.get_set, if_pos rfl]
        rfl
      have goes : stopFaulted st (readerStarted st n (retireDiscarded st x)) = readerStarted st n (retireDiscarded st x) :=
        if_neg (by rw [channel]; exact started_st_ne_error _ _)
      rw [audio, starts, goes, channel, ht, filmOf_settle, starts, goes]
      obtain ⟨-, played, sounds⟩ := examineStream_film st (readerStarted st n (retireDiscarded st x))
      rw [sounds, filmOf_readerStarted]
      exact ⟨rfl, rfl⟩
  · subst dead
    rw [faulted_of_discarded first]
    exact ⟨rfl, rfl, notice token (by simp [failedToken, first])⟩

end AudioFailures
/-! ## O51 -/

/-- R154: what the failure of a unit in flight tells the owner of its channel. -/
theorem unitInFlight_fails (s : State) (place : Nat) (data : List Byte) (u : FetchUnit) (unit : unitAt s.fen place = some u)
    (flying : u.phase = .inFlight) : ∀ c ∈ [Instr.readCompletion place false data, .unitTimeout place], ∃ t, exec c s = .next t ∧
      (c = .unitTimeout place → t.clockNs = max s.clockNs (u.deadline * 1000)) ∧
      ∃ k us, unitsFrom s us ∧
        t = settle (tellOwner u.chan u.addr u.discard (channelFailed u.chan u.addr (unitsLeft k us s))) := by
  intro c h
  obtain ⟨k, us, ran, clock, units⟩ := unit_fails unit flying h
  refine ⟨_, ran, fun e => ?_, k, us, units, rfl⟩
  rw [settle_clockNs, ← clock e]
  exact (same_tellOwner (p := .clock) (by decide)).2 rfl

/-- Settles O51, by the state in which a completion has handed its units over, and the one in which a channel has failed. -/
theorem unitsCompleteOrFail : Obligations.UnitsCompleteOrFail := by
  refine ⟨fun s place ok data u unit chan phase => ?_, fun s place data u r sole len toMove => ⟨?_, ?_, ?_, ?_, ?_⟩,
    fun s place data u v ok unit flying len oldest older other => younger_held ok unit flying len oldest older other,
    fun s place data later v w ok unit flying two held len => ⟨fun n chan => ?_, fun r chan moves more => ?_⟩,
    samplesOf_cons, fun s place data u unit flying c h => ?_,
    fun s place u unit orphan chan => unwanted_timesOut unit orphan chan,
    fun s place n u unit phase => timedOut_released unit phase⟩
  · refine ⟨_, exec_readCompletion place ok data s, ?_, ?_⟩ <;> rw [completion_of_unwanted unit chan phase]
    · exact units_onlyTouches _ s
    · rw [settle_units]; rfl
  · exact fun p slot chan reads busy inside => planeUnit_joins sole len toMove chan reads busy inside
  · intro p slot q chan reads plane busy last x bytes chroma
    obtain ⟨t, ran, free, next, got, lines, channel⟩ := planeUnit_ends sole len toMove chan reads plane busy last
    refine ⟨t, ran, free, next, got, lines, ?_⟩
    rw [channel, lines]
    rfl
  · exact fun st b rest chan queue => audioUnit_taken sole len chan queue
  · exact fun n chan => soundUnit_stored sole len chan toMove
  · exact fun chan => settingsUnit_staged sole len chan toMove
  · exact soundUnits_inOrder ok unit flying two held len chan
  · exact settingsUnits_inOrder ok unit flying two held len chan moves more
  · obtain ⟨t, ran, clock, k, us, units, ht⟩ := unitInFlight_fails s place data u unit flying c h
    refine ⟨t, ran, clock, fun p slot q chan plane kind => ?_, fun chan attached => ?_, fun chan attaching => ?_,
      fun n e chan entry => ?_, fun chan => ?_, fun st chan => ?_⟩ <;> rw [chan] at ht
    · rw [chan]; exact planeUnit_failed plane kind ht
    · exact workUnit_faults attached ht
    · exact workUnit_endsAttach attaching ht
    · obtain ⟨bank, loads, free, bulk, final⟩ :=
        failLoad_spec (v := channelFailed (.bulk (.sound n)) u.addr (unitsLeft k us s)) entry
      rw [ht, settle_che, settle_fen]
      exact ⟨bank, loads, free, bulk, fun q load taken => finalGiven_settle (final q load taken)⟩
    · exact settingsUnit_failed ht
    · exact audioUnit_failed units ht

/-! PROOFS. Chapter 8: attaching, the anchor, the initial board write and leaving; the statement of the link. -/

/-! ## Attaching (R163 to R165) -/

section Attach
variable {s t v : State} {b data : List Byte} {place : Nat} {u : FetchUnit} {i : WorkItem} {r : Range} {rest : List WorkItem} {a : Anchor}

theorem attachNow_begins (h : s.wai.st = .detached ∨ s.wai.st = .faulted) (aligned : s.wai.wbase.toNat % 4096 = 0) :
    attachNow s = handWork .anchorRead [⟨s.wai.wbase.toNat, 256⟩] [] (s.setWai { s.wai with
      st := .attaching, cause := .none, ignored := false, adjusted := false, base := s.wai.wbase.toNat, boardHanded := false }) := by
  rw [attachNow, if_neg (by rcases h with h | h <;> simp [h])]
  exact if_neg (by simpa using aligned)

theorem attachNow_misaligned (h : s.wai.st = .detached ∨ s.wai.st = .faulted) (misaligned : s.wai.wbase.toNat % 4096 ≠ 0) :
    attachNow s = failAttach .align (s.setWai { s.wai with
      st := .attaching, cause := .none, ignored := false, adjusted := false, base := s.wai.wbase.toNat, boardHanded := false }) := by
  rw [attachNow, if_neg (by rcases h with h | h <;> simp [h])]
  exact if_pos misaligned

/-- R163: an ATTACH in DETACHED or FAULTED. -/
theorem attach_begins (h : s.wai.st = .detached ∨ s.wai.st = .faulted) : ∃ t, exec .attach s = .next t ∧
    t.wai.ignored = false ∧ t.wai.adjusted = false ∧
    (if s.wai.wbase.toNat % 4096 = 0 then t.wai.st = .attaching ∧ t.wai.cause = .none ∧
      t.fen.work = s.fen.work ++ [⟨.anchorRead, Channel.started [⟨s.wai.wbase.toNat, 256⟩], []⟩]
    else t.wai.st = .detached ∧ t.wai.cause = .align ∧ t.fen = s.fen) := by
  refine ⟨settle (attachNow s), rfl, ?_⟩
  split
  · rename_i aligned
    rw [attachNow_begins h aligned, settle_of_not_attached (by simp [handWork])]
    exact ⟨rfl, rfl, rfl, rfl, rfl⟩
  · rename_i misaligned
    rw [attachNow_misaligned h misaligned, settle_of_not_attached (by simp [failAttach])]
    exact ⟨rfl, rfl, rfl, rfl, rfl⟩

/-- R163: an ATTACH in the other states is ignored. -/
theorem attach_ignored (h : s.wai.st = .attaching ∨ s.wai.st = .attached) : ∃ t, exec .attach s = .next t ∧
    t.wai.ignored = true ∧ t.wai.st = s.wai.st ∧ t.wai.cause = s.wai.cause ∧ t.wai.anchor = s.wai.anchor ∧
    t.fen.window = s.fen.window := by
  have link : Part.link.same (s.setWai { s.wai with ignored := true }) (settle (s.setWai { s.wai with ignored := true })) :=
    (same_settle (by decide) (by decide)).2 (Part.same_self _ _)
  obtain ⟨st, cause, ignored, -, anchor, window⟩ := link
  refine ⟨settle (attachNow s), rfl, ?_⟩
  rw [attachNow, if_pos h]
  exact ⟨ignored, st, cause, anchor, window⟩

/-- R164: the checks of the regions. -/
theorem overlaps_iff {pages ring board : Nat} (h : 4 ≤ pages) :
    (overlap 0 256 ring (1024 * pages) || overlap 0 256 board 4096 || overlap ring (1024 * pages) board 4096) = true ↔
      ¬ (256 ≤ ring ∧ 256 ≤ board ∧ (ring + 1024 * pages ≤ board ∨ board + 4096 ≤ ring)) := by
  simp only [overlap, Bool.or_eq_true, Bool.and_eq_true, decide_eq_true_eq]
  omega

/-- R164: the first check that an anchor fails. -/
theorem anchorFault_eq (b : List Byte) :
    let pages := (u32At b 4).toNat
    let ring := (u32At b 32).toNat
    let board := (u32At b 36).toNat
    let apart := 256 ≤ ring ∧ 256 ≤ board ∧ (ring + 1024 * pages ≤ board ∨ board + 4096 ≤ ring)
    anchorFault b = (if u32At b 0 ≠ 0x41574346 then some .magic
      else if pages < 4 ∨ 32 < pages then some .pageCount
      else if ring % 1024 ≠ 0 ∨ board % 64 ≠ 0 then some .align
      else if ¬ apart then some .overlap
      else if 2 ^ 64 < (u64At b 16).toNat + (u64At b 24).toNat then some .window
      else none) := by
  simp only [anchorFault]
  by_cases few : (u32At b 4).toNat < 4 ∨ 32 < (u32At b 4).toNat
  · simp only [if_pos few]
  · have same := overlaps_iff (pages := (u32At b 4).toNat) (ring := (u32At b 32).toNat) (board := (u32At b 36).toNat) (by omega)
    simp only [if_congr same rfl rfl]
    rfl

/-- The state in which the initial board write is handed: the board's counter and slots, and WORK's four transfers. -/
theorem handBoard_spec (a : Anchor) (anchor : v.wai.anchor = some a) :
    (handBoard v).wai = { v.wai with
      counter := nextOdd v.wai.counter + 1, slots := v.wai.slots.map (fun x => { x with dirty := false }), wanted := false,
      boardHanded := true } ∧
    (handBoard v).fen = { v.fen with work := v.fen.work ++
      [⟨.write, Channel.started [⟨a.board, 64⟩] .write, boardHeader (nextOdd v.wai.counter) (cabin v)⟩,
        ⟨.write, Channel.started [⟨a.board + 64, (slotTableBytes v.wai.slots).length⟩] .write, slotTableBytes v.wai.slots⟩,
        ⟨.write, Channel.started [⟨a.board + 704, (mirrorBytes v).length⟩] .write, mirrorBytes v⟩,
        ⟨.lastBoardWrite, Channel.started [⟨a.board, 64⟩] .write, boardHeader (nextOdd v.wai.counter + 1) (cabin v)⟩] } := by
  have header : ∀ c, (boardHeader c (cabin v)).length = 64 := fun c => by simp [boardHeader, leBytes, zeros]
  have board : boardAddr v = a.board := by rw [boardAddr, anchor]
  have whole : (handBoard v).fen = { v.fen with work := v.fen.work ++
      [⟨.write, Channel.started [⟨boardAddr v, (boardHeader (nextOdd v.wai.counter) (cabin v)).length⟩] .write,
          boardHeader (nextOdd v.wai.counter) (cabin v)⟩] ++
      [⟨.write, Channel.started [⟨boardAddr v + 64, (slotTableBytes v.wai.slots).length⟩] .write, slotTableBytes v.wai.slots⟩] ++
      [⟨.write, Channel.started [⟨boardAddr v + 704, (mirrorBytes v).length⟩] .write, mirrorBytes v⟩] ++
      [⟨.lastBoardWrite, Channel.started [⟨boardAddr v, (boardHeader (nextOdd v.wai.counter + 1) (cabin v)).length⟩] .write,
          boardHeader (nextOdd v.wai.counter + 1) (cabin v)⟩] } := rfl
  refine ⟨rfl, ?_⟩
  rw [whole, board, header, header]
  simp only [List.append_assoc, List.cons_append, List.nil_append]

/-- R184: of the interface's record, the mirrors show the expected sequence, the taken pages and the anchor. -/
theorem mirrorBytes_handBoard (anchor : v.wai.anchor = some a) : mirrorBytes (handBoard v) = mirrorBytes v := by
  have same : ∀ p : Part, p ≠ .wai → p ≠ .fen → p.same v (handBoard v) := fun p w f => (same_handBoard w f).2 (Part.same_self p v)
  have wai : waiMirror (handBoard v).wai = waiMirror v.wai := by rw [(handBoard_spec a anchor).1, waiMirror, waiMirror]
  rw [mirrorBytes, mirrorBytes, wai, same .vsr (by decide) (by decide), same .smn (by decide) (by decide),
    same .cin (by decide) (by decide), same .vwc (by decide) (by decide), same .glg (by decide) (by decide),
    same .che (by decide) (by decide), same .mix (by decide) (by decide), same .sto (by decide) (by decide)]
  simp only [pipeOf_of_same (same .cmp (by decide) (by decide)), filmOf_of_same (same .flm (by decide) (by decide))]

theorem handData_anchor (work : s.fen.work = [i]) (job : i.job = .anchorRead) (toMove : i.chan.toMove = [r]) (all : r.len ≤ data.length)
    (disc : Bool) : handData .work disc data s = anchorRead (i.data ++ data) (s.setFen { s.fen with work := [] }) := by
  have left : advance data.length i.chan.toMove = [] := by rw [toMove]; exact if_pos all
  rw [handData, workArrived, work]
  simp only [left, List.isEmpty_nil, if_true, job, popWork, work, List.tail_cons]

theorem anchorRead_units (b : List Byte) (s : State) : (anchorRead b s).fen.units = s.fen.units := by
  unfold anchorRead
  split <;> rfl

/-- The state in which a good anchor is taken. -/
def anchorTaken (b : List Byte) (s : State) : State := s.setWai { s.wai with
  anchor := some (anchorFields s.wai.base b), adjusted := anchorAdjusted b, expected := 1, taken := [], answers := [] }

theorem anchorRead_of_good (h : anchorFault b = none) (s : State) : anchorRead b s = handBoard (anchorTaken b s) := by
  rw [anchorRead, h]
  rfl

theorem anchorRead_of_bad {c : AttachCause} (h : anchorFault b = some c) (s : State) : anchorRead b s = failAttach c s := by
  rw [anchorRead, h]

theorem anchorAdjusted_iff (b : List Byte) : anchorAdjusted b = true ↔ u32At b 8 = 0 ∨ 20 < (u32At b 8).toNat ∨ 10 < (u32At b 12).toNat := by
  simp [anchorAdjusted, or_assoc]

theorem anchorRead_st (attaching : s.wai.st = .attaching) (b : List Byte) : (anchorRead b s).wai.st ≠ .attached := by
  cases h : anchorFault b with
  | none =>
    rw [anchorRead_of_good h, (handBoard_spec (v := anchorTaken b s) _ rfl).1]
    simp [anchorTaken, attaching]
  | some c => rw [anchorRead_of_bad h]; simp [failAttach]

/-- R164, R165: the anchor's checks at the completion of its read, and what a good one leads to. -/
theorem anchor_completes (sole : soleUnit s place u) (chan : u.chan = .work) (attaching : s.wai.st = .attaching) (work : s.fen.work = [i])
    (job : i.job = .anchorRead) (toMove : i.chan.toMove = [r]) (all : u.len = r.len) (len : data.length = u.len) :
    let b := i.data ++ data
    ∃ t, exec (.readCompletion place true data) s = .next t ∧ t.sysMem = s.sysMem ∧
      (∀ cause, anchorFault b = some cause → t.wai.st = .detached ∧ t.wai.cause = cause ∧ t.wai.anchor = none ∧ t.fen.work = [] ∧
        t.wai.counter = s.wai.counter ∧ t.wai.expected = s.wai.expected) ∧
      (anchorFault b = none →
        let board := s.wai.base + (u32At b 36).toNat
        let odd := if s.wai.counter.getLsbD 0 then s.wai.counter + 2 else s.wai.counter + 1
        t.wai.st = .attaching ∧ t.wai.cause = s.wai.cause ∧
        t.wai.anchor = some
          { pages := (u32At b 4).toNat
            period := if u32At b 8 = 0 then 4 else min (u32At b 8).toNat 20
            msi := min (u32At b 12).toNat 10
            winBase := (u64At b 16).toNat
            winSize := (u64At b 24).toNat
            ring := s.wai.base + (u32At b 32).toNat
            board := board } ∧
        (t.wai.adjusted = true ↔ u32At b 8 = 0 ∨ 20 < (u32At b 8).toNat ∨ 10 < (u32At b 12).toNat) ∧
        t.wai.expected = 1 ∧ t.wai.taken = [] ∧ t.wai.answers = [] ∧ t.wai.wanted = false ∧ (∀ x ∈ t.wai.slots, x.dirty = false) ∧
        t.wai.counter = odd + 1 ∧
        t.fen.work = [⟨.write, Channel.started [⟨board, 64⟩] .write, boardHeader odd (cabin s)⟩,
          ⟨.write, Channel.started [⟨board + 64, (slotTableBytes s.wai.slots).length⟩] .write, slotTableBytes s.wai.slots⟩,
          ⟨.write, Channel.started [⟨board + 704, (mirrorBytes t).length⟩] .write, mirrorBytes t⟩,
          ⟨.lastBoardWrite, Channel.started [⟨board, 64⟩] .write, boardHeader (odd + 1) (cabin s)⟩]) := by
  intro b
  obtain ⟨us, handed, whole⟩ := completion_of_sole sole len
  rw [chan] at handed whole
  generalize hv : s.setFen { s.fen with units := us } = v at whole
  rw [handData_anchor (by rw [← hv]; exact work) job toMove (by omega)] at whole
  generalize hw : v.setFen { v.fen with work := [] } = w at whole
  have wai : w.wai = s.wai := by rw [← hw, ← hv]; rfl
  have empty : w.fen.work = [] := by rw [← hw]; rfl
  have memory : w.sysMem = s.sysMem := by rw [← hw, ← hv]; rfl
  have time : cabin w = cabin s := by rw [← hw, ← hv]; rfl
  have units : HandedOver .work place (anchorRead b w).fen.units := by
    rw [anchorRead_units, ← hw, ← hv]; exact handed
  rw [exec_readCompletion, whole units, settle_of_not_attached (anchorRead_st (by rw [wai]; exact attaching) b)]
  refine ⟨_, rfl, ?_, fun cause bad => ?_, fun good => ?_⟩
  · rw [← memory]
    exact (same_anchorRead (p := .sysMem) (by decide) (by decide) (by decide)).2 rfl
  · rw [anchorRead_of_bad bad]
    exact ⟨rfl, rfl, rfl, empty, (congrArg Wai.counter wai :), (congrArg Wai.expected wai :)⟩
  · intro board odd
    rw [anchorRead_of_good good, mirrorBytes_handBoard (v := anchorTaken b w) rfl]
    obtain ⟨record, fen⟩ := handBoard_spec (v := anchorTaken b w) (anchorFields w.wai.base b) rfl
    rw [record, fen]
    have kept : (anchorTaken b w).wai.counter = s.wai.counter ∧ (anchorTaken b w).wai.slots = s.wai.slots := by
      rw [anchorTaken, ← wai]; exact ⟨rfl, rfl⟩
    have taken : cabin (anchorTaken b w) = cabin s := time
    have list : (anchorTaken b w).fen.work = [] := empty
    have fields : anchorFields w.wai.base b = anchorFields s.wai.base b := by rw [wai]
    rw [list, List.nil_append, taken, kept.1, kept.2]
    refine ⟨(congrArg Wai.st wai :).trans attaching, (congrArg Wai.cause wai :), congrArg some fields, anchorAdjusted_iff b, rfl, rfl, rfl, rfl,
      fun x m => ?_, rfl, by rw [fields]; rfl⟩
    obtain ⟨y, -, rfl⟩ := List.mem_map.1 m
    rfl

end Attach
/-! ## Leaving, and the end of the initial board write (R158, R165 to R169) -/

section Leave
variable {s t v : State} {u : Range} {i : WorkItem} {rest : List WorkItem} {a : Anchor}

theorem detachNow_detached (h : s.wai.st = .detached) : detachNow s = s := by rw [detachNow, h]
theorem detachNow_attaching (h : s.wai.st = .attaching) : detachNow s = exitAttaching s := by rw [detachNow, h]
theorem detachNow_attached (h : s.wai.st = .attached) : detachNow s = exitAttached .detached s.wai.cause s := by rw [detachNow, h]
theorem detachNow_faulted (h : s.wai.st = .faulted) : detachNow s = s.setWai { s.wai with st := .detached } := by rw [detachNow, h]

/-- R166: DETACH ends in DETACHED from every state, and keeps the cause, the counter and the expected sequence. -/
theorem detachNow_wai (s : State) : (detachNow s).wai.st = .detached ∧ (detachNow s).wai.cause = s.wai.cause ∧
    (detachNow s).wai.counter = s.wai.counter ∧ (detachNow s).wai.expected = s.wai.expected := by
  cases h : s.wai.st with
  | detached => rw [detachNow_detached h]; exact ⟨h, rfl, rfl, rfl⟩
  | attaching => rw [detachNow_attaching h]; exact ⟨rfl, rfl, rfl, rfl⟩
  | attached =>
    obtain ⟨-, xs, record⟩ := exitAttached_wai (new := .detached) (by simp) s.wai.cause s
    rw [detachNow_attached h, record]
    exact ⟨rfl, rfl, rfl, rfl⟩
  | faulted => rw [detachNow_faulted h]; exact ⟨rfl, rfl, rfl, rfl⟩

theorem detachNow_work (h : s.wai.st ≠ .detached) (k : s.wai.st ≠ .faulted) : (detachNow s).fen.work = [] := by
  cases e : s.wai.st with
  | detached => exact absurd e h
  | faulted => exact absurd e k
  | attaching => rw [detachNow_attaching e]; rfl
  | attached => rw [detachNow_attached e]; exact (exitAttached_readers .detached s.wai.cause s).1

/-- R166, R167: a DETACH. -/
theorem detach_leaves (s : State) : ∃ t, exec .detach s = .next t ∧ t.wai.st = .detached ∧ t.wai.cause = s.wai.cause ∧
    (s.wai.st = .detached → t = s) ∧
    (s.wai.st = .attaching → t.wai.anchor = none ∧ t.fen.work = [] ∧ t.wai.wanted = false ∧
      t.wai.slots = s.wai.slots.map (fun x => { x with dirty := false })) ∧
    (s.wai.st = .attached → t.wai.anchor = none ∧ t.fen.work = [] ∧ t.fen.window = none ∧ t.wai.taken = [] ∧
      t.wai.answers = [] ∧ t.wai.scanQueue = [] ∧ t.wai.scanTimer = none ∧ t.wai.msiTimer = none ∧ t.wai.wanted = false ∧
      t.wai.expected = s.wai.expected ∧ (∀ st, (filmOf t st).st = .closed) ∧
      (∀ p, ∀ e ∈ (pipeOf t p).active.slots, ∀ q, e = some q → q.kind = .fill) ∧
      (∀ p, ∀ slot < 6, channelOf t.fen (.plane p slot) = idleChannel) ∧ (∀ st, channelOf t.fen (.audio st) = idleChannel)) ∧
    (s.wai.st = .faulted → OnlyTouches [.wai, .link] s t) := by
  obtain ⟨st, cause, -, -⟩ := detachNow_wai s
  refine ⟨detachNow s, congrArg Host.Outcome.next (settle_of_not_attached (by simp [st])), st, cause, detachNow_detached, fun h => ?_,
    fun h => ?_, fun h p k => ?_⟩
  · rw [detachNow_attaching h]; exact ⟨rfl, rfl, rfl, rfl⟩
  · obtain ⟨window, xs, record⟩ := exitAttached_wai (new := .detached) (by simp) s.wai.cause s
    obtain ⟨work, planes, audio⟩ := exitAttached_readers .detached s.wai.cause s
    obtain ⟨films, scenes⟩ := exitAttached_screens .detached s.wai.cause s
    rw [detachNow_attached h, record]
    exact ⟨rfl, work, window, rfl, rfl, rfl, rfl, rfl, rfl, rfl, films, scenes, planes, audio⟩
  · simp only [List.mem_cons, List.not_mem_nil, or_false, not_or] at k
    rw [detachNow_faulted h]
    simp [k]

/-- R158, R169: a link reset. -/
theorem linkReset_clears (s : State) : ∃ t, exec .linkReset s = .next t ∧ t.wai.st = .detached ∧ t.wai.cause = .none ∧
    t.wai.ignored = false ∧ t.wai.adjusted = false ∧ t.wai.wbase = 0 ∧ t.wai.timeLatch = 0 ∧ t.fen.units = [] ∧
    t.wai.counter = s.wai.counter ∧ t.wai.expected = s.wai.expected ∧
    (s.wai.st ≠ .detached → s.wai.st ≠ .faulted → t.fen.work = []) := by
  obtain ⟨st, -, counter, expected⟩ := detachNow_wai s
  refine ⟨linkResetNow s, congrArg Host.Outcome.next (settle_of_not_attached ?_), ?_⟩
  · rw [linkResetNow]
    generalize detachNow s = v at st
    simp [st]
  · rw [linkResetNow]
    have work := detachNow_work (s := s)
    generalize detachNow s = v at st counter expected work
    exact ⟨st, rfl, rfl, rfl, rfl, rfl, rfl, counter, expected, work⟩

/-! ### The last unit of the initial board write -/

/-- R165: the last unit of the last board transfer is issued. -/
theorem grantWork_lastBoardWrite (work : s.fen.work = i :: rest) (job : i.job = .lastBoardWrite) (last : advance u.len i.chan.toReq = []) :
    ∃ done, grantWork u s = attachComplete (popWork ((writeSystem u.addr (i.data.take u.len) s).setFen { s.fen with work := done :: rest })) := by
  refine ⟨{ i with chan := { i.chan with toReq := [], toMove := [] }, data := i.data.drop u.len }, ?_⟩
  rw [grantWork, work]
  simp only [last, job, List.isEmpty_nil, if_true, if_neg (show WorkJob.lastBoardWrite ≠ .msi by simp)]
  rfl

/-- R147: a write unit of WORK needs no window, takes no turn and no place. -/
theorem systemGrant_work (choice : systemChoice s = some .work) (work : s.fen.work = i :: rest) (job : i.job = .lastBoardWrite)
    (unit : nextUnit .work i.chan.toReq = some u) : systemGrant s = grantWork u s := by
  have request : channelOf s.fen .work = i.chan := by rw [channelOf, work]
  have writes : writesSystem s.fen .work = true := by simp [writesSystem, work, job]
  rw [systemGrant, choice]
  simp only [request, unit]
  rw [grantUnit, if_pos (show windowOk s .work u = true from rfl)]
  have turn : s.setFen (turnAfter .work s.fen) = s := rfl
  rw [turn]
  simp only [writes, if_true]

theorem attachComplete_of_anchor (anchor : s.wai.anchor = some a) : attachComplete s =
    (s.setWai { s.wai with st := .attached, scanTimer := some (now s + 1000 * a.period) }).setFen
      { s.fen with window := some ⟨a.winBase, a.winSize⟩ } := by
  rw [attachComplete, anchor]

theorem raise_scanTimer (k : NoticeKind) (a b : Word) (s : State) : (raise k a b s).wai.scanTimer = s.wai.scanTimer := by
  unfold raise
  split
  · rfl
  · split <;> rfl

theorem finalHanded_scanTimer (q : Bool) (r : RecordRef) (st : Status) (c : Bool) (s : State) :
    (finalHanded q r st c s).wai.scanTimer = s.wai.scanTimer := by
  have checked : ∀ v : State, (checkPage q r v).wai.scanTimer = v.wai.scanTimer := fun v => by
    unfold checkPage answerPage
    simp only
    repeat' split
    all_goals rfl
  rw [finalHanded, checked, raise_scanTimer]
  split <;> rfl

theorem handOne_scanTimer (e : handOne s = some t) : t.wai.scanTimer = s.wai.scanTimer := by
  obtain ⟨-, -, rfl⟩ | ⟨j, q, -, rfl⟩ | ⟨x, q, -, rfl⟩ | ⟨m, -, rfl⟩ | ⟨-, rfl⟩ := handOne_cases e
  · unfold endScan
    simp only
    split <;> rfl
  · cases j with
    | answer r st n final counted =>
      simp only [handScan]
      split
      · rw [finalHanded_scanTimer]; rfl
      · rfl
    | look =>
      simp only [handScan, lookPage]
      split <;> rfl
    | _ => rfl
  · cases x with
    | final r st => rw [handQueued, finalHanded_scanTimer]; rfl
    | header page bytes => rfl
  · unfold handSlot
    split <;> rfl
  · rfl

/-- R171: what WAI hands at the end of a command leaves the scan period timer. -/
theorem settle_scanTimer (s : State) : (settle s).wai.scanTimer = s.wai.scanTimer := by
  have loop : ∀ n (x : State), (handLoop n x).wai.scanTimer = x.wai.scanTimer := by
    intro n
    induction n with
    | zero => exact fun _ => rfl
    | succ n ih =>
      intro x
      unfold handLoop
      split
      · rename_i y e; exact (ih y).trans (handOne_scanTimer e)
      · rfl
  exact loop 64 s

/-- R165: WAI is ATTACHED. -/
theorem boardWritten_attaches (choice : systemChoice s = some .work) (work : s.fen.work = i :: rest) (job : i.job = .lastBoardWrite)
    (unit : nextUnit .work i.chan.toReq = some u) (last : advance u.len i.chan.toReq = []) (anchor : s.wai.anchor = some a) :
    ∃ t, exec .systemPortGrant s = .next t ∧ t.wai.st = .attached ∧ t.wai.anchor = some a ∧
      t.fen.window = some ⟨a.winBase, a.winSize⟩ ∧ t.wai.scanTimer = some (now s + 1000 * a.period) ∧
      t.sysMem = Memory.writeBytes systemSize s.sysMem u.addr (i.data.take u.len) := by
  obtain ⟨done, granted⟩ := grantWork_lastBoardWrite work job last
  generalize hv : popWork ((writeSystem u.addr (i.data.take u.len) s).setFen { s.fen with work := done :: rest }) = v at granted
  have kept : v.wai.anchor = some a := by rw [← hv]; exact anchor
  have instant : now v = now s := by rw [← hv]; rfl
  have memory : v.sysMem = Memory.writeBytes systemSize s.sysMem u.addr (i.data.take u.len) := by rw [← hv]; rfl
  rw [attachComplete_of_anchor kept, instant] at granted
  generalize hw : (v.setWai { v.wai with st := .attached, scanTimer := some (now s + 1000 * a.period) }).setFen
    { v.fen with window := some ⟨a.winBase, a.winSize⟩ } = w at granted
  have link : Part.link.same w (settle w) := (same_settle (by decide) (by decide)).2 (Part.same_self _ _)
  obtain ⟨st, -, -, -, anchored, window⟩ := link
  refine ⟨settle w, ?_, ?_, ?_, ?_, ?_, ?_⟩
  · rw [← granted, ← systemGrant_work choice work job unit]; rfl
  · rw [st, ← hw]; rfl
  · rw [anchored, ← hw]; exact kept
  · rw [window, ← hw]; rfl
  · rw [settle_scanTimer, ← hw]; rfl
  · rw [settle_sysMem, ← hw]; exact memory

end Leave

/-- Settles O53, by the state each of the commands leaves, which but for the last one hands nothing. -/
theorem attachDetachAndLinkReset : Obligations.AttachDetachAndLinkReset :=
  ⟨fun _ h => attach_begins h, fun _ h => attach_ignored h, detach_leaves, linkReset_clears, anchorFault_eq,
    fun _ _ _ _ _ _ sole chan attaching work job toMove all len => anchor_completes sole chan attaching work job toMove all len,
    fun _ _ _ _ _ choice work job unit last anchor => boardWritten_attaches choice work job unit last anchor⟩

end Sys2Proof.Machine

/-! PROOFS. Chapter 5: a stream's record after each operation of the film streams, the frames that presentation and retirement move, the
answer of a request that completes as it is taken, and the statements of the film streams. -/

namespace Sys2Proof.Machine

/-! ## The streams' records -/

section StreamRecords
variable {s : State} {st q : StreamId}

theorem filmOf_raise (k : NoticeKind) (a b : Word) (s : State) (st : StreamId) : filmOf (raise k a b s) st = filmOf s st :=
  filmOf_of_same ((same_raise (by decide)).2 rfl) st

theorem film_of_answer {r : RecordRef} (a : Answer) (s : State) (st : StreamId) :
    filmOf (settle (enterAnswer r a s)) st = filmOf s st := by
  rw [filmOf_settle]; exact filmOf_of_same ((same_enterAnswer (by decide)).2 rfl) st

theorem filmOf_setVideo (st : StreamId) (v : FilmVideo) (s : State) :
    filmOf (setVideo st v s) st = { filmOf s st with video := v } := by
  rw [setVideo, filmOf_setFilm, if_pos rfl]

theorem filmOf_setFilm_other (h : st ≠ q) (x : Film) (s : State) : filmOf (setFilm q x s) st = filmOf s st := by
  rw [filmOf_setFilm, if_neg h]

theorem filmOf_setVideo_other (h : st ≠ q) (v : FilmVideo) (s : State) : filmOf (setVideo q v s) st = filmOf s st :=
  filmOf_setFilm_other h _ s

theorem filmOf_setAudio_other (h : st ≠ q) (a : FilmAudio) (s : State) : filmOf (setAudio q a s) st = filmOf s st :=
  filmOf_setFilm_other h _ s

theorem withStream_of_code {c : Byte} (h : streamOfCode c = some st) (s : State) (k : StreamId → State × Answer) :
    withStream c s k = k st := by
  rw [withStream, h]

/-- Of two streams in turn, each finds its record as it was before both. -/
theorem filmOf_onStreams {f : StreamId → State → State} (other : ∀ q st u, st ≠ q → filmOf (f q u) st = filmOf u st)
    (st : StreamId) (s : State) :
    ∃ u, (u = s ∨ u = f .a s) ∧ filmOf u st = filmOf s st ∧ filmOf (onStreams f s) st = filmOf (f st u) st := by
  cases st with
  | a => exact ⟨s, .inl rfl, rfl, other .b .a _ (by decide)⟩
  | b => exact ⟨f .a s, .inr rfl, other .a .b s (by decide), rfl⟩

end StreamRecords

/-! ## Retirement (R98, R101) -/

section Retirement
variable {s : State} {st q : StreamId} {p : PipeId} {f g : Frame} {l : List Frame} {v : FilmVideo}

theorem mem_insertFrame : g ∈ insertFrame f l ↔ g = f ∨ g ∈ l := by
  induction l with
  | nil => simp [insertFrame]
  | cons a l ih =>
    unfold insertFrame
    split
    · simp
    · simp only [List.mem_cons, ih]; tauto

theorem mem_insertFrames {fs : List Frame} : g ∈ insertFrames fs l ↔ g ∈ fs ∨ g ∈ l := by
  unfold insertFrames
  induction fs generalizing l with
  | nil => simp
  | cons f fs ih => simp only [List.foldl_cons, ih, mem_insertFrame, List.mem_cons]; tauto

/-- R100: a frame that a pipe's latch holds. -/
theorem latched_of_get (held : v.latches.get p = some f) : latched v.latches f.token = true := by
  cases p <;> simp only [PerPipe.get] at held <;> simp [latched, held]

theorem mem_retireList (stays : retirable v f.token = false) (last : Word) (m : f ∈ l) : f ∈ (retireList v last l).1 := by
  induction l generalizing last with
  | nil => cases m
  | cons a l ih =>
    unfold retireList
    split
    · rename_i retires
      obtain rfl | m := List.mem_cons.1 m
      · rw [stays] at retires; cases retires
      · exact ih a.token m
    · exact m

/-- R101: a frame that a pipe's latch holds does not retire. -/
theorem mem_retire (held : v.latches.get p = some f) (m : f ∈ v.retiring) : f ∈ (retire v).retiring :=
  mem_retireList (by simp [retirable, latched_of_get held]) v.lastRetired m

theorem retire_of_empty (h : v.retiring = []) : (retire v).retiring = [] := by
  rw [retire, h]; rfl

theorem completeFlush_other (h : st ≠ q) (s : State) : filmOf (completeFlush q s) st = filmOf s st := by
  unfold completeFlush
  simp only
  split
  · rfl
  · rw [filmOf_completeRequest, filmOf_setFilm_other h]

theorem examineStream_other (h : st ≠ q) (s : State) : filmOf (examineStream q s) st = filmOf s st := by
  have closed : filmOf (completeClose q s) st = filmOf s st := by
    unfold completeClose
    simp only
    split
    · rfl
    · rw [filmOf_completeRequest, filmOf_setFilm_other h, completeFlush_other h]
  unfold examineStream
  simp only
  split
  · split
    · exact closed
    · rfl
  · split
    · exact completeFlush_other h s
    · rfl

theorem retireStream_other (h : st ≠ q) (s : State) : filmOf (retireStream q s) st = filmOf s st := by
  rw [retireStream, examineStream_other h, filmOf_setVideo_other h]

theorem video_retireStream (st : StreamId) (s : State) : (filmOf (retireStream st s) st).video = retire (filmOf s st).video := by
  rw [retireStream, (examineStream_film st _).1, filmOf_setVideo]

end Retirement

/-! ## OPEN_STREAM, QUEUE_FRAME and QUEUE_AUDIO (R94 to R96, R103) -/

section Requests
variable {s : State} {r : RecordRef} {st : StreamId}

theorem exec_openStream (h : canTake r s = true) (c : OpenParams) : exec (.openStream r c) s =
    .next (settle (enterAnswer r (ownOpenStream c (answerPlaced r s)).2 (ownOpenStream c (answerPlaced r s)).1)) :=
  request_of_canTake h
theorem exec_queueFrame (h : canTake r s = true) (c : FrameParams) : exec (.queueFrame r c) s =
    .next (settle (enterAnswer r (ownQueueFrame c (answerPlaced r s)).2 (ownQueueFrame c (answerPlaced r s)).1)) :=
  request_of_canTake h
theorem exec_queueAudio (h : canTake r s = true) (c : AudioParams) : exec (.queueAudio r c) s =
    .next (settle (enterAnswer r (ownQueueAudio c (answerPlaced r s)).2 (ownQueueAudio c (answerPlaced r s)).1)) :=
  request_of_canTake h

theorem ownOpenStream_isOpen {c : OpenParams} (code : streamOfCode c.stream = some st) (isOpen : (filmOf s st).st ≠ .closed) :
    ownOpenStream c s = (s, answerState .isOpen) := by
  rw [ownOpenStream, withStream_of_code code]
  exact if_pos isOpen

/-- R94, R95: the record that an OPEN_STREAM opens. -/
def openedFilm (c : OpenParams) (pacing : PipeId) (low : Bool) : Film :=
  { resetFilm with
    st := if low then .held else .opened
    format := c.format.toNat
    width := c.width.toNat
    height := c.height.toNat
    pacing := pacing }

/-- R95: an OPEN_STREAM that passes its checks. -/
theorem ownOpenStream_opens {c : OpenParams} {pacing : PipeId} (code : streamOfCode c.stream = some st)
    (closed : (filmOf s st).st = .closed) (format : c.format = 0 ∨ c.format = 1) (w1 : 16 ≤ c.width.toNat) (w2 : c.width.toNat ≤ 1920)
    (h1 : 16 ≤ c.height.toNat) (h2 : c.height.toNat ≤ 1080)
    (even : c.format = 0 → c.width.toNat % 2 = 0 ∧ c.height.toNat % 2 = 0) (pipe : pipeOfCode c.pacing = some pacing) :
    ownOpenStream c s = (setFilm st (openedFilm c pacing s.smn.low) s, answerDone) := by
  have size : ¬ (c.width.toNat < 16 ∨ 1920 < c.width.toNat ∨ c.height.toNat < 16 ∨ 1080 < c.height.toNat ∨
      (c.format = 0 ∧ (c.width.toNat % 2 = 1 ∨ c.height.toNat % 2 = 1))) := by
    rintro (k | k | k | k | ⟨ycc, odd⟩)
    case inr.inr.inr.inr => have := even ycc; omega
    all_goals omega
  rw [ownOpenStream, withStream_of_code code]
  simp only
  rw [if_neg (not_not.2 closed), if_neg (by tauto), if_neg size, pipe]
  rfl

/-- Settles O34: the refusal of an open stream, and the record that is opened. -/
theorem openStreamOpensAFreshRecord : Obligations.OpenStreamOpensAFreshRecord := by
  refine fun s r c st take code => ⟨_, exec_openStream take c, fun isOpen => ?_,
    fun pacing closed format w1 w2 h1 h2 even pipe => ?_⟩
  · rw [ownOpenStream_isOpen (s := answerPlaced r s) code isOpen]
    exact answerAlone _
  · rw [ownOpenStream_opens (s := answerPlaced r s) code closed format w1 w2 h1 h2 even pipe]
    simp only [film_of_answer, filmOf_setFilm, if_true]
    exact ⟨rfl, rfl, rfl, rfl, rfl, rfl, rfl, rfl, fun q other => if_neg other,
      answered_of_awaited (answerAwaited_congr rfl (answerAwaited_placed r s))⟩

/-- R96: a token that is not greater than the last queued one. -/
theorem ownQueueFrame_tokenOrder {c : FrameParams} (code : streamOfCode c.stream = some st) (opened : (filmOf s st).st ≠ .closed)
    (stays : (filmOf s st).closing = false) (old : c.token ≤ (filmOf s st).video.lastQueued) :
    ownQueueFrame c s = (s, answerInvalid .tokenOrder) := by
  rw [ownQueueFrame, withStream_of_code code]
  simp only
  rw [if_neg opened, if_neg (by simp [stays]), if_pos old]

/-- R96: the frame that a QUEUE_FRAME carries. -/
def frameOf (c : FrameParams) : Frame := ⟨c.token, c.luma, c.chroma, c.stride.toNat, c.time⟩

/-- R96: a frame that passes its checks, and finds room or none. -/
theorem ownQueueFrame_checked {c : FrameParams} (code : streamOfCode c.stream = some st) (opened : (filmOf s st).st ≠ .closed)
    (stays : (filmOf s st).closing = false) (new : (filmOf s st).video.lastQueued < c.token) (aligned : c.stride.toNat % 64 = 0)
    (row : rowSize (filmOf s st) ≤ c.stride.toNat) (address : frameAddressOk (filmOf s st) c (requestWindow s) = true) :
    ownQueueFrame c s = if (filmOf s st).video.queue.length < 8 then
      (setVideo st { (filmOf s st).video with
        queue := (filmOf s st).video.queue ++ [frameOf c], lastQueued := c.token } s, answerDone)
      else (s, answerState .queueFull) := by
  rw [ownQueueFrame, withStream_of_code code]
  simp only
  rw [if_neg opened, if_neg (by simp [stays]), if_neg (by bv_omega), if_neg (by omega), if_neg (not_not.2 address)]
  by_cases room : (filmOf s st).video.queue.length < 8
  · rw [if_pos room, if_neg (Nat.not_le.2 room)]; rfl
  · rw [if_neg room, if_pos (Nat.not_lt.1 room)]

theorem ownQueueAudio_tokenOrder {c : AudioParams} (code : streamOfCode c.stream = some st) (opened : (filmOf s st).st ≠ .closed)
    (stays : (filmOf s st).closing = false) (old : c.token ≤ (filmOf s st).audio.lastQueued) :
    ownQueueAudio c s = (s, answerInvalid .tokenOrder) := by
  rw [ownQueueAudio, withStream_of_code code]
  simp only
  rw [if_neg opened, if_neg (by simp [stays]), if_pos old]

/-- R103: the sound of a stream as a QUEUE_AUDIO leaves it. -/
def FilmAudio.joined (c : AudioParams) (a : FilmAudio) : FilmAudio :=
  { a with queue := a.queue ++ [⟨c.token, c.addr, c.len.toNat, 0⟩], lastQueued := c.token }

/-- R103: a buffer that passes its checks, and finds room or none. -/
theorem ownQueueAudio_checked {c : AudioParams} (code : streamOfCode c.stream = some st) (opened : (filmOf s st).st ≠ .closed)
    (stays : (filmOf s st).closing = false) (new : (filmOf s st).audio.lastQueued < c.token) (l1 : 256 ≤ c.len.toNat)
    (l2 : c.len.toNat ≤ 8192) (aligned : c.addr.toNat % 4 = 0)
    (inside : insideWindow (requestWindow s) c.addr.toNat (4 * c.len.toNat) = true) :
    ownQueueAudio c s = if (filmOf s st).audio.queue.length < 16 then
      (startReader st (setAudio st ((filmOf s st).audio.joined c) s), answerDone) else (s, answerState .queueFull) := by
  rw [ownQueueAudio, withStream_of_code code]
  simp only
  rw [if_neg opened, if_neg (by simp [stays]), if_neg (by bv_omega), if_neg (by omega), if_neg (by simp [aligned, inside])]
  by_cases room : (filmOf s st).audio.queue.length < 16
  · rw [if_pos room, if_neg (Nat.not_le.2 room)]; rfl
  · rw [if_neg room, if_pos (Nat.not_lt.1 room)]

/-- R104: of a stream's record, the start of its reader moves only what the reader is on. -/
theorem startReader_film (st : StreamId) (s : State) :
    ∃ reading, filmOf (startReader st s) st = { filmOf s st with audio := { (filmOf s st).audio with reading := reading } } := by
  rcases startReader_cases st s with e | ⟨b, e⟩ <;> rw [e]
  · exact ⟨_, rfl⟩
  · exact ⟨_, filmOf_readerStarted st b s⟩

theorem startReader_wai (st : StreamId) (s : State) : (startReader st s).wai = s.wai :=
  (same_startReader (p := .wai) (by decide) (by decide)).2 rfl

/-- Settles O35, each request by its checks in their order. -/
theorem framesAndBuffersJoinTheirQueues : Obligations.FramesAndBuffersJoinTheirQueues := by
  refine ⟨fun s r c st take code opened stays => ⟨_, exec_queueFrame take c, fun old => ?_, fun new aligned row address => ?_⟩,
    fun s r c st take code opened stays => ⟨_, exec_queueAudio take c, fun old => ?_, fun new l1 l2 aligned inside => ?_⟩⟩
  · rw [ownQueueFrame_tokenOrder (s := answerPlaced r s) code opened stays old]
    exact answerAlone _
  · rw [ownQueueFrame_checked (s := answerPlaced r s) code opened stays new aligned row address]
    split <;> rename_i room
    · rw [if_pos (by exact room), film_of_answer, filmOf_setVideo]
      exact ⟨rfl, rfl, answered_of_awaited (answerAwaited_congr rfl (answerAwaited_placed r s))⟩
    · rw [if_neg (by exact room)]
      exact answerAlone _
  · rw [ownQueueAudio_tokenOrder (s := answerPlaced r s) code opened stays old]
    exact answerAlone _
  · rw [ownQueueAudio_checked (s := answerPlaced r s) code opened stays new l1 l2 aligned inside]
    split <;> rename_i room
    · rw [if_pos (by exact room), film_of_answer]
      generalize hv : setAudio st ((filmOf (answerPlaced r s) st).audio.joined c) (answerPlaced r s) = v
      have film : filmOf v st = { filmOf s st with audio := (filmOf s st).audio.joined c } := by rw [← hv, filmOf_setAudio]; rfl
      obtain ⟨reading, started⟩ := startReader_film st v
      rw [started, film]
      refine ⟨rfl, rfl, rfl, answered_of_awaited (answerAwaited_congr ?_ (answerAwaited_placed r s))⟩
      rw [startReader_wai, ← hv]
      rfl
    · rw [if_neg (by exact room)]
      exact answerAlone _

end Requests

/-! ## Film sound (R105, R106) -/

section FilmSound
variable {s : State} {st q : StreamId} {x : Sample} {rest : List Sample}

theorem handSample_closed (h : (filmOf s st).st = .closed) : handSample st s = s := if_pos h

theorem handSample_staged (h : (filmOf s st).st ≠ .closed) (staged : (filmOf s st).audio.staging = x :: rest) :
    (filmOf (handSample st s) st).audio.staging = rest ∧
    (filmOf (handSample st s) st).audio.played = (filmOf s st).audio.played + 1 := by
  unfold handSample
  simp only [if_neg h, staged]
  rw [filmOf_setAudio]
  exact ⟨rfl, rfl⟩

/-- R106: an underrun takes no sample frame and counts none. -/
theorem handSample_silent (staged : (filmOf s st).audio.staging = []) :
    (filmOf (handSample st s) st).audio.staging = [] ∧
    (filmOf (handSample st s) st).audio.played = (filmOf s st).audio.played := by
  unfold handSample
  simp only [staged]
  split
  · exact ⟨staged, rfl⟩
  · split
    · rw [filmOf_raise, filmOf_setAudio]
      exact ⟨rfl, rfl⟩
    · exact ⟨staged, rfl⟩

theorem handSample_other (h : st ≠ q) (s : State) : filmOf (handSample q s) st = filmOf s st := by
  unfold handSample
  simp only
  split
  · rfl
  · split
    · exact filmOf_setAudio_other h _ s
    · split
      · rw [filmOf_raise, filmOf_setAudio_other h]
      · rfl

/-- R105, R115: what an output sample instant leaves of the streams is what the handing leaves. -/
theorem filmOf_sampleInstant (s : State) (st : StreamId) : filmOf (sampleInstant s) st = filmOf (onStreams handSample s) st := rfl

/-- Settles O37: each stream finds its record as the instant began with it, and hands by its own state. -/
theorem filmSoundIsHandedInOrder : Obligations.FilmSoundIsHandedInOrder := by
  refine fun s => ⟨settle (sampleInstant (reachNs (instantNs s.mix.instants) s)), rfl, fun st => ?_⟩
  obtain ⟨u, -, found, left⟩ := filmOf_onStreams (fun q st u h => handSample_other h u) st (reachNs (instantNs s.mix.instants) s)
  have found : filmOf u st = filmOf s st := found
  rw [filmOf_settle, filmOf_sampleInstant, left]
  split
  · rename_i closed
    rw [handSample_closed (by rw [found]; exact closed)]
    exact ⟨if_pos closed, found⟩
  · rename_i opened
    split
    · rename_i staged
      rw [← found] at staged ⊢
      refine ⟨?_, handSample_silent staged⟩
      rw [filmSample, if_neg opened, ← found, staged]
    · rename_i x rest staged
      rw [← found] at staged opened ⊢
      refine ⟨?_, handSample_staged opened staged⟩
      rw [found] at staged opened
      rw [filmSample, if_neg opened, staged]

end FilmSound

/-! ## Presentation (R98, R99) -/

section Presentation
variable {s : State} {st q : StreamId} {p : PipeId} {limit : Nat} {f : Frame} {ahead rest : List Frame} {v : FilmVideo}

theorem newestDue_eq_none (h : ∀ g ∈ rest, ¬ g.time.toNat ≤ limit) : newestDue limit rest = none := by
  induction rest with
  | nil => rfl
  | cons g rest ih =>
    rw [newestDue, ih (fun x m => h x (List.mem_cons_of_mem g m))]
    exact if_neg (h g List.mem_cons_self)

/-- R98: the newest due frame is the one behind which no frame is due. -/
theorem newestDue_eq_some (due : f.time.toNat ≤ limit) (later : ∀ g ∈ rest, ¬ g.time.toNat ≤ limit) (ahead : List Frame) :
    newestDue limit (ahead ++ f :: rest) = some (ahead, f, rest) := by
  induction ahead with
  | nil =>
    rw [List.nil_append, newestDue, newestDue_eq_none later]
    exact if_pos due
  | cons g ahead ih => rw [List.cons_append, newestDue, ih]

/-- A stream's pictures but for what the latches and the retirement move. -/
def FilmVideo.shown (v : FilmVideo) : FilmVideo := { v with retiring := [], latches := PerPipe.all none, lastRetired := 0 }

theorem shown_retire (v : FilmVideo) : (retire v).shown = v.shown := rfl
theorem shown_latchVideo (p : PipeId) (b : Bool) (v : FilmVideo) : (latchVideo p b v).shown = v.shown := rfl

/-- R99: the pictures of a stream with no frame due. -/
def FilmVideo.repeated (v : FilmVideo) : FilmVideo :=
  match v.current with
  | none => v
  | some _ => { v with repeats := v.repeats + 1, starved := v.starved || v.queue.isEmpty }

theorem repeated_eq (v : FilmVideo) : v.repeated.current = v.current ∧ v.repeated.queue = v.queue ∧
    v.repeated.dropped = v.dropped ∧ v.repeated.repeats = v.repeats + (if v.current = none then 0 else 1) ∧
    v.repeated.starved = (v.starved || (v.current.isSome && v.queue.isEmpty)) := by
  unfold FilmVideo.repeated
  cases current : v.current <;> simp [current]

/-- R98, R99: the pictures of a stream after its presentation, with the frames due up to a limit. -/
def FilmVideo.presented (limit : Nat) (v : FilmVideo) : FilmVideo :=
  match newestDue limit v.queue with
  | some (ahead, f, rest) => presentFrame ahead f rest v
  | none => v.repeated

theorem presented_of_due (queue : v.queue = ahead ++ f :: rest) (due : f.time.toNat ≤ limit)
    (later : ∀ g ∈ rest, ¬ g.time.toNat ≤ limit) : v.presented limit = presentFrame ahead f rest v := by
  rw [FilmVideo.presented, queue, newestDue_eq_some due later]

theorem presented_of_none (h : ∀ g ∈ v.queue, ¬ g.time.toNat ≤ limit) : v.presented limit = v.repeated := by
  rw [FilmVideo.presented, newestDue_eq_none h]

/-- What a stream shows in a state. -/
def shownOf (s : State) (st : StreamId) : FilmVideo := (filmOf s st).video.shown

theorem shownOf_retireStream (q st : StreamId) (s : State) : shownOf (retireStream q s) st = shownOf s st := by
  by_cases h : st = q
  · rw [h, shownOf, video_retireStream, shown_retire]; rfl
  · rw [shownOf, retireStream_other h]; rfl

theorem shownOf_latched (q st : StreamId) (p : PipeId) (b : Bool) (s : State) :
    shownOf (setVideo q (latchVideo p b (filmOf s q).video) s) st = shownOf s st := by
  by_cases h : st = q
  · rw [h, shownOf, filmOf_setVideo]; exact shown_latchVideo p b _
  · rw [shownOf, filmOf_setVideo_other h]; rfl

/-- R100: a displayed set moves only the latches and what retires. -/
theorem shownOf_handSet (p : PipeId) (a b : Bool) (s : State) (st : StreamId) : shownOf (handSet p a b s) st = shownOf s st := by
  rw [handSet, shownOf_retireStream, shownOf_retireStream, shownOf_latched, shownOf_latched]

theorem shownOf_of_same {t : State} (h : Part.flm.same s t) : shownOf t st = shownOf s st := by
  rw [shownOf, filmOf_of_same h]; rfl

theorem shownOf_fixFrame (p : PipeId) (s : State) (st : StreamId) : shownOf (fixFrame p s) st = shownOf s st := by
  have fixed : Part.flm.same s (frameFixed p s) := by
    unfold frameFixed
    simp only
    split <;> simp
  have begun : shownOf (planesBegun p s) st = shownOf s st := by
    rw [planesBegun, shownOf_of_same ((same_onSlots (fun n u => (same_beginSlot (by decide) (by decide)).2 (Part.same_self _ u))).2
      (Part.same_self _ _)), shownOf_handSet, shownOf_of_same fixed]
  rw [fixFrame_eq]
  split
  · split
    · rw [shownOf_of_same ((same_beginLayers (by decide)).2 (Part.same_self _ _)), begun]
    · rw [shownOf_of_same ((same_dropLayers (by decide)).2 (Part.same_self _ _)), begun]
  · exact begun

theorem shownOf_presentStream (st : StreamId) (half : Nat) (s : State) :
    shownOf (presentStream st half s) st = ((filmOf s st).video.presented ((cabin s).toNat + half)).shown := by
  unfold presentStream FilmVideo.presented FilmVideo.repeated
  simp only
  cases due : newestDue ((cabin s).toNat + half) (filmOf s st).video.queue with
  | some x => rw [shownOf_retireStream, shownOf, filmOf_setVideo]
  | none =>
    cases current : (filmOf s st).video.current with
    | none => exact shownOf_retireStream st st s
    | some c =>
      rw [shownOf_retireStream]
      split
      · rw [shownOf, filmOf_raise, filmOf_setVideo]
      · rw [shownOf, filmOf_setVideo]

theorem presentStream_other (h : st ≠ q) (half : Nat) (s : State) : filmOf (presentStream q half s) st = filmOf s st := by
  unfold presentStream
  simp only
  split
  · rw [retireStream_other h, filmOf_setVideo_other h]
  · split
    · exact retireStream_other h s
    · rw [retireStream_other h]
      split
      · rw [filmOf_raise, filmOf_setVideo_other h]
      · exact filmOf_setVideo_other h _ s

/-- R98: the presentation of an open stream at a vblank of its RUNNING pacing pipe. -/
theorem shownOf_present (opened : (filmOf s st).st ≠ .closed) (paces : (filmOf s st).pacing = p) (running : (pipeOf s p).st = .running) :
    shownOf (present p s) st
      = ((filmOf s st).video.presented ((cabin s).toNat + periodOf (pipeOf s p) / 2000)).shown := by
  generalize hf : (fun (q : StreamId) (u : State) =>
    if (pipeOf u p).st = .running ∧ (filmOf u q).pacing = p ∧ (filmOf u q).st ≠ .closed then
      presentStream q (periodOf (pipeOf s p) / 2000) u else u) = f
  have acts : ∀ q u, f q u = u ∨ f q u = presentStream q (periodOf (pipeOf s p) / 2000) u := fun q u => by
    rw [← hf]; exact (ite_eq_or_eq _ _ _).symm
  have other : ∀ q st u, st ≠ q → filmOf (f q u) st = filmOf u st := fun q st u h => by
    rcases acts q u with e | e <;> rw [e]
    exact presentStream_other h _ u
  have keeps : ∀ x : Part, x ≠ .flm → x ≠ .wai → ∀ q u, x.same u (f q u) := fun x m w q u => by
    rcases acts q u with e | e <;> rw [e]
    · exact Part.same_self x u
    · exact (same_presentStream m w).2 (Part.same_self x u)
  obtain ⟨u, before, found, left⟩ := filmOf_onStreams other st s
  have same : ∀ x : Part, x ≠ .flm → x ≠ .wai → x.same s u := fun x m w => by
    rcases before with rfl | rfl
    · exact Part.same_self x _
    · exact keeps x m w .a s
  have pipe : pipeOf u p = pipeOf s p := pipeOf_of_same (same .cmp (by decide) (by decide)) p
  have presents : f st u = presentStream st (periodOf (pipeOf s p) / 2000) u := by
    rw [← hf]
    exact if_pos ⟨by rw [pipe]; exact running, by rw [found]; exact paces, by rw [found]; exact opened⟩
  have whole : present p s = onStreams f s := by rw [← hf]; rfl
  rw [whole, shownOf, left, presents, ← shownOf, shownOf_presentStream, found, cabin_congr (same .clock (by decide) (by decide))]

/-- R98, R99: what a vblank of its RUNNING pacing pipe leaves of an open stream's pictures. -/
theorem shownOf_vblank (opened : (filmOf s st).st ≠ .closed) (paces : (filmOf s st).pacing = p)
    (running : (pipeOf s p).st = .running) : shownOf (vblank p s) st
      = ((filmOf s st).video.presented ((cabin (vblank p s)).toNat + periodOf (pipeOf s p) / 2000)).shown := by
  generalize hu : (if p = .centre then centreVblank (vblankCounted p s) else vblankCounted p s) = u
  have counted : Part.flm.same s (vblankCounted p s) := same_vblankCounted (by decide) (by decide) (by decide) (by decide)
  have film : filmOf u st = filmOf s st := by
    refine filmOf_of_same ?_ st
    rw [← hu]
    split
    · exact (same_centreVblank (by decide) (by decide) (by decide) (by decide) (by decide)).2 counted
    · exact counted
  have bare : (pipeOf u p).bare = (pipeOf (vblankCounted p s) p).bare := by
    rw [← hu]
    split
    · exact bare_centreVblank _ _
    · rfl
  have still : (pipeOf s p).counted = pipeOf s p := counted_of_not_starting (by simp [running])
  have runs : (pipeOf u p).st = .running := by rw [st_of_bare bare, vblankCounted_st, still, running]
  have period : periodOf (pipeOf u p) = periodOf (pipeOf s p) := by
    have kept : (pipeOf u p).timing = (pipeOf s p).timing := by
      rw [timing_of_bare bare, ← still]
      exact (congrArg Pipe.timing bare_vblankCounted :)
    rw [periodOf, periodOf, kept]
  have clock : cabin u = cabin (vblank p s) := by
    refine cabin_congr (Eq.symm ?_)
    have kept : Part.clock.same u (vblank p s) := by rw [vblank_eq, hu]; simp
    exact kept
  rw [vblank_eq, hu, shownOf_fixFrame, shownOf_present (by rw [film]; exact opened) (by rw [film]; exact paces) runs, film, period,
    clock, vblank_eq, hu]

/-- Settles O36, by the split of the queue at its newest due frame. -/
theorem presentationTakesTheNewestDueFrame : Obligations.PresentationTakesTheNewestDueFrame := by
  intro s st opened running
  generalize hp : (filmOf s st).pacing = p at running ⊢
  refine ⟨_, exec_pipeVblank (by simp [running]), ?_⟩
  have shown := shownOf_vblank opened hp running
  rw [filmOf_settle, cabin_settle]
  generalize vblank p s = t at shown ⊢
  refine ⟨fun ahead f rest queue due later => ?_, fun none => ?_⟩
  · rw [presented_of_due queue due later] at shown
    exact ⟨(congrArg FilmVideo.current shown :), (congrArg FilmVideo.queue shown :), (congrArg FilmVideo.dropped shown :),
      (congrArg FilmVideo.repeats shown :), (congrArg FilmVideo.starved shown :)⟩
  · rw [presented_of_none none] at shown
    obtain ⟨current, queue, dropped, repeats, starved⟩ := repeated_eq (filmOf s st).video
    exact ⟨(congrArg FilmVideo.current shown :).trans current, (congrArg FilmVideo.queue shown :).trans queue,
      (congrArg FilmVideo.dropped shown :).trans dropped, (congrArg FilmVideo.repeats shown :).trans repeats,
      (congrArg FilmVideo.starved shown :).trans starved⟩

end Presentation

/-! ## The answer of a request that completes as it is taken (R177) -/

section CompletedAtOnce
variable {s t : State} {r : RecordRef} {q : LongReq} {x : Status}

/-- R176: a record of a taken page whose answer is placed as PENDING and is not handed. -/
def pendingPlaced (r : RecordRef) (s : State) : Prop :=
  s.wai.taken.any (·.isOf r) = true ∧ ScanItem.answer r answerPending.status 0 false false ∈ s.wai.scanQueue

theorem pendingPlaced_placed (take : canTake r s = true) : pendingPlaced r (answerPlaced r s) := by
  simp only [canTake, Bool.and_eq_true] at take
  exact ⟨take.2, mem_insertAnswer⟩

theorem pendingPlaced_congr (h : t.wai = s.wai) (k : pendingPlaced r s) : pendingPlaced r t := by
  unfold pendingPlaced; rw [h]; exact k

theorem pendingPlaced_setFilm (st : StreamId) (f : Film) (h : pendingPlaced r s) : pendingPlaced r (setFilm st f s) :=
  pendingPlaced_congr rfl h

theorem pendingPlaced.awaited (h : pendingPlaced r s) : answerAwaited r s := ⟨_, _, _, h.2⟩

/-- R177: the end of another request leaves the PENDING answer. -/
theorem pendingPlaced_completeRequest (other : q.ref ≠ some r) (h : pendingPlaced r s) :
    pendingPlaced r (completeRequest q x s) := by
  obtain ⟨taken, placed⟩ := h
  unfold completeRequest
  split
  · exact ⟨taken, placed⟩
  · rename_i r' is
    split
    · split
      · refine ⟨taken, List.mem_map.2 ⟨_, placed, if_neg ?_⟩⟩
        rintro ⟨rfl, -⟩
        exact other is
      · exact ⟨taken, placed⟩
    · exact ⟨taken, placed⟩

/-- R177: a request that completes before its answer is handed has its final status for its answer. -/
theorem answered_of_completed (h : pendingPlaced r s) (x : Status) (a : Answer) :
    answered r ⟨x, 0⟩ (settle (enterAnswer r a (completeRequest ⟨some r⟩ x s))) := by
  obtain ⟨taken, placed⟩ := h
  have pending : s.wai.scanQueue.any (·.isPendingOf r) = true :=
    List.any_eq_true.2 ⟨_, placed, by simp [ScanItem.isPendingOf, answerPending]⟩
  have completed : completeRequest ⟨some r⟩ x s = s.setWai { s.wai with scanQueue := s.wai.scanQueue.map (·.finish r x) } := by
    simp only [completeRequest, taken, pending, if_true]
  rw [completed]
  refine answered_settle (.inl ⟨true, false, List.mem_map.2 ⟨.answer r x 0 true false, List.mem_map.2 ⟨_, placed, ?_⟩, ?_⟩⟩)
  · exact if_pos ⟨rfl, rfl⟩
  · exact if_neg (by simp)

end CompletedAtOnce

/-! ## The end of a flush and of a close (R109, R111) -/

section Examination
variable {s : State} {st : StreamId} {q : LongReq} {p : PipeId} {c f : Frame}

theorem audioFlying_eq_false (quiet : ∀ u ∈ s.fen.units, u.chan ≠ .audio st) : audioFlying s st = false := by
  rw [audioFlying, List.any_eq_false]
  intro u m
  simp [quiet u m]

theorem discardFlying_of_quiet (quiet : ∀ u ∈ s.fen.units, u.chan ≠ .audio st) : discardFlying s st = false :=
  discardFlying_eq_false fun u m mine => absurd mine (quiet u m)

/-- R109: an older frame that waits to retire keeps a flush pending. -/
theorem examineStream_flushWaits (close : (filmOf s st).close = none) (current : (filmOf s st).video.current = some c)
    (waits : f ∈ (filmOf s st).video.retiring) (older : f.token < c.token) : examineStream st s = s := by
  have unready : flushReady s st = false := by
    have stale : (filmOf s st).video.retiring.all (fun g => decide (¬ g.token < c.token)) = false :=
      List.all_eq_false.2 ⟨f, waits, by simp [older]⟩
    simp only [flushReady, current, stale, Bool.and_false]
  simp [examineStream, close, unready]

/-- R109: a flush of a stream in which nothing else is held completes. -/
theorem examineStream_flushEnds (close : (filmOf s st).close = none) (flush : (filmOf s st).flush = some q)
    (retired : (filmOf s st).video.retiring = []) (quiet : ∀ u ∈ s.fen.units, u.chan ≠ .audio st) :
    examineStream st s = completeFlush st s := by
  have ready : flushReady s st = true := by
    simp only [flushReady, discardFlying_of_quiet quiet, retired]
    split <;> rfl
  simp [examineStream, close, flush, ready]

theorem completeFlush_of_some (flush : (filmOf s st).flush = some q) : completeFlush st s = completeRequest q statusDone
    (setFilm st { filmOf s st with flush := none, audio := { (filmOf s st).audio with playedSince := false } } s) := by
  unfold completeFlush
  simp only [flush]

/-- R111: a frame that waits to retire keeps a close pending. -/
theorem examineStream_closeWaits (close : (filmOf s st).close = some q) (waits : f ∈ (filmOf s st).video.retiring) :
    examineStream st s = s := by
  have held : (filmOf s st).video.retiring.isEmpty = false := by
    rw [List.isEmpty_eq_false_iff]; exact List.ne_nil_of_mem waits
  simp [examineStream, close, held]

/-- R111: a close of a stream that holds nothing completes, and the flush before it. -/
theorem examineStream_closeEnds (close : (filmOf s st).close = some q) (retired : (filmOf s st).video.retiring = [])
    (quiet : ∀ u ∈ s.fen.units, u.chan ≠ .audio st) : examineStream st s = completeRequest q statusDone
      (setFilm st { filmOf (completeFlush st s) st with st := .closed, closing := false, close := none } (completeFlush st s)) := by
  have still : (filmOf (completeFlush st s) st).close = some q := by
    rw [← close]
    unfold completeFlush
    simp only
    split
    · rfl
    · rw [filmOf_completeRequest, filmOf_setFilm, if_pos rfl]
  simp [examineStream, close, retired, audioFlying_eq_false quiet, completeClose, still]

end Examination

/-! ## FLUSH_STREAM and CLOSE_STREAM (R108 to R111) -/

section FlushAndClose
variable {s t : State} {r : RecordRef} {st : StreamId} {q : LongReq} {p : PipeId} {f : Frame}

theorem exec_flushStream (h : canTake r s = true) (c : Byte) : exec (.flushStream r c) s =
    .next (settle (enterAnswer r (ownFlushStream ⟨some r⟩ c (answerPlaced r s)).2 (ownFlushStream ⟨some r⟩ c (answerPlaced r s)).1)) :=
  request_of_canTake h
theorem exec_closeStream (h : canTake r s = true) (c : Byte) : exec (.closeStream r c) s =
    .next (settle (enterAnswer r (ownCloseStream ⟨some r⟩ c (answerPlaced r s)).2 (ownCloseStream ⟨some r⟩ c (answerPlaced r s)).1)) :=
  request_of_canTake h

/-- The sound of a stream that a flush has emptied. -/
structure FilmAudio.Emptied (a : FilmAudio) : Prop where
  queue : a.queue = []
  staging : a.staging = []
  underrun : a.underrun = false

/-- R108: a flush empties the queues and the staging store, and leaves the rest of the record. -/
theorem flushStreamNow_film (st : StreamId) (s : State) : ∃ a : FilmAudio, a.Emptied ∧
    filmOf (flushStreamNow st s) st = { filmOf s st with video := flushVideo (filmOf s st).video, audio := a } := by
  have discarded : ∀ u : State, (filmOf u st).audio.Emptied → ∃ a : FilmAudio, a.Emptied ∧
      filmOf (retireDiscarded st u) st = { filmOf u st with audio := a } := fun u h => by
    unfold retireDiscarded
    simp only
    split
    · exact ⟨_, h, rfl⟩
    · rw [filmOf_setAudio]
      refine ⟨_, ?_, rfl⟩
      exact ⟨h.queue, h.staging, h.underrun⟩
  unfold flushStreamNow flushAudio
  generalize hv : discardUnits st (suspendChannel (.audio st) (setVideo st (flushVideo (filmOf s st).video) s)) = v
  have film : filmOf v st = { filmOf s st with video := flushVideo (filmOf s st).video } := by
    rw [← hv, ← filmOf_setVideo]; rfl
  simp only
  generalize hu : setAudio st _ v = u
  have empty : (filmOf u st).audio.Emptied := by rw [← hu, filmOf_setAudio]; exact ⟨rfl, rfl, rfl⟩
  obtain ⟨a, emptied, left⟩ := discarded u empty
  refine ⟨a, emptied, ?_⟩
  rw [left, ← hu, filmOf_setAudio, film]

theorem flushStreamNow_wai (st : StreamId) (s : State) : (flushStreamNow st s).wai = s.wai :=
  (same_flushStreamNow (p := .wai) (by decide) (by decide)).2 rfl

/-- R108: a flush brings no unit into flight. -/
theorem flushStreamNow_quiet (quiet : ∀ u ∈ s.fen.units, u.chan ≠ .audio st) :
    ∀ u ∈ (flushStreamNow st s).fen.units, u.chan ≠ .audio st := by
  have units : (flushStreamNow st s).fen.units = s.fen.units.map (fun u =>
      if u.chan == .audio st && u.live then { u with discard := true } else u) := by
    rw [flushStreamNow, flushAudio, retireDiscarded_fen]
    simp only [setAudio, setVideo, setFilm, discardUnits, suspendChannel, State.setFlm_fen, State.setFen_fen, setChannel_units]
  rw [units]
  intro u m
  obtain ⟨x, mem, rfl⟩ := List.mem_map.1 m
  split <;> exact quiet x mem

/-- R108: the state in which a FLUSH_STREAM has emptied its stream and retired what it can. -/
def streamFlushed (q : LongReq) (st : StreamId) (s : State) : State :=
  let u := flushStreamNow st (setFilm st { filmOf s st with flush := some q } s)
  setVideo st (retire (filmOf u st).video) u

/-- R110: the state in which a CLOSE_STREAM has emptied its stream and retired what it can. -/
def streamReleased (q : LongReq) (st : StreamId) (s : State) : State :=
  let u := flushStreamNow st (setFilm st { filmOf s st with closing := true, close := some q } s)
  let v := setVideo st (releaseCurrent (filmOf u st).video) u
  setVideo st (retire (filmOf v st).video) v

theorem ownFlushStream_eq {c : Byte} (code : streamOfCode c = some st) (opened : (filmOf s st).st ≠ .closed)
    (stays : (filmOf s st).closing = false) (free : (filmOf s st).flush = none) :
    ownFlushStream q c s = (startReader st (examineStream st (streamFlushed q st s)), answerPending) := by
  rw [ownFlushStream, withStream_of_code code]
  simp only
  rw [if_neg opened, if_neg (by simp [stays]), if_neg (by simp [free])]
  rfl

theorem ownCloseStream_eq {c : Byte} (code : streamOfCode c = some st) (opened : (filmOf s st).st ≠ .closed)
    (stays : (filmOf s st).closing = false) :
    ownCloseStream q c s = (examineStream st (streamReleased q st s), answerPending) := by
  rw [ownCloseStream, withStream_of_code code]
  simp only
  rw [if_neg opened, if_neg (by simp [stays])]
  rfl

theorem streamFlushed_film (q : LongReq) (st : StreamId) (s : State) : ∃ a : FilmAudio, a.Emptied ∧ filmOf (streamFlushed q st s) st =
    { filmOf s st with flush := some q, video := retire (flushVideo (filmOf s st).video), audio := a } := by
  obtain ⟨a, emptied, film⟩ := flushStreamNow_film st (setFilm st { filmOf s st with flush := some q } s)
  refine ⟨a, emptied, ?_⟩
  rw [streamFlushed, filmOf_setVideo, film, filmOf_setFilm, if_pos rfl]

theorem streamReleased_film (q : LongReq) (st : StreamId) (s : State) : ∃ a : FilmAudio, a.Emptied ∧ filmOf (streamReleased q st s) st =
    { filmOf s st with
      closing := true, close := some q, video := retire (releaseCurrent (flushVideo (filmOf s st).video)), audio := a } := by
  obtain ⟨a, emptied, film⟩ := flushStreamNow_film st (setFilm st { filmOf s st with closing := true, close := some q } s)
  refine ⟨a, emptied, ?_⟩
  rw [streamReleased, filmOf_setVideo, filmOf_setVideo, film, filmOf_setFilm, if_pos rfl]

theorem streamFlushed_wai (q : LongReq) (st : StreamId) (s : State) : (streamFlushed q st s).wai = s.wai :=
  flushStreamNow_wai st _
theorem streamReleased_wai (q : LongReq) (st : StreamId) (s : State) : (streamReleased q st s).wai = s.wai :=
  flushStreamNow_wai st _

theorem streamFlushed_quiet (quiet : ∀ u ∈ s.fen.units, u.chan ≠ .audio st) (q : LongReq) :
    ∀ u ∈ (streamFlushed q st s).fen.units, u.chan ≠ .audio st := flushStreamNow_quiet quiet
theorem streamReleased_quiet (quiet : ∀ u ∈ s.fen.units, u.chan ≠ .audio st) (q : LongReq) :
    ∀ u ∈ (streamReleased q st s).fen.units, u.chan ≠ .audio st := flushStreamNow_quiet quiet

/-- R110: the current frame is given up. -/
theorem releaseCurrent_eq (v : FilmVideo) : (releaseCurrent v).queue = v.queue ∧ (releaseCurrent v).current = none ∧
    (releaseCurrent v).latches = v.latches := by
  unfold releaseCurrent
  cases v.current <;> simp

theorem releaseCurrent_of_none {v : FilmVideo} (h : v.current = none) : (releaseCurrent v).retiring = v.retiring := by
  simp [releaseCurrent, h]

/-- R110: the current frame waits to retire. -/
theorem mem_releaseCurrent {v : FilmVideo} (h : v.current = some f) : f ∈ (releaseCurrent v).retiring := by
  simp [releaseCurrent, h, mem_insertFrame]

/-- R109, R111: the end of a flush or of a close brings no sound back. -/
theorem examineStream_emptied (empty : (filmOf s st).audio.Emptied) : (filmOf (examineStream st s) st).audio.Emptied := by
  obtain ⟨-, played, audio⟩ := examineStream_film st s
  rw [audio]
  exact ⟨empty.queue, empty.staging, empty.underrun⟩

/-- R108, R109: a FLUSH_STREAM that is taken. -/
theorem flushStream_taken {c : Byte} (take : canTake r s = true) (code : streamOfCode c = some st)
    (opened : (filmOf s st).st ≠ .closed) (stays : (filmOf s st).closing = false) (free : (filmOf s st).flush = none) :
    exec (.flushStream r c) s =
      .next (settle (enterAnswer r answerPending (examineStream st (streamFlushed ⟨some r⟩ st (answerPlaced r s))))) := by
  obtain ⟨a, emptied, film⟩ := streamFlushed_film ⟨some r⟩ st (answerPlaced r s)
  have empty := examineStream_emptied (s := streamFlushed ⟨some r⟩ st (answerPlaced r s)) (by rw [film]; exact emptied)
  rw [exec_flushStream take, ownFlushStream_eq (s := answerPlaced r s) code opened stays free,
    startReader_of_idle (.inl empty.queue)]

/-- R110: a CLOSE_STREAM that is taken. -/
theorem closeStream_taken {c : Byte} (take : canTake r s = true) (code : streamOfCode c = some st)
    (opened : (filmOf s st).st ≠ .closed) (stays : (filmOf s st).closing = false) : exec (.closeStream r c) s =
      .next (settle (enterAnswer r answerPending (examineStream st (streamReleased ⟨some r⟩ st (answerPlaced r s))))) := by
  rw [exec_closeStream take, ownCloseStream_eq (s := answerPlaced r s) code opened stays]

/-- R109: with no close pending, the examination leaves the stream open or HELD. -/
theorem examineStream_st (close : (filmOf s st).close = none) : (filmOf (examineStream st s) st).st = (filmOf s st).st := by
  unfold examineStream
  simp only [close, Option.isSome_none, Bool.false_eq_true, if_false]
  split
  · exact completeFlush_st st st s
  · rfl

theorem pendingPlaced_completeFlush (other : ∀ q, (filmOf s st).flush = some q → q.ref ≠ some r) (h : pendingPlaced r s) :
    pendingPlaced r (completeFlush st s) := by
  cases flush : (filmOf s st).flush with
  | none => simpa [completeFlush, flush] using h
  | some q =>
    rw [completeFlush_of_some flush]
    exact pendingPlaced_completeRequest (other q flush) (pendingPlaced_setFilm st _ h)

/-- R108: what a FLUSH_STREAM leaves of its stream. -/
theorem flushStream_leaves (close : (filmOf s st).close = none) (ht : t = examineStream st (streamFlushed q st s)) :
    (filmOf t st).video.queue = [] ∧ (filmOf t st).audio.queue = [] ∧ (filmOf t st).audio.staging = [] ∧
    (filmOf t st).audio.underrun = false ∧ (filmOf t st).video.current = (filmOf s st).video.current ∧
    (filmOf t st).st = (filmOf s st).st := by
  obtain ⟨a, emptied, film⟩ := streamFlushed_film q st s
  have sound : (filmOf t st).audio.Emptied := by rw [ht]; exact examineStream_emptied (by rw [film]; exact emptied)
  have video : (filmOf t st).video = retire (flushVideo (filmOf s st).video) := by rw [ht, (examineStream_film st _).1, film]
  have state : (filmOf t st).st = (filmOf s st).st := by rw [ht, examineStream_st (by rw [film]; exact close), film]
  rw [video]
  exact ⟨rfl, sound.queue, sound.staging, sound.underrun, rfl, state⟩

/-- R101, R109: a FLUSH_STREAM with an older frame that a pipe's latch holds. -/
theorem flushStream_pending {c : Frame} (placed : pendingPlaced r s) (close : (filmOf s st).close = none)
    (current : (filmOf s st).video.current = some c) (waits : f ∈ (filmOf s st).video.retiring) (older : f.token < c.token)
    (held : (filmOf s st).video.latches.get p = some f)
    (ht : t = settle (enterAnswer r answerPending (examineStream st (streamFlushed q st s)))) :
    (filmOf t st).flush = some q ∧ f ∈ (filmOf t st).video.retiring ∧ answered r answerPending t := by
  obtain ⟨a, -, film⟩ := streamFlushed_film q st s
  have stays : f ∈ (retire (flushVideo (filmOf s st).video)).retiring :=
    mem_retire (p := p) held (mem_insertFrames.2 (.inr waits))
  rw [examineStream_flushWaits (c := c) (f := f) (by rw [film]; exact close) (by rw [film]; exact current)
    (by rw [film]; exact stays) older] at ht
  rw [ht, film_of_answer, film]
  exact ⟨rfl, stays, answered_of_awaited (pendingPlaced_congr (streamFlushed_wai q st s) placed).awaited⟩

/-- R109, R177: a FLUSH_STREAM of a stream that holds no frame but the current one and has no audio unit in flight. -/
theorem flushStream_done (placed : pendingPlaced r s) (close : (filmOf s st).close = none)
    (queue : (filmOf s st).video.queue = []) (retiring : (filmOf s st).video.retiring = [])
    (quiet : ∀ u ∈ s.fen.units, u.chan ≠ .audio st)
    (ht : t = settle (enterAnswer r answerPending (examineStream st (streamFlushed ⟨some r⟩ st s)))) :
    (filmOf t st).flush = none ∧ answered r answerDone t := by
  obtain ⟨a, -, film⟩ := streamFlushed_film ⟨some r⟩ st s
  have retired : (retire (flushVideo (filmOf s st).video)).retiring = [] :=
    retire_of_empty (by rw [flushVideo, queue, retiring]; rfl)
  rw [examineStream_flushEnds (q := ⟨some r⟩) (by rw [film]; exact close) (by rw [film]) (by rw [film]; exact retired)
    (streamFlushed_quiet quiet _), completeFlush_of_some (q := ⟨some r⟩) (by rw [film])] at ht
  rw [ht, film_of_answer, filmOf_completeRequest, filmOf_setFilm, if_pos rfl]
  have kept := pendingPlaced_congr (streamFlushed_wai ⟨some r⟩ st s) placed
  exact ⟨rfl, answered_of_completed (pendingPlaced_setFilm st _ kept) statusDone answerPending⟩

/-- R108, R110: what a CLOSE_STREAM leaves of its stream. -/
theorem closeStream_leaves (ht : t = examineStream st (streamReleased q st s)) :
    (filmOf t st).video.queue = [] ∧ (filmOf t st).video.current = none ∧ (filmOf t st).audio.queue = [] ∧
    (filmOf t st).audio.staging = [] := by
  obtain ⟨a, emptied, film⟩ := streamReleased_film q st s
  obtain ⟨queue, current, -⟩ := releaseCurrent_eq (flushVideo (filmOf s st).video)
  have sound : (filmOf t st).audio.Emptied := by rw [ht]; exact examineStream_emptied (by rw [film]; exact emptied)
  have video : (filmOf t st).video = retire (releaseCurrent (flushVideo (filmOf s st).video)) := by
    rw [ht, (examineStream_film st _).1, film]
  rw [video]
  exact ⟨queue, current, sound.queue, sound.staging⟩

/-- R101, R111: a CLOSE_STREAM whose current frame a pipe's latch holds. -/
theorem closeStream_pending (placed : pendingPlaced r s) (current : (filmOf s st).video.current = some f)
    (held : (filmOf s st).video.latches.get p = some f)
    (ht : t = settle (enterAnswer r answerPending (examineStream st (streamReleased q st s)))) :
    (filmOf t st).st = (filmOf s st).st ∧ (filmOf t st).closing = true ∧ (filmOf t st).close = some q ∧
    f ∈ (filmOf t st).video.retiring ∧ answered r answerPending t := by
  obtain ⟨a, -, film⟩ := streamReleased_film q st s
  obtain ⟨-, -, latches⟩ := releaseCurrent_eq (flushVideo (filmOf s st).video)
  have stays : f ∈ (retire (releaseCurrent (flushVideo (filmOf s st).video))).retiring :=
    mem_retire (p := p) (by rw [latches]; exact held) (mem_releaseCurrent current)
  rw [examineStream_closeWaits (q := q) (f := f) (by rw [film]) (by rw [film]; exact stays)] at ht
  rw [ht, film_of_answer, film]
  exact ⟨rfl, rfl, rfl, stays, answered_of_awaited (pendingPlaced_congr (streamReleased_wai q st s) placed).awaited⟩

/-- R111, R177: a CLOSE_STREAM of a stream that holds no frame and has no audio unit in flight; a flush of it ends first. -/
theorem closeStream_done (placed : pendingPlaced r s) (other : ∀ q, (filmOf s st).flush = some q → q.ref ≠ some r)
    (queue : (filmOf s st).video.queue = []) (current : (filmOf s st).video.current = none)
    (retiring : (filmOf s st).video.retiring = []) (quiet : ∀ u ∈ s.fen.units, u.chan ≠ .audio st)
    (ht : t = settle (enterAnswer r answerPending (examineStream st (streamReleased ⟨some r⟩ st s)))) :
    (filmOf t st).st = .closed ∧ (filmOf t st).closing = false ∧ (filmOf t st).close = none ∧ answered r answerDone t := by
  obtain ⟨a, -, film⟩ := streamReleased_film ⟨some r⟩ st s
  have retired : (retire (releaseCurrent (flushVideo (filmOf s st).video))).retiring = [] :=
    retire_of_empty (by rw [releaseCurrent_of_none (by exact current), flushVideo, queue, retiring]; rfl)
  have flushed := pendingPlaced_completeFlush (st := st) (s := streamReleased ⟨some r⟩ st s) (by rw [film]; exact other)
    (pendingPlaced_congr (streamReleased_wai _ st s) placed)
  rw [examineStream_closeEnds (q := ⟨some r⟩) (by rw [film]) (by rw [film]; exact retired) (streamReleased_quiet quiet _)] at ht
  rw [ht, film_of_answer, filmOf_completeRequest, filmOf_setFilm, if_pos rfl]
  exact ⟨rfl, rfl, rfl, answered_of_completed (pendingPlaced_setFilm st _ flushed) statusDone answerPending⟩

/-- Settles O38: what each request leaves of its stream, and where its examination ends it or leaves it pending. -/
theorem flushAndCloseEmptyTheStream : Obligations.FlushAndCloseEmptyTheStream := by
  refine ⟨fun s r c st take _ code opened stays close free => ⟨_, flushStream_taken take code opened stays free, ?_⟩,
    fun s r c st take notHeld code opened stays => ⟨_, closeStream_taken take code opened stays, ?_⟩⟩
  · obtain ⟨queue, sound, staging, underrun, current, state⟩ :=
      flushStream_leaves (q := ⟨some r⟩) (s := answerPlaced r s) (st := st) close rfl
    rw [← film_of_answer (r := r) answerPending] at queue sound staging underrun current state
    exact ⟨queue, sound, staging, underrun, current, state,
      fun _ _ _ current waits older held =>
        flushStream_pending (s := answerPlaced r s) (pendingPlaced_placed take) close current waits older held rfl,
      fun queue retiring quiet => flushStream_done (s := answerPlaced r s) (pendingPlaced_placed take) close queue retiring quiet rfl⟩
  · obtain ⟨queue, current, sound, staging⟩ := closeStream_leaves (q := ⟨some r⟩) (s := answerPlaced r s) (st := st) rfl
    rw [← film_of_answer (r := r) answerPending] at queue current sound staging
    exact ⟨queue, current, sound, staging,
      fun _ _ current held => closeStream_pending (s := answerPlaced r s) (pendingPlaced_placed take) current held rfl,
      fun queue current retiring quiet => closeStream_done (s := answerPlaced r s) (pendingPlaced_placed take)
        (fun q flush => notHeld_films notHeld st q (.inl flush)) queue current retiring quiet rfl⟩

end FlushAndClose

end Sys2Proof.Machine

/-! PROOFS. Chapter 6: the chime queue and the gain codes over a step, the samples of an instant, the moves of the chime voice, arrivals and
the requests of the chimes, the mixer and the sounds, and the settings that the chimes take. -/

namespace Sys2Proof.Machine

/-! ## The two voices of CHE at an instant (R125, R140) -/

/-- The chime voice moves at an instant, and nothing else of CHE with it. -/
theorem chimeInstant_keeps (v : Vsr) (c : Che) :
    (chimeInstant v c).2 = { c with playing := (chimeInstant v c).2.playing, tail := (chimeInstant v c).2.tail } := by
  unfold chimeInstant
  simp only
  split
  · split <;> rfl
  · split
    · rfl
    · split <;> rfl

theorem uiAdvance_keeps (c : Che) : uiAdvance c = { c with ui := (uiAdvance c).ui } := by
  unfold uiAdvance
  split
  · rfl
  · split <;> rfl

/-- R136: the cadence begins its first cycle as the chime that it is. -/
theorem atInstant_chime (v : Vsr) (p : Playing) : (atInstant v p).chime = p.chime := by
  unfold atInstant cadenceBegun
  split
  · split <;> rfl
  · rfl

theorem chimeInstant_chime (v : Vsr) (c : Che) : (chimeInstant v c).2.playing.map (·.chime) = c.playing.map (·.chime) := by
  unfold chimeInstant
  split
  · split <;> rfl
  · split
    · rfl
    · rename_i playing
      simp only
      split
      · rw [playing, Option.map_some, Option.map_some, atInstant_chime]
      · rfl

/-! ## Conditions on the chimes and the mixer

Every command moves the queue, the playing chime and the gain codes by a few operations of CHE and MIX, so that a condition on the two
records that each of these keeps is kept by every command. -/

section AudioConditions
variable {s t : State}

/-- A record of a chime but for what a renewal replaces (R128). -/
def ChimeRec.bare (r : ChimeRec) : ChimeRec := { r with remaining := none, origin := .internal }

/-- The playing chime and the queue, but for renewals, and the gain codes. -/
def audioCourse (c : Che) (m : Mix) : Option ChimeRec × List ChimeRec × PerOutput OutGains × PerOutput OutGains :=
  (c.playing.map (fun p => p.chime.bare), c.queue.map ChimeRec.bare, m.matrix, m.effective)

/-- A condition on the chime engine and the mixer. -/
def AudioCondition := Che → Mix → Prop

def AudioCondition.holds (C : AudioCondition) (s : State) : Prop := C s.che s.mix

/-- A condition that every operation keeps that moves the queue, the playing chime or a gain code. -/
structure AudioInvariant (C : AudioCondition) : Prop where
  /-- It looks at nothing else. -/
  congr : ∀ {c d : Che} {m n : Mix}, audioCourse d n = audioCourse c m → C c m → C d n
  /-- R129: a chime of a higher class takes the voice. -/
  preempt : ∀ (r : ChimeRec) (p : Playing) (s : State), s.che.playing = some p → classRank p.chime.cls < classRank r.cls →
    inUse s.che r.num = false → C.holds s → C.holds (preempt r p s)
  /-- R129, R130: any other arrival. -/
  arriveQueued : ∀ (r : ChimeRec) (s : State), (∀ p, s.che.playing = some p → classRank r.cls ≤ classRank p.chime.cls) →
    inUse s.che r.num = false → C.holds s → C.holds (arriveQueued r s).1
  /-- R133, R135: entries leave the queue. -/
  filter : ∀ (f : ChimeRec → Bool) (s : State), C.holds s → C.holds (s.setChe { s.che with queue := s.che.queue.filter f })
  /-- R127: the voice is left, and the next entry plays. -/
  endPlaying : ∀ s : State, C.holds s → C.holds (endPlaying s)
  /-- R117 -/
  setMix : ∀ (p : MixParams) (s : State), C.holds s → C.holds (ownSetMix p s).1
  /-- R119 -/
  rampAll : ∀ s : State, C.holds s → C.holds (rampAll s)
  /-- R120 -/
  muteForLow : ∀ s : State, C.holds s → C.holds (muteForLow s)

variable {C : AudioCondition}

theorem AudioCondition.holds.of_same (h : C.holds s) (c : Part.che.same s t) (m : Part.mix.same s t) : C.holds t := by
  unfold AudioCondition.holds
  rw [show t.che = s.che from c, show t.mix = s.mix from m]
  exact h

namespace AudioInvariant

theorem of_course (k : AudioInvariant C) (h : C.holds s) (e : audioCourse t.che t.mix = audioCourse s.che s.mix) : C.holds t :=
  k.congr e h

/-- An operation that leaves the queue, the playing chime and the mixer. -/
theorem of_voice (k : AudioInvariant C) (h : C.holds s) (p : t.che.playing = s.che.playing) (q : t.che.queue = s.che.queue)
    (m : Part.mix.same s t) : C.holds t :=
  k.of_course h (by rw [audioCourse, p, q, show t.mix = s.mix from m, audioCourse])

/-! ### The chime engine -/

theorem settleDefs (k : AudioInvariant C) (h : C.holds s) : C.holds (settleDefs s) :=
  k.of_voice h settleDefs_playing settleDefs_queue settleDefs_mix

theorem arrive (k : AudioInvariant C) (n : Nat) (o : Origin) (h : C.holds s) : C.holds (arrive n o s).1 := by
  have renewed : ∀ (rep : Option Nat) (r : ChimeRec), (renew rep o r).bare = r.bare := fun _ _ => rfl
  have waits : ∀ rep : Option Nat, C.holds (s.setChe { s.che with
      queue := s.che.queue.map (fun r => if r.num = n then renew rep o r else r) }) := fun rep => by
    refine k.of_course h ?_
    have bare : (fun r : ChimeRec => (if r.num = n then renew rep o r else r).bare) = ChimeRec.bare := funext fun r => by
      split
      · exact renewed rep r
      · rfl
    simp only [audioCourse, State.setChe_che, State.setChe_mix, List.map_map, Function.comp_def, bare]
  unfold Machine.arrive
  split
  · exact h
  · rename_i d defined
    refine k.settleDefs ?_
    unfold arriveDef
    simp only
    split
    · rename_i p playing
      split
      · exact k.of_course h (by simp only [audioCourse, playing, State.setChe_che, State.setChe_mix, Option.map_some, renewed])
      · rename_i other
        split
        · exact waits _
        · rename_i fresh
          have free : inUse s.che n = false := by simp_all [inUse, isPlaying]
          split
          · rename_i higher
            exact k.preempt _ p _ playing higher free (k.of_voice h rfl rfl rfl)
          · rename_i lower
            refine k.arriveQueued _ _ (fun q e => ?_) free (k.of_voice h rfl rfl rfl)
            obtain rfl : p = q := Option.some.inj (playing.symm.trans e)
            exact Nat.not_lt.1 lower
    · rename_i silent
      split
      · exact waits _
      · rename_i fresh
        have free : inUse s.che n = false := by simp_all [inUse, isPlaying]
        exact k.arriveQueued _ _ (fun q e => by rw [State.setChe_che] at e; rw [silent] at e; cases e) free (k.of_voice h rfl rfl rfl)

theorem arriveInternal (k : AudioInvariant C) (n : Nat) (h : C.holds s) : C.holds (arriveInternal n s) := k.arrive n .internal h

theorem stopPlaying (k : AudioInvariant C) (h : C.holds s) : C.holds (stopPlaying s) :=
  k.endPlaying _ (k.of_voice h rfl rfl rfl)

theorem stopCadence (k : AudioInvariant C) (h : C.holds s) : C.holds (stopCadence s) := by
  unfold Machine.stopCadence
  split
  · exact k.settleDefs (k.stopPlaying h)
  · exact k.settleDefs (k.filter _ s h)

theorem evalCadence (k : AudioInvariant C) (frame : Bool) (h : C.holds s) : C.holds (evalCadence frame s) := by
  have noted : C.holds (s.setChe { s.che with cadence := cadenceNow s.vsr }) := k.of_voice h rfl rfl rfl
  unfold Machine.evalCadence
  simp only
  split
  · exact k.arriveInternal 1 noted
  · split
    · exact k.stopCadence noted
    · split
      · exact k.arriveInternal 1 noted
      · exact noted

theorem finishPlaying (k : AudioInvariant C) (p : Playing) (h : C.holds s) : C.holds (finishPlaying p s) := by
  unfold Machine.finishPlaying
  refine k.settleDefs (k.endPlaying _ ?_)
  split
  · exact h.of_same (by simp) (by simp)
  · exact h

theorem stepEnd (k : AudioInvariant C) (h : C.holds s) : C.holds (stepEnd s) := by
  unfold Machine.stepEnd
  split
  · rename_i p tail playing
    split
    · exact h
    · split
      · exact h
      · split
        · exact k.of_course h (by simp [audioCourse, playing])
        · unfold cycleEnd
          simp only
          split
          · exact k.of_course h (by simp [audioCourse, playing, ChimeRec.bare])
          · split
            · exact k.finishPlaying p h
            · exact k.of_course h (by simp [audioCourse, playing, ChimeRec.bare])
  · exact h

theorem cadenceDecision (k : AudioInvariant C) (h : C.holds s) : C.holds (cadenceDecision s) := by
  unfold Machine.cadenceDecision
  split
  · rename_i p playing
    split
    · split
      · exact k.of_course h (by simp [audioCourse, playing])
      · exact h
    · exact h
  · exact h

theorem cadenceCycle (k : AudioInvariant C) (h : C.holds s) : C.holds (cadenceCycle s) := by
  unfold Machine.cadenceCycle
  split
  · rename_i p playing
    split
    · split
      · exact k.of_course h (by simp [audioCourse, playing])
      · exact h
    · exact h
  · exact h

theorem ownPlayChime (k : AudioInvariant C) (c : Byte) (h : C.holds s) : C.holds (ownPlayChime c s).1 := by
  unfold Machine.ownPlayChime
  split
  · exact h
  · split
    · exact h
    · exact k.arrive _ _ h

theorem ownCancelChime (k : AudioInvariant C) (c : Byte) (h : C.holds s) : C.holds (ownCancelChime c s).1 := by
  unfold Machine.ownCancelChime
  split
  · exact h
  · split
    · exact h
    · split
      · exact k.settleDefs (k.filter _ s h)
      · split
        · exact k.settleDefs (k.stopPlaying h)
        · exact h

theorem ownDefineChime (k : AudioInvariant C) (p : ChimeParams) (h : C.holds s) : C.holds (ownDefineChime p s).1 := by
  unfold Machine.ownDefineChime
  simp only
  repeat' split
  all_goals exact k.of_voice h rfl rfl rfl

/-! ### The sound bank and the UI voice -/

theorem dropLoad (k : AudioInvariant C) (n : Nat) (h : C.holds s) : C.holds (dropLoad n s) := by
  unfold Machine.dropLoad
  refine AudioCondition.holds.of_same ?_ ((same_dropBulk (by decide)).2 (Part.same_self _ _))
    ((same_dropBulk (by decide)).2 (Part.same_self _ _))
  exact k.of_voice h rfl rfl rfl

theorem failLoad (k : AudioInvariant C) (n : Nat) (h : C.holds s) : C.holds (failLoad n s) := by
  unfold Machine.failLoad
  split
  · exact (k.dropLoad n h).of_same (by simp) (by simp)
  · exact k.dropLoad n h

theorem finishLoad (k : AudioInvariant C) (n : Nat) (h : C.holds s) : C.holds (finishLoad n s) := by
  have ended : ∀ e : SoundEntry, C.holds (s.setChe { setSound n e s.che with loads := s.che.loads - 1 }) :=
    fun e => k.of_voice h rfl rfl rfl
  have dropped : ∀ {u : State}, C.holds u → C.holds (dropBulk (.sound n) u) := fun hu => hu.of_same (by simp) (by simp)
  have completed : ∀ (q : LongReq) {u : State}, C.holds u → C.holds (completeRequest q statusDone u) := fun q u hu =>
    hu.of_same (by simp) (by simp)
  unfold Machine.finishLoad
  simp only
  split
  · exact completed _ (dropped (ended _))
  · exact dropped (ended _)

theorem abandonLoads (k : AudioInvariant C) (h : C.holds s) : C.holds (onSounds abandonLoad s) := by
  have one : ∀ (n : Nat) {u : State}, C.holds u → C.holds (abandonLoad n u) := fun n u hu => by
    unfold abandonLoad
    split
    · exact k.dropLoad n hu
    · exact hu
  exact List.foldlRecOn _ _ h (fun u hu n _ => one n hu)

theorem ownLoadSound (k : AudioInvariant C) (q : LongReq) (p : LoadParams) (h : C.holds s) : C.holds (ownLoadSound q p s).1 := by
  have stored : ∀ c : Che, c.playing = s.che.playing → c.queue = s.che.queue → C.holds (s.setChe c) := fun c playing queue =>
    k.of_voice h playing queue rfl
  have completed : ∀ {u : State}, C.holds u → C.holds (completeRequest q statusDone u) := fun hu => hu.of_same (by simp) (by simp)
  have handed : ∀ {u : State} (id : BulkId) (rs : List Range), C.holds u → C.holds (handBulk id rs u) := fun id rs hu =>
    hu.of_same (by simp) (by simp)
  unfold Machine.ownLoadSound
  extract_lets n len e c
  split_ifs
  all_goals try exact h
  · exact completed (stored _ rfl rfl)
  · exact handed _ _ (stored _ rfl rfl)

theorem ownPlaySound (k : AudioInvariant C) (c : Byte) (h : C.holds s) : C.holds (ownPlaySound c s).1 := by
  have cut : ∀ {u : State}, C.holds u → C.holds (cutBankUnit u) := fun hu => hu.of_same (by simp [cutBankUnit]) (by simp [cutBankUnit])
  unfold Machine.ownPlaySound
  simp only
  split
  · exact h
  · split
    · exact h
    · exact cut (k.of_voice h rfl rfl rfl)

theorem sampleInstant (k : AudioInvariant C) (h : C.holds s) : C.holds (sampleInstant s) := by
  have mix : (onStreams handSample s).mix = s.mix :=
    (same_onStreams (p := .mix) (fun st u => by simp)).2 rfl
  have playing := congrArg (Option.map ChimeRec.bare) (chimeInstant_chime s.vsr s.che)
  rw [Option.map_map, Option.map_map] at playing
  refine k.of_course h ?_
  rw [audioCourse, sampleInstant_che, uiAdvance_keeps, chimeInstant_keeps]
  simp only [Machine.sampleInstant, State.setMix_mix, State.setChe_mix, mix, audioCourse]
  exact congrArg (·, _) playing

/-! ### The view -/

theorem takeSettings (k : AudioInvariant C) (x : Settings) (src : SettingsSource) (h : C.holds s) :
    C.holds (takeSettings x src s) := by
  have taken : ∀ (ds : List ChimeDef) (c : Che), (takeDefs ds c).playing = c.playing ∧ (takeDefs ds c).queue = c.queue := by
    have one : ∀ (n : Nat) (d : ChimeDef) (c : Che), (takeDef n d c).playing = c.playing ∧ (takeDef n d c).queue = c.queue := by
      intro n d c
      unfold takeDef
      split <;> exact ⟨rfl, rfl⟩
    intro ds c
    unfold takeDefs
    split
    · simp [one]
    · exact ⟨rfl, rfl⟩
  obtain ⟨playing, queue⟩ := taken x.chimes s.che
  exact k.settleDefs (k.of_voice h playing queue rfl)

theorem applyWaiting (k : AudioInvariant C) (h : C.holds s) : C.holds (applyWaiting s) := by
  unfold Machine.applyWaiting
  split
  · exact h
  · rename_i img waits
    exact (k.takeSettings (imageSettings img) .image (s := s.setSto { s.sto with waiting := none }) h).of_same
      (by simp [raiseSettings]) (by simp [raiseSettings])

theorem moveView (k : AudioInvariant C) (new : ViewState) (manual : Bool) (cause : ViewCause) (h : C.holds s) :
    C.holds (moveView new manual cause s) := by
  have entering : C.holds (viewEntering new manual cause s) := h.of_same chimesKept_entering.1 chimesKept_entering.2.1
  rw [moveView_entering]
  generalize viewEntering new manual cause s = u at entering
  cases new with
  | off => exact k.applyWaiting (s := u.setGlg { u.glg with ks := 0 }) entering
  | starting => exact entering.of_same (by simp [enterView]) (by simp [enterView])
  | noSignal => exact k.arriveInternal 2 entering
  | live | exitHold => exact entering

theorem viewReverseOn (k : AudioInvariant C) (h : C.holds s) : C.holds (viewReverseOn s) := by
  unfold Machine.viewReverseOn
  split
  · exact k.moveView _ _ _ h
  · exact k.moveView _ _ _ h
  · split
    · exact h.of_same (by simp [takeOver]) (by simp [takeOver])
    · exact h

theorem viewReverseOff (k : AudioInvariant C) (h : C.holds s) : C.holds (viewReverseOff s) := by
  unfold Machine.viewReverseOff leaveReverse
  repeat' split
  all_goals first | exact h | exact k.moveView _ _ _ h

theorem viewSpeed (k : AudioInvariant C) (h : C.holds s) : C.holds (viewSpeed s) := by
  unfold Machine.viewSpeed
  repeat' split
  all_goals first | exact h | exact k.moveView _ _ _ h

theorem viewCameraGone (k : AudioInvariant C) (cause : ViewCause) (h : C.holds s) : C.holds (viewCameraGone cause s) := by
  unfold Machine.viewCameraGone
  split
  · exact k.moveView _ _ _ h
  · exact h

theorem viewVblank (k : AudioInvariant C) (h : C.holds s) : C.holds (viewVblank s) := by
  unfold Machine.viewVblank
  split
  · exact k.moveView _ _ _ h
  · exact h

theorem viewStartTimeout (k : AudioInvariant C) (h : C.holds s) : C.holds (viewStartTimeout s) := by
  unfold Machine.viewStartTimeout
  split
  · exact k.moveView _ _ _ h
  · exact h

theorem viewExitTimeout (k : AudioInvariant C) (h : C.holds s) : C.holds (viewExitTimeout s) := by
  unfold Machine.viewExitTimeout
  split
  · exact k.moveView _ _ _ h
  · exact h

theorem ownViewRequest (k : AudioInvariant C) (mode : Byte) (h : C.holds s) : C.holds (ownViewRequest mode s).1 := by
  unfold Machine.ownViewRequest viewOn viewOff
  repeat' split
  all_goals first | exact h | exact k.moveView _ _ _ h

/-! ### The camera -/

theorem changeStream (k : AudioInvariant C) (new : CamStream) (n : Nat) (h : C.holds s) : C.holds (changeStream new n s) := by
  by_cases locked : s.cin.stream = .locked
  · rw [changeStream_of_locked new n locked]
    exact k.viewCameraGone _ (h.of_same (by simp [unlocked]) (by simp [unlocked]))
  · rw [changeStream_of_unlocked new n locked]
    exact h.of_same (by simp) (by simp)

theorem frameStartStream (k : AudioInvariant C) (h : C.holds s) : C.holds (frameStartStream s) := by
  unfold Machine.frameStartStream
  simp only
  split
  · exact k.changeStream _ _ h
  · exact h

theorem faultFrame (k : AudioInvariant C) (cause : FaultCause) (h : C.holds s) : C.holds (faultFrame cause s) := by
  rw [faultFrame_eq]
  split
  · exact k.changeStream _ _ (h.of_same rfl rfl)
  · exact h

theorem goodEndStream (k : AudioInvariant C) (h : C.holds s) : C.holds (goodEndStream s) := by
  rw [goodEndStream_eq]
  split
  · exact k.changeStream _ _ (h.of_same rfl rfl)
  · exact h

theorem takeSignature (k : AudioInvariant C) (sig : Nat) (h : C.holds s) : C.holds (takeSignature sig s) := by
  obtain ⟨differs, sets, keeps⟩ := takeSignature_eq sig s
  by_cases d : s.cin.sameRun = 0 ∨ sig ≠ s.cin.lastSig
  · rw [differs d]
    exact h.of_same (by simp) (by simp)
  · by_cases f : freezes sig s.cin
    · rw [sets f]
      exact k.viewCameraGone _ (h.of_same (by simp) (by simp))
    · rw [keeps d f]
      exact h

theorem goodEnd (k : AudioInvariant C) (f : CamFrame) (h : C.holds s) : C.holds (goodEnd f s) := by
  rw [goodEnd_eq]
  split
  · exact k.takeSignature _ (k.goodEndStream (h.of_same rfl rfl))
  · exact k.goodEndStream (h.of_same rfl rfl)

theorem finishLine (k : AudioInvariant C) (h : C.holds s) : C.holds (finishLine s) := by
  have flushed : C.holds (flushLine s) := h.of_same (by simp) (by simp)
  unfold Machine.finishLine
  simp only
  split
  · exact h
  · split
    · split
      · exact k.goodEnd _ flushed
      · exact flushed
    · exact flushed

theorem nextTestRow (h : C.holds s) : C.holds (nextTestRow s) := h.of_same (by simp) (by simp)

theorem lineWritten (k : AudioInvariant C) (h : C.holds s) : C.holds (lineWritten s) := by
  unfold Machine.lineWritten
  split
  · split
    · exact k.goodEnd _ h
    · exact nextTestRow h
  · exact h

theorem endFrame (k : AudioInvariant C) (f : CamFrame) (h : C.holds s) : C.holds (endFrame f s) := by
  unfold Machine.endFrame
  simp only
  split
  · exact k.lineWritten (h.of_same rfl rfl)
  · exact h

theorem camFrameStart (k : AudioInvariant C) (h : C.holds s) : C.holds (camFrameStart s) := by
  have begun : ∀ u : State, C.holds u → C.holds (beginFrame (Machine.frameStartStream u)) := fun u hu => k.frameStartStream hu
  unfold Machine.camFrameStart
  simp only
  split
  · exact begun _ (k.faultFrame _ (k.finishLine h))
  · exact begun _ (k.finishLine h)

theorem camLineStart (k : AudioInvariant C) (h : C.holds s) : C.holds (camLineStart s) := by
  unfold Machine.camLineStart
  repeat' split
  all_goals first | exact h | exact k.faultFrame _ h

theorem camLineEnd (k : AudioInvariant C) (h : C.holds s) : C.holds (camLineEnd s) := by
  unfold Machine.camLineEnd
  split
  · exact h
  · split
    · exact k.faultFrame _ h
    · split
      · exact k.faultFrame _ h
      · exact (k.finishLine h).of_same (by simp) (by simp)

theorem camFrameEnd (k : AudioInvariant C) (h : C.holds s) : C.holds (camFrameEnd s) := by
  unfold Machine.camFrameEnd
  split
  · exact h
  · split
    · exact k.faultFrame _ h
    · split
      · exact k.faultFrame _ h
      · exact k.endFrame _ h

theorem camInvalid (k : AudioInvariant C) (h : C.holds s) : C.holds (camInvalid s) := by
  unfold Machine.camInvalid
  split
  · exact h
  · exact k.faultFrame _ h

theorem camPixel (k : AudioInvariant C) (b : Byte) (h : C.holds s) : C.holds (camPixel b s) := by
  unfold Machine.camPixel
  repeat' split
  all_goals first | exact h | exact k.faultFrame _ h

theorem switchSource (k : AudioInvariant C) (src : CamSource) (h : C.holds s) : C.holds (switchSource src s) := by
  have taken : C.holds (sourceTaken src s) := by
    unfold sourceTaken
    simp only
    split
    · exact h.of_same (by simp) (by simp)
    · exact h
  have restarted : C.holds (streamRestarted (sourceTaken src s)) := by
    unfold streamRestarted
    split
    · exact taken
    · exact k.changeStream _ _ taken
  rw [switchSource_eq]
  exact restarted.of_same (by simp) (by simp)

theorem leaveTest (k : AudioInvariant C) (cause : Nat) (h : C.holds s) : C.holds (leaveTest cause s) :=
  (k.switchSource .port h).of_same (by simp [Machine.leaveTest]) (by simp [Machine.leaveTest])

theorem camReverseOn (k : AudioInvariant C) (h : C.holds s) : C.holds (camReverseOn s) := by
  unfold Machine.camReverseOn
  split
  · exact k.leaveTest _ h
  · exact h

theorem ownCameraTest (k : AudioInvariant C) (mode : Byte) (h : C.holds s) : C.holds (ownCameraTest mode s).1 := by
  obtain e | e | e := ownCameraTest_cases mode s <;> rw [e]
  · exact h
  · exact k.switchSource .test h
  · exact k.leaveTest 1 h

theorem endTestFrame (k : AudioInvariant C) (h : C.holds s) : C.holds (endTestFrame s) := by
  have rest : ∀ (n : Nat) (u : State), C.holds u → C.holds (restOfTest n u) := by
    intro n
    induction n with
    | zero => exact fun u hu => hu
    | succ n ih => exact fun u hu => ih _ (nextTestRow (k.finishLine hu))
  unfold Machine.endTestFrame
  split
  · exact h
  · split
    · exact h
    · simp only
      split
      · exact k.endFrame _ (rest _ _ (h.of_same rfl rfl))
      · exact rest _ _ (h.of_same rfl rfl)

theorem startTestFrame (k : AudioInvariant C) (h : C.holds s) : C.holds (startTestFrame s) := by
  have timed : ∀ (c : Cin) {u : State}, C.holds u → C.holds (u.setCin c) := fun _ _ hu => hu
  have reached : ∀ (n : Nat) {u : State}, C.holds u → C.holds (reach n u) := fun _ _ hu => hu
  exact nextTestRow (timed _ (k.camFrameStart (reached _ (k.endTestFrame h))))

/-! ### The vehicle -/

theorem handReverse (k : AudioInvariant C) (h : C.holds s) : C.holds (handReverse s) := by
  have chime : ∀ {u : State}, C.holds u → C.holds (chimeReverseOn u) := fun {u} hu => by
    unfold chimeReverseOn
    split
    · exact k.arriveInternal 0 hu
    · exact hu
  unfold Machine.handReverse
  split
  · exact k.evalCadence _ (chime (k.camReverseOn (k.viewReverseOn h)))
  · exact k.evalCadence _ (k.viewReverseOff h)

theorem evalReverse (k : AudioInvariant C) (h : C.holds s) : C.holds (evalReverse s) := by
  by_cases e : (lineSource s.vsr || gearSource s.vsr) = s.vsr.reverse
  · rw [evalReverse_of_unchanged e]
    exact h
  · rw [evalReverse_of_changed rfl e]
    exact k.handReverse (h.of_same (same_reverseTaken (by decide) (by decide) _) (same_reverseTaken (by decide) (by decide) _))

theorem evalDisagreement (h : C.holds s) : C.holds (evalDisagreement s) := h.of_same (by simp) (by simp)

theorem evalMotion (k : AudioInvariant C) (h : C.holds s) : C.holds (evalMotion s) :=
  evalDisagreement (k.evalReverse (h.of_same (by simp) (by simp)))

theorem freshDeadline (k : AudioInvariant C) (kind : VslKind) (h : C.holds s) : C.holds (freshDeadline kind s) := by
  have moved : ∀ f : Freshness, C.holds (moveFresh kind f s) := fun f => h.of_same (by simp) (by simp)
  cases kind with
  | motion => exact k.evalMotion (moved _)
  | parkAssist => exact k.evalCadence _ (moved _)

theorem takeEvent (k : AudioInvariant C) (e : RxEvent) (h : C.holds s) : C.holds (takeEvent e s) := by
  have fresh : ∀ {u : State} (kind : VslKind) (seq : BitVec 4), C.holds u → C.holds (freshFrame kind seq u) := fun kind seq hu =>
    hu.of_same (by simp) (by simp)
  have motion : ∀ {u : State} (m : MotionPart) (seq : BitVec 4), C.holds u →
      C.holds (Machine.viewSpeed (Machine.evalMotion (freshFrame .motion seq (u.setVsr { u.vsr with motion := m })))) :=
    fun m seq hu => k.viewSpeed (k.evalMotion (fresh _ _ (hu.of_same rfl rfl)))
  cases e with
  | error e hdr => exact h.of_same (by simp [Machine.takeEvent]) (by simp [Machine.takeEvent])
  | good hdr bits =>
    simp only [Machine.takeEvent]
    split
    · unfold goodMotion
      simp only
      split
      · exact motion _ _ h
      · exact motion _ _ (h.of_same (by simp) (by simp))
    · exact k.evalCadence _ (fresh _ _ (h.of_same rfl rfl))

theorem takeBits (k : AudioInvariant C) (bits : List Bool) (h : C.holds s) : C.holds (takeBits bits s) :=
  List.foldlRecOn _ _ (h.of_same (t := s.setVsr { s.vsr with rx := (rxBits bits s.vsr.rx).1 }) rfl rfl)
    (fun _ hu e _ => k.takeEvent e hu)

theorem holdExpiry (k : AudioInvariant C) (h : C.holds s) : C.holds (holdExpiry s) := by
  have ended : C.holds (s.setVsr { s.vsr with hold := none, debRev := s.vsr.rawRev }) := h
  exact evalDisagreement (k.evalReverse ended)

theorem takeSample (k : AudioInvariant C) (lo hi : Bool) (h : C.holds s) : C.holds (takeSample lo hi s) := by
  have lost : ∀ {u : State}, C.holds u → C.holds (handLow u) := fun {u} hu => by
    have held : C.holds (onStreams holdStream (onPipes hideFetched u)) := hu.of_same
      ((same_onStreams (fun st v => by simp)).2 ((same_onPipes (fun q v => by simp)).2 rfl))
      ((same_onStreams (fun st v => by simp)).2 ((same_onPipes (fun q v => by simp)).2 rfl))
    exact (k.muteForLow _ held).of_same (by simp [handLow]) (by simp [handLow])
  have returned : ∀ {u : State}, C.holds u → C.holds (handNormal u) := fun {u} hu => hu.of_same (by simp) (by simp)
  have changed : ∀ {u : State} (low : Bool), C.holds u → C.holds (changeSupply low u) := fun {u} low hu => by
    unfold changeSupply
    simp only
    split
    · exact lost (hu.of_same (by simp) (by simp))
    · exact returned (hu.of_same (by simp) (by simp))
  have sampled : C.holds (s.setSmn (supplyRuns (supplyLevel lo hi) s.smn)) := h
  unfold Machine.takeSample
  simp only
  split
  · exact changed _ sampled
  · split
    · exact changed _ sampled
    · exact sampled

/-! ### The settings and the vblank -/

theorem takeStartImage (k : AudioInvariant C) (img : List Byte) (h : C.holds s) : C.holds (takeStartImage img s) := by
  have raised : ∀ {u : State} (a b : Nat) (w : Word), C.holds u → C.holds (raiseSettings a b w u) := fun a b w hu =>
    hu.of_same (by simp) (by simp)
  unfold Machine.takeStartImage
  split
  · exact raised _ _ _ (k.takeSettings _ _ h)
  · refine raised _ _ _ ?_
    exact k.takeSettings defaultSettings .defaults h

theorem compareImage (k : AudioInvariant C) (bytes : List Byte) (h : C.holds s) : C.holds (compareImage bytes s) := by
  have ended : ∀ {u : State} (x : Sto) (w : Word), C.holds u → C.holds
      (if (u.setSto x).vwc.view = .off then Machine.applyWaiting (u.setSto x) else raiseSettings 3 0 w (u.setSto x)) :=
    fun {u} x w hu => by
      split
      · exact k.applyWaiting (s := u.setSto x) hu
      · exact hu.of_same (by simp) (by simp)
  have finished : C.holds (finishWrite s) := by
    unfold finishWrite
    cases s.sto.writeReq with
    | some q => exact ended _ _ (h.of_same (t := completeRequest q statusDone s) (by simp) (by simp))
    | none => exact ended _ _ h
  unfold Machine.compareImage
  split
  · exact finished.of_same (by simp) (by simp)
  · exact h.of_same (by simp) (by simp)

theorem vblank (k : AudioInvariant C) (p : PipeId) (h : C.holds s) : C.holds (vblank p s) := by
  have fixed : ∀ {u : State}, C.holds u → C.holds (fixFrame p (present p u)) := fun hu => hu.of_same (by simp) (by simp)
  have begun : ∀ (x : Pipe) (n : Nat), C.holds (activateScene p (countStart p (setPipe p x (reachNs n s)))) := fun x n =>
    h.of_same (by simp) (by simp)
  have centre : ∀ {u : State}, C.holds u → C.holds (centreVblank u) := fun hu =>
    (k.viewVblank hu).of_same (by simp [centreVblank]) (by simp [centreVblank])
  unfold Machine.vblank
  simp only
  split
  · exact fixed (centre (begun _ _))
  · exact fixed (begun _ _)

/-! ### The records of a page -/

/-- Table 8-6: the requests that reach the view, the camera, the mixer or the chimes. -/
theorem ownRequest (k : AudioInvariant C) (q : LongReq) (r : Request) (h : C.holds s) : C.holds (ownRequest q r s).1 := by
  cases r
  case viewRequest mode => exact k.ownViewRequest mode h
  case cameraTest mode => exact k.ownCameraTest mode h
  case setMix p => exact k.setMix p s h
  case defineChime p => exact k.ownDefineChime p h
  case playChime n => exact k.ownPlayChime n h
  case cancelChime n => exact k.ownCancelChime n h
  case loadSound p => exact k.ownLoadSound q p h
  case playSound n => exact k.ownPlaySound n h
  all_goals exact h.of_same (by simp [Machine.ownRequest]) (by simp [Machine.ownRequest])

theorem takeRecord {own : LongReq → State → State × Answer} (r : RecordRef) (o : ∀ q u, C.holds u → C.holds (own q u).1)
    (h : C.holds s) : C.holds (takeRecord r own s) := by
  have entered : ∀ (a : Answer) {u : State}, C.holds u → C.holds (enterAnswer r a u) := fun a u hu =>
    hu.of_same ((same_enterAnswer (by decide)).2 rfl) ((same_enterAnswer (by decide)).2 rfl)
  unfold Machine.takeRecord
  simp only
  split
  · exact entered _ (o _ _ h)
  · exact o _ _ h

theorem takeKind (k : AudioInvariant C) (r : RecordRef) (bytes : List Byte) (h : C.holds s) : C.holds (takeKind r bytes s) := by
  refine takeRecord r (fun q u hu => ?_) h
  split
  · split
    · exact hu
    · exact k.ownRequest q _ hu
  · exact hu

theorem recordsRead (k : AudioInvariant C) (page : Nat) (bytes : List Byte) (h : C.holds s) : C.holds (recordsRead page bytes s) := by
  have taken : ∀ (n : Nat) (seq : Word) (pos : Nat) {u : State}, C.holds u → C.holds (takeRecords n page seq bytes pos u) := by
    intro n seq
    induction n with
    | zero => exact fun pos u hu => hu
    | succ n ih =>
      intro pos u hu
      unfold takeRecords
      simp only
      split
      · exact hu
      · split
        · exact takeRecord _ (fun q v hv => hv) hu
        · exact ih _ (k.takeKind _ _ hu)
  have ended : ∀ (r : RecordRef) {u : State}, C.holds u → C.holds (endPage r u) := fun r u hu => hu.of_same (by simp) (by simp)
  unfold Machine.recordsRead
  simp only
  split
  · exact ended _ (taken _ _ _ h)
  · exact h

/-! ### The fetch engine and an exit from ATTACHED -/

theorem exitAttached (k : AudioInvariant C) (new : AttachState) (cause : AttachCause) (h : C.holds s) :
    C.holds (exitAttached new cause s) := by
  have restarts : ∀ p : Part, p = .che ∨ p = .mix → ∀ u : State, p.same s u → p.same s (onPipes abandonRestarts u) := by
    rintro p (rfl | rfl) u hu <;> exact (same_onPipes (fun q v => by simp [abandonRestarts])).2 hu
  have left : C.holds (screensLeft new cause s) :=
    h.of_same (restarts _ (.inl rfl) _ (by simp [workLeft])) (restarts _ (.inr rfl) _ (by simp [workLeft]))
  rw [exitAttached_eq]
  exact (k.abandonLoads left).of_same (by simp) (by simp)

theorem detachNow (k : AudioInvariant C) (h : C.holds s) : C.holds (detachNow s) := by
  unfold Machine.detachNow
  split
  · exact h
  · exact h.of_same (by simp) (by simp)
  · exact k.exitAttached _ _ h
  · exact h

theorem writeRegs (k : AudioInvariant C) (n : Nat) (bytes : List Byte) (h : C.holds s) : C.holds (writeRegs n bytes s) := by
  have command : ∀ (b : Byte) {u : State}, C.holds u → C.holds (ctrlByte b u) := fun b u hu => by
    have left : C.holds (if b.getLsbD 1 then Machine.detachNow u else u) := by
      split
      · exact k.detachNow hu
      · exact hu
    have attached : ∀ {v : State}, C.holds v → C.holds (if b.getLsbD 0 then attachNow v else v) := fun hv => by
      split
      · exact hv.of_same (by simp) (by simp)
      · exact hv
    unfold ctrlByte
    simp only
    split
    · exact (attached left).of_same (by simp) (by simp)
    · exact attached left
  have one : ∀ (o : Nat) (b : Byte) {u : State}, C.holds u → C.holds (writeRegByte o b u) := fun o b u hu => by
    unfold writeRegByte
    repeat' split
    · exact command b hu
    · exact hu
    · exact hu
  induction bytes generalizing n s with
  | nil => exact h
  | cons b bytes ih => exact ih _ (one _ _ h)

theorem failChannel (k : AudioInvariant C) (c : ChanId) (n : Nat) (discard : Bool) (h : C.holds s) :
    C.holds (failChannel c n discard s) := by
  have told : ∀ {u : State}, C.holds u → C.holds (tellOwner c n discard u) := fun {u} hu => by
    rcases c with ⟨p, slot⟩ | st | _ | _ | _ | (_ | _ | m)
    case work =>
      change C.holds (workError u)
      unfold workError
      split
      · exact k.exitAttached _ _ hu
      · exact hu.of_same (by simp) (by simp)
      · exact hu
    case bulk.sound => exact k.failLoad _ hu
    all_goals exact hu.of_same (by simp [tellOwner, copyInFailed]) (by simp [tellOwner, copyInFailed])
  exact told h

theorem afterOrphan (c : ChanId) (h : C.holds s) : C.holds (afterOrphan c s) := by
  unfold Machine.afterOrphan
  split
  · exact h.of_same (by simp) (by simp)
  · exact h

theorem grantUnit (k : AudioInvariant C) (c : ChanId) (r : Range) (h : C.holds s) : C.holds (grantUnit c r s) := by
  have work : ∀ {u : State}, C.holds u → C.holds (grantWork r u) := fun hu => by
    refine hu.of_same ?_ ?_ <;> (unfold grantWork; simp only; repeat' split) <;> simp
  have copy : ∀ {u : State}, C.holds u → C.holds (grantCopyOut r u) := fun hu => by
    refine hu.of_same ?_ ?_ <;> (unfold grantCopyOut; simp only; repeat' split) <;> simp
  have turned : C.holds (s.setFen (turnAfter c s.fen)) := h
  unfold Machine.grantUnit
  simp only
  split
  · split
    · split
      · exact work turned
      · exact copy turned
    · split <;> exact turned
  · exact k.failChannel _ _ _ h

theorem systemGrant (k : AudioInvariant C) (h : C.holds s) : C.holds (systemGrant s) := by
  unfold Machine.systemGrant
  split
  · exact h
  · split
    · exact k.grantUnit _ _ h
    · exact h

theorem handData (k : AudioInvariant C) (c : ChanId) (discard : Bool) (data : List Byte) (h : C.holds s) :
    C.holds (handData c discard data s) := by
  cases c
  case work =>
    have popped : C.holds (popWork s) := h
    change C.holds (workArrived data s)
    unfold workArrived
    simp only
    split
    · exact h
    · split
      · split
        · exact popped.of_same (by simp) (by simp)
        · exact popped.of_same (by simp) (by simp)
        · exact k.recordsRead _ _ popped
        · exact popped
      · exact h
  case plane =>
    simp only [Machine.handData]
    split
    · exact h.of_same (by simp) (by simp)
    · exact h.of_same (by simp) (by simp)
  case bulk id =>
    cases id
    case settingsIn =>
      simp only [Machine.handData]
      split
      · exact h.of_same (by simp) (by simp)
      · exact h
    all_goals exact h
  all_goals exact h.of_same (by simp [Machine.handData]) (by simp [Machine.handData])

theorem drain (k : AudioInvariant C) (n : Nat) (c : ChanId) (h : C.holds s) : C.holds (drain n c s) := by
  induction n generalizing s with
  | zero => exact h
  | succ n ih =>
    unfold Machine.drain
    split
    · exact h
    · split
      · refine ih (k.handData _ _ _ ?_)
        exact h
      · exact h

theorem completion (k : AudioInvariant C) (place : Nat) (ok : Bool) (data : List Byte) (h : C.holds s) :
    C.holds (completion place ok data s) := by
  have phased : ∀ ph : UnitPhase, C.holds (rephase place ph s) := fun _ => h
  have removed : C.holds (removeUnit place s) := h
  unfold Machine.completion
  split
  · exact h
  · split
    · split
      · exact k.drain _ _ (phased _)
      · exact k.failChannel _ _ _ removed
    · exact afterOrphan _ removed
    · exact removed

theorem unitTimedOut (k : AudioInvariant C) (place : Nat) (h : C.holds s) : C.holds (unitTimedOut place s) := by
  have phased : ∀ (n : Nat) (ph : UnitPhase), C.holds (rephase place ph (reach n s)) := fun _ _ => h
  unfold Machine.unitTimedOut
  split
  · exact h
  · simp only
    split
    · exact k.failChannel _ _ _ (phased _ _)
    · exact afterOrphan _ (phased _ _)
    · exact h

theorem localMoved (k : AudioInvariant C) (q : LocalUnit) (h : C.holds s) : C.holds (localMoved q s) := by
  unfold Machine.localMoved
  split
  · unfold cameraWritten
    simp only
    split
    · exact k.lineWritten (s := s.setFen _) h
    · exact h
  · unfold guideWritten
    simp only
    split
    · exact h.of_same (by simp) (by simp)
    · exact h
  · exact h
  · exact h
  · unfold bankArrived
    split
    · exact h
    · exact k.of_voice h rfl rfl rfl
  · unfold bulkWrote
    split
    · simp only
      split
      · exact k.finishLoad _ (s := s.setFen _) h
      · exact h
    · exact h

theorem localDone (k : AudioInvariant C) (h : C.holds s) : C.holds (localDone s) := by
  have written : ∀ ws : List (Nat × List Byte), C.holds (writePieces ws (s.setFen { s.fen with localUnit := none })) := fun ws =>
    h.of_same (by simp) (by simp)
  unfold Machine.localDone
  split
  · exact h
  · simp only
    split
    · exact k.localMoved _ (written _)
    · exact written _

/-! ### Every command -/

theorem of_finish {u : State} (hu : C.holds u) (e : finish u = .next t) : C.holds t := by
  cases e
  exact hu.of_same (settle_che u) (settle_mix u)

theorem of_next (h : C.holds s) (e : (.next s : Host.Outcome State Fault Refusal) = .next t) : C.holds t := by
  cases e; exact h

theorem of_request {r : RecordRef} {own : LongReq → State → State × Answer} (h : C.holds s)
    (o : ∀ q u, C.holds u → C.holds (own q u).1) (e : request r own s = .next t) : C.holds t := by
  unfold request at e
  split at e
  · exact of_finish (takeRecord r o h) e
  · exact of_next h e

/-- What a command but power-on reset does to the chimes and the mixer. -/
theorem exec (k : AudioInvariant C) {c : Instr} (n : ∀ rev, c ≠ .powerOnReset rev) (h : C.holds s) (e : exec c s = .next t) :
    C.holds t := by
  have reached : ∀ n : Nat, C.holds (reach n s) := fun _ => h
  have reachedNs : ∀ n : Nat, C.holds (reachNs n s) := fun _ => h
  have freed : ∀ {u : State}, C.holds u → C.holds (freeFlash u) := fun hu => hu.of_same (by simp) (by simp)
  cases c
  case powerOnReset rev => exact absurd rfl (n rev)
  -- the vehicle line, REVERSE and the supply
  case motionFrame bits | parkAssistFrame bits | frameError bits | returnToRest bits => exact of_finish (k.takeBits bits h) e
  case freshnessDeadline kind =>
    dsimp only [Machine.exec, execFreshnessDeadline] at e
    split at e
    · exact of_finish (k.freshDeadline kind (reached _)) e
    · exact of_next h e
  case holdTimer =>
    dsimp only [Machine.exec, execHoldTimer] at e
    split at e
    · exact of_finish (k.holdExpiry (reached _)) e
    · exact of_next h e
  case supplySample lo hi =>
    refine of_finish (k.takeSample lo hi ?_) e
    exact h
  -- the camera port, its deadline and test mode
  case frameStart =>
    dsimp only [Machine.exec, execFrameStart] at e
    split at e
    · exact of_finish (k.camFrameStart h) e
    · exact of_next h e
  case lineStart => exact of_finish (k.camLineStart h) e
  case lineEnd => exact of_finish (k.camLineEnd h) e
  case frameEnd => exact of_finish (k.camFrameEnd h) e
  case invalidCode => exact of_finish (k.camInvalid h) e
  case pixelByte b => exact of_finish (k.camPixel b h) e
  case frameStartDeadline =>
    dsimp only [Machine.exec, execFrameStartDeadline] at e
    split at e
    · refine of_finish (k.changeStream .lost 4 ?_) e
      exact h
    · exact of_next h e
  case testFrameStart =>
    dsimp only [Machine.exec, execTestFrameStart] at e
    split at e
    · exact of_finish (k.startTestFrame h) e
    · exact of_next h e
  case testFrameEnd =>
    dsimp only [Machine.exec, execTestFrameEnd] at e
    split at e
    · exact of_finish (k.endTestFrame h) e
    · exact of_next h e
  case cameraTest r mode => exact of_request h (fun _ _ hu => k.ownCameraTest mode hu) e
  -- the view
  case viewRequest r mode => exact of_request h (fun _ _ hu => k.ownViewRequest mode hu) e
  case startTimer =>
    dsimp only [Machine.exec, execStartTimer] at e
    split at e
    · exact of_finish (k.viewStartTimeout (reached _)) e
    · exact of_next h e
  case exitTimer =>
    dsimp only [Machine.exec, execExitTimer] at e
    split at e
    · exact of_finish (k.viewExitTimeout (reached _)) e
    · exact of_next h e
  case pipeVblank p =>
    dsimp only [Machine.exec, execPipeVblank] at e
    split at e
    · exact of_next h e
    · exact of_finish (k.vblank p h) e
  -- the mixer and the chimes
  case outputSampleInstant => exact of_finish (k.sampleInstant (reachedNs _)) e
  case rampBlock =>
    have ramped := k.rampAll _ (reachedNs (instantNs (48 * s.mix.blocks)))
    refine of_finish (u := State.setMix _ _) ?_ e
    exact k.of_course ramped rfl
  case duckHoldTimer =>
    dsimp only [Machine.exec, execDuckHoldTimer] at e
    split at e
    · refine of_finish (u := duckExpiry _) ?_ e
      exact k.of_course h rfl
    · exact of_next h e
  case setMix r p => exact of_request h (fun _ _ hu => k.setMix p _ hu) e
  case defineChime r p => exact of_request h (fun _ _ hu => k.ownDefineChime p hu) e
  case playChime r c => exact of_request h (fun _ _ hu => k.ownPlayChime c hu) e
  case cancelChime r c => exact of_request h (fun _ _ hu => k.ownCancelChime c hu) e
  case loadSound r p => exact of_request h (fun q _ hu => k.ownLoadSound q p hu) e
  case playSound r c => exact of_request h (fun _ _ hu => k.ownPlaySound c hu) e
  case toneStepEnd => exact of_finish (k.stepEnd h) e
  case releaseTailEnd => exact of_finish (u := tailEnd s) (k.of_voice h rfl rfl rfl) e
  case cadenceDecisionPoint => exact of_finish (k.cadenceDecision h) e
  case cadenceCycleEnd => exact of_finish (k.cadenceCycle h) e
  -- the ports and the work area
  case systemPortGrant => exact of_finish (k.systemGrant h) e
  case readCompletion place ok data => exact of_finish (k.completion place ok data h) e
  case localUnitCompletion => exact of_finish (k.localDone h) e
  case unitTimeout place => exact of_finish (k.unitTimedOut place h) e
  case linkReset =>
    have left := k.detachNow h
    exact of_finish (u := linkResetNow s) left e
  case detach => exact of_finish (k.detachNow h) e
  case registerWrite offset bytes => exact of_finish (k.writeRegs offset bytes h) e
  -- the settings
  case settingsLoad img =>
    dsimp only [Machine.exec, execSettingsLoad] at e
    split at e
    · exact of_finish (freed (k.takeStartImage img (reachedNs _))) e
    · exact of_next h e
  case verifyReadComplete bytes =>
    dsimp only [Machine.exec, execVerifyReadComplete] at e
    split at e
    · exact of_finish (k.compareImage bytes (reachedNs _)) e
    · exact of_next h e
  all_goals exact h.of_same (exec_same (by simp [mayTouch]) e) (exec_same (by simp [mayTouch]) e)

/-- A condition that the operations of CHE and MIX keep, and that holds right after power-on reset, is kept by every step. -/
theorem step (k : AudioInvariant C) (reset : C resetChe resetMix) (h : C.holds s) (e : step s = .next t) : C.holds t := by
  obtain ⟨-, rfl⟩ | ⟨c, rest, -, e⟩ := step_cases e
  · exact h
  · by_cases r : ∃ rev, c = .powerOnReset rev
    · obtain ⟨rev, rfl⟩ := r
      obtain rfl : _ = t := by simpa [Machine.exec, execPowerOnReset] using e
      exact reset
    · refine k.exec (fun rev e => r ⟨rev, e⟩) ?_ e
      exact h

end AudioInvariant
end AudioConditions

/-! ## The gain codes over a step (R117 to R121) -/

section GainCodes
variable {s t u v : State} {m n : Mix}

theorem codesOk_iff (g : OutGains) :
    codesOk g = true ↔ g.filmA ≤ 192 ∧ g.filmB ≤ 192 ∧ g.ui ≤ 192 ∧ g.chime ≤ 192 ∧ g.master ≤ 192 := by
  simp [codesOk, and_assoc]

theorem gainsOk_iff (m : Mix) :
    gainsOk m = true ↔ ∀ o : OutputId, codesOk (m.matrix.get o) = true ∧ codesOk (m.effective.get o) = true := by
  simp only [gainsOk, Bool.and_eq_true]
  constructor
  · rintro ⟨⟨⟨⟨⟨cabin, headA⟩, headB⟩, cabin'⟩, headA'⟩, headB'⟩ (_ | _ | _) <;> exact ⟨‹_›, ‹_›⟩
  · intro h
    exact ⟨⟨⟨⟨⟨(h .cabin).1, (h .headA).1⟩, (h .headB).1⟩, (h .cabin).2⟩, (h .headA).2⟩, (h .headB).2⟩

/-- R121, R122: a change of the playing chime lowers a gain at most. -/
theorem gainsOk_of_voiceChanged (h : voiceChanged s t) (k : gainsOk s.mix = true) : gainsOk t.mix = true := by
  obtain ⟨-, -, matrix, effective⟩ := h
  rw [gainsOk_iff] at k ⊢
  intro o
  obtain ⟨codes, gains⟩ := k o
  rw [matrix, effective o]
  refine ⟨codes, ?_⟩
  rw [codesOk_iff] at gains ⊢
  obtain ⟨filmA, filmB, ui, chime, master⟩ := gains
  refine ⟨filmA, filmB, ui, ?_, master⟩
  dsimp only
  split
  · exact (Nat.min_le_left _ _).trans chime
  · exact chime

/-- R121, R122: a change of the voice from `u`, which has the definitions, the supply state and the mixer of `s`, seen from `s` and at a `t`
that keeps what it left. -/
theorem voiceChanged_congr (h : voiceChanged u v) (defs : u.che.defs = s.che.defs) (low : u.smn.low = s.smn.low) (mix : u.mix = s.mix)
    (playing : t.che.playing = v.che.playing) (left : t.mix = v.mix) (clock : t.clockNs = v.clockNs) : voiceChanged s t := by
  have same : ∀ k, defOf u.che k = defOf s.che k := fun k => by rw [defOf, defs]; rfl
  have time : now t = now v := by rw [now, clock]; rfl
  unfold voiceChanged safetyPlaying at h ⊢
  rw [playing, left, time, ← low, ← mix]
  simpa only [same] using h

theorem setPlaying_voice_from (p : Option Playing) (defs : u.che.defs = s.che.defs) (low : u.smn.low = s.smn.low)
    (mix : u.mix = s.mix) : voiceChanged s (setPlaying p u) :=
  voiceChanged_congr setPlaying_voice defs low mix rfl rfl rfl

theorem endPlaying_voice (s : State) : voiceChanged s (endPlaying s) := by
  unfold endPlaying
  split
  · exact setPlaying_voice
  · exact setPlaying_voice_from _ rfl rfl rfl

/-- R127: a free voice takes the head of the queue. -/
theorem startNext_of_free {r : ChimeRec} {q : List ChimeRec} (free : s.che.playing = none) (queue : s.che.queue = r :: q) :
    startNext s = setPlaying (some (Playing.begin r)) (s.setChe { s.che with queue := q }) := by
  simp [startNext, free, queue]

theorem startNext_of_playing {p : Playing} (playing : s.che.playing = some p) : startNext s = s := by simp [startNext, playing]

/-- R129: an arrival at a free voice plays at once. -/
theorem arriveQueued_of_free {r : ChimeRec} (free : s.che.playing = none) (empty : s.che.queue = []) :
    arriveQueued r s = (setPlaying (some (Playing.begin r)) (s.setChe { s.che with queue := [] }), answerDone) := by
  rw [arriveQueued, (enqueue_spec (r := r)).1 (by simp [empty]), empty]
  exact congrArg (·, answerDone) (startNext_of_free (s := s.setChe { s.che with queue := [r] }) free rfl)

theorem startNext_gainsOk (k : gainsOk s.mix = true) : gainsOk (startNext s).mix = true := by
  unfold startNext
  split
  · exact k
  · split
    · exact k
    · exact gainsOk_of_voiceChanged setPlaying_voice k

theorem enqueue_mix (r : ChimeRec) (s : State) : (enqueue r s).1.mix = s.mix := (same_enqueue (p := .mix) (by decide) (by decide)).2 rfl

/-- R129: a chime of a higher class takes the voice. -/
theorem preempt_voice (r : ChimeRec) (p : Playing) (s : State) : voiceChanged s (preempt r p s) := by
  have stopped : voiceChanged s (setPlaying (some (Playing.begin r)) (s.setChe { s.che with tail := tailOf s.che })) :=
    setPlaying_voice_from _ rfl rfl rfl
  refine voiceChanged_congr stopped rfl rfl rfl ?_ ?_ ?_
  · rw [preempt_spec.1, setPlaying_che]
  · unfold preempt
    simp only
    split <;> rename_i e <;> have kept := congrArg (fun x => x.1.mix) e <;> simp only [enqueue_mix] at kept
    · exact kept.symm
    · exact (raise_mix _ _ _ _).trans kept.symm
  · exact ((same_preempt (p := .clock) (by decide) (by decide) (by decide)).2 rfl : Part.clock.same s _).trans (by simp)

theorem arriveQueued_gainsOk (r : ChimeRec) (k : gainsOk s.mix = true) : gainsOk (arriveQueued r s).1.mix = true := by
  have kept := enqueue_mix r s
  unfold arriveQueued
  split <;> rename_i e <;> rw [e] at kept
  · exact startNext_gainsOk (by rw [kept]; exact k)
  · split
    · rw [kept]; exact k
    · exact (congrArg gainsOk ((raise_mix _ _ _ _).trans kept)).trans k

theorem clampCodes_ok (c : MixCodes) : codesOk (clampCodes c) = true := by
  simp [codesOk, clampCodes, clampCode]

theorem rampGain_le {g x : Nat} (h : g ≤ 192) (k : x ≤ 192) : rampGain g x ≤ 192 := by
  unfold rampGain
  split_ifs <;> omega

theorem rampOut_ok {g x : OutGains} (h : codesOk g = true) (k : codesOk x = true) : codesOk (rampOut g x) = true := by
  rw [codesOk_iff] at h k ⊢
  obtain ⟨a, b, c, d, e⟩ := h
  obtain ⟨a', b', c', d', e'⟩ := k
  exact ⟨rampGain_le a a', rampGain_le b b', rampGain_le c c', rampGain_le d d', rampGain_le e e'⟩

/-- R118: a target is a gain code. -/
theorem targetOf_ok (s : State) (o : OutputId) (h : codesOk (s.mix.matrix.get o) = true) : codesOk (targetOf s o) = true := by
  rw [codesOk_iff] at h ⊢
  exact ⟨Nat.min_le_right _ _, Nat.min_le_right _ _, Nat.min_le_right _ _, Nat.min_le_right _ _, h.2.2.2.2⟩

/-- R119: each output's gains move toward its targets. -/
theorem rampAll_effective (s : State) (o : OutputId) :
    (rampAll s).mix.effective.get o = rampOut (s.mix.effective.get o) (targetOf s o) := by cases o <;> rfl

theorem gainsInvariant : AudioInvariant (fun _ m => gainsOk m = true) where
  congr e h := by
    simp only [audioCourse, Prod.mk.injEq] at e
    rw [gainsOk_iff] at h ⊢
    rw [e.2.2.1, e.2.2.2]
    exact h
  preempt r p s _ _ _ h := gainsOk_of_voiceChanged (preempt_voice r p s) h
  arriveQueued r s _ _ h := arriveQueued_gainsOk r h
  filter _ _ h := h
  endPlaying s h := gainsOk_of_voiceChanged (endPlaying_voice s) h
  setMix p s h := by
    refine (gainsOk_iff _).2 fun o => ⟨?_, ((gainsOk_iff _).1 h o).2⟩
    cases o <;> exact clampCodes_ok _
  rampAll s h := by
    refine (gainsOk_iff _).2 fun o => ?_
    have h := (gainsOk_iff _).1 h
    refine ⟨(h o).1, ?_⟩
    rw [rampAll_effective]
    exact rampOut_ok (h o).2 (targetOf_ok s o (h o).1)
  muteForLow s h := by
    refine (gainsOk_iff _).2 fun o => ⟨((gainsOk_iff _).1 h o).1, ?_⟩
    have gains := (codesOk_iff _).1 ((gainsOk_iff _).1 h o).2
    cases o <;> exact (codesOk_iff _).2 (by simp_all [muteForLow, muteOut, PerOutput.get])

/-- Settles O46: every operation keeps each code in its range, and every command makes such operations only. -/
theorem stepKeepsGainCodes : Obligations.StepKeepsGainCodes :=
  fun _ _ h e => gainsInvariant.step (by decide) h e

end GainCodes

/-! ## The chime queue over a step (R127 to R130) -/

section RankOrder
variable {s t u : State} {a b c r x : ChimeRec} {q l : List ChimeRec} {p : Option ChimeRec}

/-- R127: `a` may stand before `b` in the queue: by class, and within a class by priority. -/
def ranksBefore (a b : ChimeRec) : Prop :=
  classRank b.cls ≤ classRank a.cls ∧ (classRank b.cls = classRank a.cls → b.priority ≤ a.priority)

theorem ranksBefore_trans (h : ranksBefore a b) (k : ranksBefore b c) : ranksBefore a c := by
  obtain ⟨class1, priority1⟩ := h
  obtain ⟨class2, priority2⟩ := k
  exact ⟨class2.trans class1, fun e => (priority2 (by omega)).trans (priority1 (by omega))⟩

theorem classRank_injective {a b : ChimeClass} (h : classRank a = classRank b) : a = b := by
  revert h; cases a <;> cases b <;> decide

/-- R127: one arrival is earlier than another, the difference read as a signed value. -/
theorem earlier_iff (a b : Word) : earlier a b = true ↔ 2 ^ 31 ≤ (a - b).toNat := by
  rw [earlier, decide_eq_true_iff, BitVec.toInt_neg_iff]
  omega

/-- R127: by class, then by priority, then by the arrival numbers. -/
theorem outranks_iff (a b : ChimeRec) : outranks a b = true ↔
    classRank b.cls < classRank a.cls ∨ (a.cls = b.cls ∧ b.priority < a.priority) ∨
      (a.cls = b.cls ∧ a.priority = b.priority ∧ 2 ^ 31 ≤ (a.arrival - b.arrival).toNat) := by
  unfold outranks
  by_cases cls : a.cls = b.cls
  · by_cases priority : a.priority = b.priority
    · simp [cls, priority, earlier_iff]
    · simp [cls, priority]
  · have other : classRank a.cls ≠ classRank b.cls := fun e => cls (classRank_injective e)
    simp [cls, other]

theorem ranksBefore_of_outranks (h : outranks a b = true) : ranksBefore a b := by
  rcases (outranks_iff a b).1 h with lower | ⟨cls, priority⟩ | ⟨cls, priority, -⟩
  · exact ⟨lower.le, fun e => absurd e (by omega)⟩
  · exact ⟨by rw [cls], fun _ => priority.le⟩
  · exact ⟨by rw [cls], fun _ => priority.ge⟩

theorem ranksBefore_of_not_outranks (h : outranks a b = false) : ranksBefore b a := by
  have not : ¬ outranks a b = true := by simp [h]
  rw [outranks_iff, not_or, not_or] at not
  obtain ⟨cls, priority, -⟩ := not
  refine ⟨Nat.not_lt.1 cls, fun e => Nat.not_lt.1 fun lower => priority ⟨classRank_injective e, lower⟩⟩

theorem insertRec_perm (r : ChimeRec) (q : List ChimeRec) : (insertRec r q).Perm (r :: q) := by
  induction q with
  | nil => exact .refl _
  | cons a q ih =>
    unfold insertRec
    split
    · exact .refl _
    · exact (ih.cons a).trans (.swap r a q)

/-- R127: the place of a record is after those that it does not outrank. -/
theorem insertRec_append (pre post : List ChimeRec) (before : ∀ x ∈ pre, outranks r x = false)
    (after : ∀ x, post.head? = some x → outranks r x = true) : insertRec r (pre ++ post) = pre ++ r :: post := by
  induction pre with
  | nil =>
    cases post with
    | nil => rfl
    | cons a post => exact if_pos (after a rfl)
  | cons a pre ih =>
    have stays : ¬ outranks r a = true := by simp [before a List.mem_cons_self]
    rw [List.cons_append, insertRec, if_neg stays, ih (fun x m => before x (List.mem_cons_of_mem a m))]
    rfl

theorem insertRec_ranked (h : q.Pairwise ranksBefore) : (insertRec r q).Pairwise ranksBefore := by
  induction q with
  | nil => exact List.pairwise_singleton _ _
  | cons a q ih =>
    obtain ⟨first, rest⟩ := List.pairwise_cons.1 h
    unfold insertRec
    split
    · rename_i outranked
      have first' := ranksBefore_of_outranks outranked
      refine List.pairwise_cons.2 ⟨fun x m => ?_, h⟩
      rcases List.mem_cons.1 m with rfl | m
      · exact first'
      · exact ranksBefore_trans first' (first x m)
    · rename_i under
      refine List.pairwise_cons.2 ⟨fun x m => ?_, ih rest⟩
      rcases List.mem_cons.1 ((insertRec_perm r q).mem_iff.1 m) with rfl | m
      · exact ranksBefore_of_not_outranks (by simpa using under)
      · exact first x m

/-- R127 to R130: the condition of `queueOk`, of the record of the playing chime, or none, and of the queue. -/
structure QueueRanked (p : Option ChimeRec) (q : List ChimeRec) : Prop where
  room : q.length ≤ 8
  ranked : q.Pairwise ranksBefore
  once : (p.toList ++ q).map (·.num) |>.Nodup
  below : ∀ r ∈ q, ∃ x, p = some x ∧ classRank r.cls ≤ classRank x.cls

theorem queueOk_iff (c : Che) : queueOk c = true ↔ QueueRanked (c.playing.map (·.chime)) c.queue := by
  have nums : (c.playing.map (·.chime.num)).toList ++ c.queue.map (·.num) =
      ((c.playing.map (·.chime)).toList ++ c.queue).map (·.num) := by cases c.playing <;> simp
  unfold queueOk
  rw [nums]
  cases c.playing with
  | none =>
    simp only [Bool.and_eq_true, decide_eq_true_eq, List.isEmpty_iff]
    exact ⟨fun ⟨⟨⟨room, ranked⟩, once⟩, empty⟩ => ⟨room, ranked, once, by simp [empty]⟩,
      fun ⟨room, ranked, once, below⟩ => ⟨⟨⟨room, ranked⟩, once⟩,
        List.eq_nil_iff_forall_not_mem.2 fun r m => by simpa using below r m⟩⟩
  | some p =>
    simp only [Bool.and_eq_true, decide_eq_true_eq, List.all_eq_true]
    exact ⟨fun ⟨⟨⟨room, ranked⟩, once⟩, below⟩ => ⟨room, ranked, once, fun r m => ⟨_, rfl, below r m⟩⟩,
      fun ⟨room, ranked, once, below⟩ => ⟨⟨⟨room, ranked⟩, once⟩, fun r m => by simpa using below r m⟩⟩

/-- A renewal of records keeps the condition. -/
theorem QueueRanked.of_bare {p' : Option ChimeRec} {q' : List ChimeRec} (h : QueueRanked p q)
    (ep : p'.map ChimeRec.bare = p.map ChimeRec.bare) (eq : q'.map ChimeRec.bare = q.map ChimeRec.bare) : QueueRanked p' q' := by
  have bare : ∀ (p : Option ChimeRec) (q : List ChimeRec),
      QueueRanked (p.map ChimeRec.bare) (q.map ChimeRec.bare) ↔ QueueRanked p q := by
    intro p q
    have nums : (((p.map ChimeRec.bare).toList ++ q.map ChimeRec.bare).map (·.num)) = (p.toList ++ q).map (·.num) := by
      cases p <;> simp [ChimeRec.bare]
    constructor
    · rintro ⟨room, ranked, once, below⟩
      refine ⟨by simpa using room, (List.pairwise_map (f := ChimeRec.bare)).1 ranked, by rwa [nums] at once, fun r m => ?_⟩
      obtain ⟨x, e, lower⟩ := below r.bare (List.mem_map_of_mem m)
      obtain ⟨x, rfl, rfl⟩ := Option.map_eq_some_iff.1 e
      exact ⟨x, rfl, lower⟩
    · rintro ⟨room, ranked, once, below⟩
      refine ⟨by simpa using room, (List.pairwise_map (f := ChimeRec.bare)).2 ranked, by rwa [nums], fun r m => ?_⟩
      obtain ⟨y, k, rfl⟩ := List.mem_map.1 m
      obtain ⟨x, rfl, lower⟩ := below y k
      exact ⟨_, rfl, lower⟩
  rw [← bare, ep, eq, bare]
  exact h

/-- Entries leave the queue. -/
theorem QueueRanked.of_sublist (h : QueueRanked p q) (k : l.Sublist q) : QueueRanked p l :=
  ⟨k.length_le.trans h.room, h.ranked.sublist k, h.once.sublist ((k.append_left _).map _), fun r m => h.below r (k.subset m)⟩

/-- R127: the head of the queue takes the voice. -/
theorem QueueRanked.next (h : QueueRanked p (a :: q)) : QueueRanked (some a) q := by
  obtain ⟨first, rest⟩ := List.pairwise_cons.1 h.ranked
  refine ⟨(Nat.le_succ _).trans h.room, rest, ?_, fun r m => ⟨a, rfl, (first r m).1⟩⟩
  have once := h.once
  rw [List.map_append] at once
  exact once.of_append_right

/-- R127, R130: a record of a definition that neither plays nor waits, and of no higher class than the playing one, takes its place. -/
theorem QueueRanked.insert (h : QueueRanked (some x) q) (room : q.length < 8) (lower : classRank r.cls ≤ classRank x.cls)
    (fresh : ∀ y ∈ x :: q, y.num ≠ r.num) : QueueRanked (some x) (insertRec r q) := by
  have perm := insertRec_perm r q
  refine ⟨by rw [perm.length_eq]; exact room, insertRec_ranked h.ranked, ?_, fun y m => ?_⟩
  · have moved : (x :: insertRec r q).Perm (r :: x :: q) := (perm.cons x).trans (.swap r x q)
    refine (moved.map (·.num)).nodup_iff.2 (List.nodup_cons.2 ⟨fun m => ?_, h.once⟩)
    obtain ⟨y, m, e⟩ := List.mem_map.1 m
    exact fresh y m e
  · rcases List.mem_cons.1 (perm.mem_iff.1 m) with rfl | m
    · exact ⟨x, rfl, lower⟩
    · exact h.below y m

/-- R130: what a record that would enter a queue of at most 8 finds: room, a lowest entry that it outranks, or neither. -/
theorem enqueue_cases (r : ChimeRec) (s : State) :
    (s.che.queue.length < 8 ∧ enqueue r s = (s.setChe { s.che with queue := insertRec r s.che.queue }, true)) ∨
    (∃ qs low, s.che.queue = qs ++ [low] ∧ 8 ≤ s.che.queue.length ∧ outranks r low = true ∧
      enqueue r s = (raiseDropped low 1 (s.setChe { s.che with queue := insertRec r qs }), true)) ∨
    (∃ qs low, s.che.queue = qs ++ [low] ∧ 8 ≤ s.che.queue.length ∧ outranks r low = false ∧ enqueue r s = (s, false)) := by
  obtain ⟨roomy, full⟩ := enqueue_spec (s := s) (r := r)
  by_cases room : s.che.queue.length < 8
  · exact .inl ⟨room, roomy room⟩
  · obtain ⟨qs, low, e⟩ : ∃ qs low, s.che.queue = qs ++ [low] :=
      (List.eq_nil_or_concat' s.che.queue).resolve_left (fun h => by simp [h] at room)
    have found := full qs low e (by omega)
    cases higher : outranks r low
    · rw [higher, if_neg (by decide)] at found
      exact .inr (.inr ⟨qs, low, e, by omega, higher, found⟩)
    · rw [higher, if_pos rfl] at found
      exact .inr (.inl ⟨qs, low, e, by omega, higher, found⟩)

/-- R130: the queue after a record would enter it: the record at its place among entries that stay, or what it was. -/
theorem enqueue_queue (r : ChimeRec) (s : State) (room : s.che.queue.length ≤ 8) :
    (∃ l, l.Sublist s.che.queue ∧ l.length < 8 ∧ (enqueue r s).1.che = { s.che with queue := insertRec r l }) ∨
    (enqueue r s).1.che = s.che := by
  rcases enqueue_cases r s with ⟨free, e⟩ | ⟨qs, low, queue, full, -, e⟩ | ⟨qs, low, -, -, -, e⟩
  · exact .inl ⟨_, .refl _, free, by rw [e]; rfl⟩
  · refine .inl ⟨qs, queue ▸ List.sublist_append_left qs [low], ?_, by rw [e]; simp⟩
    rw [queue, List.length_append] at room
    exact room
  · exact .inr (by rw [e])

/-- R127, R130: a record of a definition that neither plays nor waits comes to a queue under a playing chime. -/
theorem QueueRanked.enqueue (h : QueueRanked (some x) s.che.queue) (lower : classRank r.cls ≤ classRank x.cls)
    (fresh : ∀ y ∈ x :: s.che.queue, y.num ≠ r.num) : QueueRanked (some x) (enqueue r s).1.che.queue := by
  rcases enqueue_queue r s h.room with ⟨l, sub, room, e⟩ | e
  · rw [e]
    exact (h.of_sublist sub).insert room lower fun y m => fresh y ((sub.cons_cons x).subset m)
  · rw [e]
    exact h

theorem inUse_eq_false_iff {c : Che} {n : Nat} : inUse c n = false ↔
    (∀ p, c.playing = some p → p.chime.num ≠ n) ∧ ∀ y ∈ c.queue, y.num ≠ n := by
  have playing : isPlaying c n = false ↔ ∀ p, c.playing = some p → p.chime.num ≠ n := by
    unfold isPlaying
    cases c.playing <;> simp
  rw [inUse, Bool.or_eq_false_iff, playing, isQueued, List.any_eq_false]
  simp

theorem arriveQueued_queueOk (lower : ∀ p, s.che.playing = some p → classRank r.cls ≤ classRank p.chime.cls)
    (free : inUse s.che r.num = false) (h : queueOk s.che = true) : queueOk (arriveQueued r s).1.che = true := by
  obtain ⟨other, fresh⟩ := inUse_eq_false_iff.1 free
  rw [queueOk_iff] at h ⊢
  cases playing : s.che.playing with
  | none =>
    rw [playing] at h
    have empty : s.che.queue = [] := List.eq_nil_iff_forall_not_mem.2 fun y m => by simpa using h.below y m
    rw [arriveQueued_of_free playing empty, setPlaying_che]
    exact ⟨Nat.zero_le _, .nil, by simp [Playing.begin], by simp⟩
  | some p =>
    rw [playing] at h
    have entered := h.enqueue (s := s) (r := r) (lower p playing) fun y m => by
      rcases List.mem_cons.1 m with rfl | m
      · exact other p playing
      · exact fresh y m
    have kept : (enqueue r s).1.che.playing = some p := by
      rcases enqueue_queue r s h.room with ⟨l, -, -, e⟩ | e <;> rw [e] <;> exact playing
    unfold arriveQueued
    split <;> rename_i e <;> rw [e] at entered kept
    · rw [startNext_of_playing kept, kept]
      exact entered
    · split
      · rw [kept]; exact entered
      · rw [raiseDropped_che, kept]; exact entered

/-- R129: a record of a higher class takes the place of the playing one. -/
theorem QueueRanked.replace (h : QueueRanked (some x) q) (higher : classRank x.cls ≤ classRank r.cls)
    (fresh : ∀ y ∈ q, y.num ≠ r.num) : QueueRanked (some r) q := by
  refine ⟨h.room, h.ranked, List.nodup_cons.2 ⟨fun m => ?_, (List.nodup_cons.1 h.once).2⟩, fun y m => ?_⟩
  · obtain ⟨y, m, e⟩ := List.mem_map.1 m
    exact fresh y m e
  · obtain ⟨z, e, lower⟩ := h.below y m
    obtain rfl := Option.some.inj e
    exact ⟨r, rfl, lower.trans higher⟩

theorem preempt_che (r : ChimeRec) (p : Playing) (s : State) : (preempt r p s).che =
    (enqueue p.chime (setPlaying (some (Playing.begin r)) (s.setChe { s.che with tail := tailOf s.che }))).1.che := by
  unfold preempt
  simp only
  split <;> rename_i e <;> rw [e]
  exact raiseDropped_che

theorem preempt_queueOk {p : Playing} (playing : s.che.playing = some p) (higher : classRank p.chime.cls < classRank r.cls)
    (free : inUse s.che r.num = false) (h : queueOk s.che = true) : queueOk (preempt r p s).che = true := by
  obtain ⟨other, fresh⟩ := inUse_eq_false_iff.1 free
  rw [queueOk_iff, playing] at h
  have waits : ∀ y ∈ s.che.queue, y.num ≠ p.chime.num := fun y m e =>
    (List.nodup_cons.1 h.once).1 (List.mem_map.2 ⟨y, m, e⟩)
  have ranked := h.replace higher.le fresh
  have entered := QueueRanked.enqueue (r := p.chime)
    (s := setPlaying (some (Playing.begin r)) (s.setChe { s.che with tail := tailOf s.che })) (by rw [setPlaying_che]; exact ranked)
    higher.le fun y m => by
      rw [setPlaying_che] at m
      rcases List.mem_cons.1 m with rfl | m
      · exact (other p playing).symm
      · exact waits y m
  rw [queueOk_iff, preempt_spec.1, preempt_che]
  exact entered

theorem endPlaying_queueOk (h : queueOk s.che = true) : queueOk (endPlaying s).che = true := by
  rw [queueOk_iff] at h ⊢
  rw [endPlaying_che]
  cases queue : s.che.queue with
  | nil => exact ⟨by simp [queue], by simp [queue], by simp [queue], by simp [queue]⟩
  | cons r q =>
    rw [queue] at h
    exact h.next

theorem queueInvariant : AudioInvariant (fun c _ => queueOk c = true) where
  congr e h := by
    simp only [audioCourse, Prod.mk.injEq] at e
    rw [queueOk_iff] at h ⊢
    exact h.of_bare (by simpa only [Option.map_map, Function.comp_def] using e.1) e.2.1
  preempt _ _ _ playing higher free h := preempt_queueOk playing higher free h
  arriveQueued _ _ lower free h := arriveQueued_queueOk lower free h
  filter f s h := (queueOk_iff _).2 (((queueOk_iff _).1 h).of_sublist List.filter_sublist)
  endPlaying _ h := endPlaying_queueOk h
  setMix _ _ h := h
  rampAll _ h := h
  muteForLow _ h := h

/-- Settles O43: the place of a record by induction on the queue, and the step by the operations that move the queue. -/
theorem queueStaysInRankOrder : Obligations.QueueStaysInRankOrder :=
  ⟨insertRec_perm, fun _ pre post before after => insertRec_append pre post before after, outranks_iff,
    fun _ _ h e => queueInvariant.step (by decide) h e⟩

end RankOrder

/-! ## An output sample instant (R115, R116, R125, R126, R140) -/

section Instants
variable {s t : State}

/-- R140: the position goes on below the entry's length. -/
theorem uiAdvance_of_below {c : Che} {u : UiVoice} (voice : c.ui = some u) (below : u.pos + 1 < (soundOf c u.entry).len) :
    (uiAdvance c).ui = some { u with pos := u.pos + 1, held := if u.first = u.pos then u.held.tail else u.held } := by
  simp [uiAdvance, voice, below]

theorem uiAdvance_of_end {c : Che} {u : UiVoice} (voice : c.ui = some u) (last : ¬ u.pos + 1 < (soundOf c u.entry).len) :
    (uiAdvance c).ui = none := by
  simp [uiAdvance, voice, last]

theorem uiAdvance_of_idle {c : Che} (idle : c.ui = none) : (uiAdvance c).ui = none := by
  simp [uiAdvance, idle]

/-- R116: the saturation, as a bound on each side. -/
theorem clip16_eq (v : Int) : clip16 v = max (-32768) (min 32767 v) := by
  unfold clip16 saturate
  split
  · omega
  · split <;> omega

/-- What the four sources hand at an instant. -/
def sourcesAt (s : State) : Sources := ⟨filmSample s .a, filmSample s .b, uiSample s.che, (chimeInstant s.vsr s.che).1⟩

theorem sampleInstant_mix (s : State) : (sampleInstant s).mix =
    { s.mix with out := mixAll (sourcesAt s) (headphoneOn s.che) s.mix, instants := s.mix.instants + 1 } := by
  have mix : (onStreams handSample s).mix = s.mix := (same_onStreams (p := .mix) (fun st u => by simp)).2 rfl
  simp only [sampleInstant, State.setMix_mix, State.setChe_mix, mix]
  rfl

/-- R118: the chime is heard on a headphone output only with the switch closed. -/
theorem mixAll_get (x : Sources) (headphone : Bool) (m : Mix) (o : OutputId) :
    (mixAll x headphone m).get o = mixOutput (m.effective.get o) x (o == .cabin || headphone) := by
  cases o <;> rfl

theorem sampleInstant_ui (s : State) : match s.che.ui with
    | none => (sampleInstant s).che.ui = none
    | some u => if u.pos + 1 < (soundOf s.che u.entry).len
        then ∃ v, (sampleInstant s).che.ui = some v ∧ v.entry = u.entry ∧ v.pos = u.pos + 1 ∧ v.fetched = u.fetched
        else (sampleInstant s).che.ui = none := by
  have kept : (chimeInstant s.vsr s.che).2.ui = s.che.ui := by rw [chimeInstant_keeps]
  have bank : ∀ n, soundOf (chimeInstant s.vsr s.che).2 n = soundOf s.che n := fun n => by rw [chimeInstant_keeps]; rfl
  rw [sampleInstant_che]
  cases voice : s.che.ui with
  | none => exact uiAdvance_of_idle (kept.trans voice)
  | some u =>
    simp only
    split
    · rename_i below
      exact ⟨_, uiAdvance_of_below (kept.trans voice) (by rwa [bank]), rfl, rfl, rfl⟩
    · rename_i last
      exact uiAdvance_of_end (kept.trans voice) (by rwa [bank])

/-- R116: the two stages, each scaled down and saturated. -/
theorem mixChannel_eq (g : OutGains) (a b ui chime : Int) : mixChannel g a b ui chime =
    clip16 (scaleDown (clip16 (scaleDown (a * gain g.filmA + b * gain g.filmB + ui * gain g.ui + chime * gain g.chime))
      * gain g.master)) := rfl

theorem clip16_scaleDown (v : Int) : clip16 (scaleDown v) = max (-32768) (min 32767 ((v + 16384) / 32768)) := clip16_eq _

/-- Settles O39: the sources that the instant finds, through the two stages of each channel. -/
theorem outputSamplesAreMixed : Obligations.OutputSamplesAreMixed := by
  intro s
  have mix := (settle_mix _).trans (sampleInstant_mix (reachNs (instantNs s.mix.instants) s))
  have clock : Part.clock.same (reachNs (instantNs s.mix.instants) s) (sampleInstant (reachNs (instantNs s.mix.instants) s)) :=
    (same_sampleInstant (by decide) (by decide) (by decide) (by decide)).2 rfl
  refine ⟨_, rfl, (settle_clockNs _).trans clock, mix.trans (by rw [mix]; rfl), fun o => ?_, ?_⟩
  · have heard : (o == .cabin || headphoneOn s.che) = true ↔ o = .cabin ∨ headphoneOn s.che = true := by simp
    have out : (settle (sampleInstant (reachNs (instantNs s.mix.instants) s))).mix.out.get o =
        mixOutput (s.mix.effective.get o) (sourcesAt s) (o == .cabin || headphoneOn s.che) := by
      rw [mix]
      exact mixAll_get _ _ _ o
    simp only [out, mixOutput, heard, mixChannel_eq, clip16_scaleDown]
    exact ⟨rfl, rfl⟩
  · rw [settle_che]
    exact sampleInstant_ui _

/-! ### The tone of the voice -/

/-- R125: the instant of a tone step under way. -/
theorem chimeInstant_of_step {v : Vsr} {c : Che} {p : Playing} {d : ChimeDef} {t : ToneStep} (tail : c.tail = none)
    (playing : c.playing = some p) (num : p.chime.num ≠ 1) (cycle : p.cycle = none) (defined : defOf c p.chime.num = some d)
    (step : d.steps[p.step]? = some t) (under : p.k < 48 * t.dur) :
    chimeInstant v c = (toneSample t.freq t.level p.phase (stepEnvelope p.k (48 * t.dur)), { c with
      playing := some { p with
        k := p.k + 1, phase := p.phase + increment t.freq, env := stepEnvelope p.k (48 * t.dur), sounded := true } }) := by
  have at_ : atInstant v p = p := if_neg num
  have stepIs : stepOf c p.chime.num p.step = t := by
    simp [stepOf, defined, nth, step]
  have tone : soundingTone c p = t := by rw [soundingTone, if_neg num, stepIs]
  have env : playingEnvelope c p = stepEnvelope p.k (48 * t.dur) := by simp [playingEnvelope, cycle, stepIs]
  have len : playingLength c p = 48 * t.dur := by simp [playingLength, cycle, stepIs]
  unfold chimeInstant
  simp only [tail, playing, at_, tone, env, len, if_pos under]

/-- R126: the instant of a release tail under way. -/
theorem chimeInstant_of_tail {v : Vsr} {c : Che} {x : Tail} (tail : c.tail = some x) (under : x.j < 96) :
    chimeInstant v c = (toneSample x.freq x.level x.phase (min x.env (95 - x.j)),
      { c with tail := some { x with j := x.j + 1, phase := x.phase + increment x.freq } }) := by
  unfold chimeInstant
  simp only [tail, if_pos under]

theorem chimeInstant_of_silence {v : Vsr} {c : Che} (tail : c.tail = none) (playing : c.playing = none) :
    chimeInstant v c = (0, c) := by
  simp [chimeInstant, tail, playing]

/-- The UI voice aside, CHE after an instant is what the chime voice leaves. -/
theorem sampleInstant_voice (n : Nat) (s : State) :
    (sampleInstant (reachNs n s)).che.playing = (chimeInstant s.vsr s.che).2.playing ∧
    (sampleInstant (reachNs n s)).che.tail = (chimeInstant s.vsr s.che).2.tail ∧
    (sampleInstant (reachNs n s)).che.queue = s.che.queue := by
  rw [sampleInstant_che, uiAdvance_keeps]
  exact ⟨rfl, rfl, by rw [chimeInstant_keeps]; rfl⟩

/-- Settles O40: a tone step and a release tail, each at an instant under way. -/
theorem chimeVoicePlaysItsTone : Obligations.ChimeVoicePlaysItsTone := by
  refine ⟨fun s p d t tail playing num cycle defined step under => ?_, fun s x tail under => ?_, fun s tail playing => ?_⟩
  · have instant : chimeInstant s.vsr s.che = _ := chimeInstant_of_step tail playing num cycle defined step under
    obtain ⟨voice, rest, queue⟩ := sampleInstant_voice (instantNs s.mix.instants) s
    refine ⟨by rw [instant]; rfl, _, rfl, ?_⟩
    rw [settle_che, voice, rest, queue, instant]
    exact ⟨tail, rfl, rfl⟩
  · have instant : chimeInstant s.vsr s.che = _ := chimeInstant_of_tail tail under
    obtain ⟨voice, rest, -⟩ := sampleInstant_voice (instantNs s.mix.instants) s
    refine ⟨by rw [instant]; rfl, _, rfl, ?_⟩
    rw [settle_che, voice, rest, instant]
    exact ⟨rfl, rfl⟩
  · rw [chimeInstant_of_silence tail playing]

end Instants

/-! ## The ends of a step, a cycle, a chime and a tail (R125, R126, R127, R131) -/

section Ends
variable {s t u : State} {p : Playing} {d : ChimeDef} {r : ChimeRec} {q : List ChimeRec} {n : Nat}

theorem endPlaying_of_empty (h : s.che.queue = []) : (endPlaying s).che = { s.che with playing := none } := by
  rw [endPlaying_che, h]

theorem endPlaying_of_next (h : s.che.queue = r :: q) :
    (endPlaying s).che = { s.che with queue := q, playing := some (Playing.begin r) } := by
  rw [endPlaying_che, h]

@[simp] theorem endPlaying_tail (s : State) : (endPlaying s).che.tail = s.che.tail := by
  rw [endPlaying_che]; split <;> rfl

@[simp] theorem slotCore_endPlaying (s : State) (n : Nat) : slotCore (endPlaying s) n = slotCore s n :=
  slotCore_of_wai ((same_endPlaying (p := .wai) (by decide) (by decide)).2 rfl)

@[simp] theorem endPlaying_cabin (s : State) : cabin (endPlaying s) = cabin s :=
  cabin_congr ((same_endPlaying (p := .clock) (by decide) (by decide)).2 rfl)

/-- R127: the voice is free, or has the next entry of the queue. -/
theorem nextPlays_of_endPlaying (queue : u.che.queue = s.che.queue) (playing' : t.che.playing = (endPlaying u).che.playing)
    (queue' : t.che.queue = (endPlaying u).che.queue) : match s.che.queue with
      | [] => t.che.playing = none ∧ t.che.queue = []
      | r :: rest => t.che.playing = some (Playing.begin r) ∧ t.che.queue = rest := by
  cases e : s.che.queue with
  | nil =>
    rw [endPlaying_of_empty (queue.trans e)] at playing' queue'
    exact ⟨playing', queue'.trans (queue.trans e)⟩
  | cons r rest =>
    rw [endPlaying_of_next (queue.trans e)] at playing' queue'
    exact ⟨playing', queue'⟩

/-- R131: the state in which a chime that has ended leaves the voice; its notice is raised where it came from a request. -/
def announced (p : Playing) (s : State) : State :=
  if p.chime.origin = .request then raise .chimeFinished (BitVec.ofNat 32 p.chime.num) p.chime.arrival s else s

theorem finishPlaying_eq (p : Playing) (s : State) : finishPlaying p s = settleDefs (endPlaying (announced p s)) := rfl

@[simp] theorem announced_che : (announced p s).che = s.che := by
  unfold announced; split <;> simp

theorem announced_cabin : cabin (announced p s) = cabin s :=
  cabin_congr (by unfold announced; split <;> simp)

theorem announced_notice (h : slotCore t (slotNumber .chimeFinished) = slotCore (announced p s) (slotNumber .chimeFinished))
    (time : cabin t = cabin s) : if p.chime.origin = .request
      then noticeRaised .chimeFinished (BitVec.ofNat 32 p.chime.num) p.chime.arrival s t else slotKept .chimeFinished s t := by
  unfold announced at h
  split at h
  · rename_i request
    rw [if_pos request]
    exact noticeRaised_of_raise rfl h time.symm
  · rename_i internal
    rw [if_neg internal]
    exact slotKept_of_core h

theorem stepEnd_of_more (tail : s.che.tail = none) (playing : s.che.playing = some p) (num : p.chime.num ≠ 1)
    (defined : defOf s.che p.chime.num = some d) (more : p.step + 1 < d.steps.length) :
    stepEnd s = s.setChe { s.che with playing := some { p with step := p.step + 1, k := 0, phase := 0 } } := by
  simp only [stepEnd, tail, playing, if_neg num, defined, if_pos more]

theorem stepEnd_of_last (tail : s.che.tail = none) (playing : s.che.playing = some p) (num : p.chime.num ≠ 1)
    (defined : defOf s.che p.chime.num = some d) (last : ¬ p.step + 1 < d.steps.length) : stepEnd s = cycleEnd p s := by
  simp only [stepEnd, tail, playing, if_neg num, defined, if_neg last]

/-- R131: the chime begins again, with what remains of its repeats. -/
def againWith (rem : Option Nat) (p : Playing) : Playing :=
  { p with chime := { p.chime with remaining := rem }, step := 0, k := 0, phase := 0 }

theorem cycleEnd_of_infinite (h : p.chime.remaining = none) :
    cycleEnd p s = s.setChe { s.che with playing := some (againWith none p) } := by
  simp only [cycleEnd, h]; rfl

theorem cycleEnd_of_more (h : p.chime.remaining = some n) (more : 1 < n) :
    cycleEnd p s = s.setChe { s.che with playing := some (againWith (some (n - 1)) p) } := by
  simp only [cycleEnd, h, if_neg (Nat.not_le.2 more)]; rfl

theorem cycleEnd_of_last (h : p.chime.remaining = some n) (last : n ≤ 1) : cycleEnd p s = finishPlaying p s := by
  simp only [cycleEnd, h, if_pos last]

/-- Settles O41: a step inside its chime, then the last step by what remains of the repeats. -/
theorem stepAndTailEndsMoveTheVoice : Obligations.StepAndTailEndsMoveTheVoice := by
  refine ⟨fun s p d tail playing num defined => ⟨_, rfl, ?_⟩, fun s => ⟨_, rfl, settle_che _⟩⟩
  by_cases more : p.step + 1 < d.steps.length
  · rw [if_pos more, settle_che, stepEnd_of_more tail playing num defined more]
    exact ⟨tail, rfl, rfl⟩
  · rw [if_neg more, stepEnd_of_last tail playing num defined more]
    cases remaining : p.chime.remaining with
    | none =>
      rw [settle_che, settle_mix, cycleEnd_of_infinite remaining]
      exact ⟨tail, by rw [← remaining]; rfl, rfl, rfl⟩
    | some n =>
      simp only
      by_cases again : 1 < n
      · rw [if_pos again, settle_che, settle_mix, cycleEnd_of_more remaining again]
        exact ⟨tail, rfl, rfl, rfl, slotKept_of_core (slotCore_settle (by decide))⟩
      · rw [if_neg again, cycleEnd_of_last remaining (Nat.not_lt.1 again), finishPlaying_eq, settle_che]
        refine ⟨by simp [tail], nextPlays_of_endPlaying (u := announced p s) (by simp) (by simp) (by simp), announced_notice ?_ ?_⟩
        · rw [slotCore_settle (by decide), settleDefs_slot, slotCore_endPlaying]
        · rw [cabin_settle, settleDefs_cabin, endPlaying_cabin, announced_cabin]

end Ends

/-! ## Requests that reach CHE and MIX (R176) -/

section Requests
variable {s u : State} {r : RecordRef} {own : State → State × Answer} {a : Answer} {n : Nat}

/-- R176: what is left of a record that its owner has answered. -/
def tookRecord (r : RecordRef) (own : State → State × Answer) (s : State) : State :=
  settle (enterAnswer r (own (answerPlaced r s)).2 (own (answerPlaced r s)).1)

/-- R176: an owner that answers with nothing else done. -/
theorem tookRecord_alone (h : own (answerPlaced r s) = (answerPlaced r s, a)) :
    OnlyTouches [.fen, .wai] s (tookRecord r own s) ∧ answered r a (tookRecord r own s) := by
  rw [tookRecord, h]
  exact answerAlone a

theorem tookRecord_answered (h : own (answerPlaced r s) = (u, a)) (queue : u.wai.scanQueue = (answerPlaced r s).wai.scanQueue) :
    answered r a (tookRecord r own s) := by
  rw [tookRecord, h]
  exact answered_of_awaited (answerAwaited_congr queue (answerAwaited_placed r s))

theorem tookRecord_che (h : own (answerPlaced r s) = (u, a)) : (tookRecord r own s).che = u.che := by
  rw [tookRecord, h, settle_che]; exact (same_enterAnswer (p := .che) (by decide)).2 rfl

theorem tookRecord_mix (h : own (answerPlaced r s) = (u, a)) : (tookRecord r own s).mix = u.mix := by
  rw [tookRecord, h, settle_mix]; exact (same_enterAnswer (p := .mix) (by decide)).2 rfl

theorem tookRecord_slotCore (h : own (answerPlaced r s) = (u, a)) (other : n ≠ 15) :
    slotCore (tookRecord r own s) n = slotCore u n := by
  rw [tookRecord, h, slotCore_settle other]; rfl

theorem tookRecord_clockNs (h : own (answerPlaced r s) = (u, a)) : (tookRecord r own s).clockNs = u.clockNs := by
  rw [tookRecord, h, settle_clockNs]; rfl

end Requests

/-! ### CANCEL_CHIME (R133) -/

/-- R126: the sound of the playing chime goes on as a release tail. -/
def stopped (s : State) : State := s.setChe { s.che with tail := tailOf s.che }

theorem stopPlaying_eq (s : State) : stopPlaying s = endPlaying (stopped s) := rfl

section Cancel
variable {s : State} {r : RecordRef} {c : Byte}

theorem ownCancelChime_of_range (h : 15 < c.toNat) : ownCancelChime c s = (s, answerInvalid .range) := if_pos h

theorem ownCancelChime_of_internal (h : c = 1) : ownCancelChime c s = (s, answerState .internal) := by
  subst h; rfl

theorem ownCancelChime_of_queued (le : c.toNat ≤ 15) (num : c ≠ 1) (queued : isQueued s.che c.toNat = true) :
    ownCancelChime c s =
      (settleDefs (s.setChe { s.che with queue := s.che.queue.filter (fun r => r.num != c.toNat) }), answerDone) := by
  rw [ownCancelChime, if_neg (Nat.not_lt.2 le), if_neg num, if_pos queued]

theorem ownCancelChime_of_playing (le : c.toNat ≤ 15) (num : c ≠ 1) (free : isQueued s.che c.toNat = false)
    (playing : isPlaying s.che c.toNat = true) : ownCancelChime c s = (settleDefs (stopPlaying s), answerDone) := by
  rw [ownCancelChime, if_neg (Nat.not_lt.2 le), if_neg num, if_neg (by simp [free]), if_pos playing]

theorem ownCancelChime_of_unused (le : c.toNat ≤ 15) (num : c ≠ 1) (free : inUse s.che c.toNat = false) :
    ownCancelChime c s = (s, answerDone) := by
  obtain ⟨playing, queued⟩ := Bool.or_eq_false_iff.1 free
  rw [ownCancelChime, if_neg (Nat.not_lt.2 le), if_neg num, if_neg (by simp [queued]), if_neg (by simp [playing])]

/-- R133: an entry that CANCEL_CHIME may name is answered DONE, with no notice. -/
theorem ownCancelChime_done (le : c.toNat ≤ 15) (num : c ≠ 1) (s : State) :
    ∃ u, ownCancelChime c s = (u, answerDone) ∧ u.wai = s.wai := by
  cases queued : isQueued s.che c.toNat with
  | true => exact ⟨_, ownCancelChime_of_queued le num queued, rfl⟩
  | false =>
    cases playing : isPlaying s.che c.toNat with
    | true =>
      exact ⟨_, ownCancelChime_of_playing le num queued playing,
        (same_settleDefs (p := .wai) (by decide)).2 ((same_stopPlaying (p := .wai) (by decide) (by decide)).2 rfl)⟩
    | false => exact ⟨_, ownCancelChime_of_unused le num (by rw [inUse, queued, playing]; rfl), rfl⟩

end Cancel

/-! ### DEFINE_CHIME (R124) -/

section Define
variable {s : State} {r : RecordRef} {p : ChimeParams} {cls : ChimeClass}

theorem classOfCode_eq (n : Nat) : classOfCode n =
    if 2 < n then none else some (if n = 0 then .safety else if n = 1 then .alert else .comfort) := by
  unfold classOfCode
  by_cases h : 2 < n
  · rw [if_pos h, if_neg (by omega), if_neg (by omega), if_neg (by omega)]
  · rw [if_neg h]
    obtain rfl | rfl | rfl : n = 0 ∨ n = 1 ∨ n = 2 := by omega
    all_goals rfl

theorem ownDefineChime_of_range (h : 15 < p.entry.toNat) : ownDefineChime p s = (s, answerInvalid .range) := if_pos h

theorem ownDefineChime_of_internal (h : p.entry.toNat ≤ 2) : ownDefineChime p s = (s, answerState .internal) := by
  simp only [ownDefineChime, if_neg (show ¬ 15 < p.entry.toNat by omega), if_pos h]

theorem ownDefineChime_of_used (le : p.entry.toNat ≤ 15) (free : 2 < p.entry.toNat) (used : inUse s.che p.entry.toNat = true) :
    ownDefineChime p s = (s, answerState .inUse) := by
  simp only [ownDefineChime, if_neg (Nat.not_lt.2 le), if_neg (Nat.not_le.2 free), if_pos used]

/-- R124: the ranges of the fields of a definition. -/
theorem ownDefineChime_of_invalid (le : p.entry.toNat ≤ 15) (free : 2 < p.entry.toNat) (unused : inUse s.che p.entry.toNat = false)
    (h : 8 < p.count.toNat ∨ 2 < p.cls.toNat ∨ 15 < p.priority.toNat) : ownDefineChime p s = (s, answerInvalid .range) := by
  simp only [ownDefineChime, if_neg (Nat.not_lt.2 le), if_neg (Nat.not_le.2 free), unused, classOfCode_eq]
  by_cases cls : 2 < p.cls.toNat
  · simp [cls]
  · simp only [if_neg cls]
    exact (if_neg Bool.false_ne_true).trans (if_pos (by omega))

/-- R124: what a definition in range is stored as. -/
def definedChime (p : ChimeParams) : ChimeDef where
  cls := if p.cls.toNat = 0 then .safety else if p.cls.toNat = 1 then .alert else .comfort
  priority := p.priority.toNat
  duck := min p.duck.toNat 48
  repeats := p.repeats.toNat
  headphone := p.flags.getLsbD 0
  steps := p.steps.map clampStep

theorem ownDefineChime_of_valid (le : p.entry.toNat ≤ 15) (free : 2 < p.entry.toNat) (unused : inUse s.che p.entry.toNat = false)
    (h : ¬ (8 < p.count.toNat ∨ 2 < p.cls.toNat ∨ 15 < p.priority.toNat)) (len : p.steps.length = p.count.toNat) :
    ownDefineChime p s = if p.count = 0
      then (s.setChe { s.che with defs := s.che.defs.set p.entry.toNat none }, answerDone)
      else (s.setChe { s.che with defs := s.che.defs.set p.entry.toNat (some (definedChime p)) },
        answerAdjusted ((if p.duck.toNat ≤ 48 then 0 else 1) + (p.steps.map stepAdjustments).sum)) := by
  have all : p.steps.take p.count.toNat = p.steps := List.take_of_length_le len.le
  simp only [ownDefineChime, if_neg (Nat.not_lt.2 le), if_neg (Nat.not_le.2 free), unused, classOfCode_eq, all,
    if_neg (show ¬ 2 < p.cls.toNat by omega), if_neg (show ¬ (8 < p.count.toNat ∨ 15 < p.priority.toNat) by omega),
    if_neg (show ¬ p.steps.length < p.count.toNat by omega), definedChime]
  rfl

theorem stepAdjustments_sum_le (l : List StepEntry) : (l.map stepAdjustments).sum ≤ 3 * l.length := by
  have one : ∀ e, stepAdjustments e ≤ 3 := fun e => by
    unfold stepAdjustments
    simp only
    repeat' split
    all_goals omega
  induction l with
  | nil => exact Nat.le_refl _
  | cons e l ih =>
    have := one e
    simp only [List.map_cons, List.sum_cons, List.length_cons]
    omega

theorem clampStep_eq (e : StepEntry) : clampStep e =
    ⟨if e.freq = 0 then 0 else max 200 (min e.freq.toNat 5000), max 10 (min e.dur.toNat 2000), min e.level.toNat 192⟩ := by
  have zero : e.freq.toNat = 0 ↔ e.freq = 0 := ⟨fun h => BitVec.eq_of_toNat_eq h, fun h => h ▸ rfl⟩
  simp only [clampStep, zero]

theorem definedChime_eq (p : ChimeParams) : definedChime p =
    { cls := if p.cls = 0 then .safety else if p.cls = 1 then .alert else .comfort
      priority := p.priority.toNat
      duck := min p.duck.toNat 48
      repeats := p.repeats.toNat
      headphone := p.flags.getLsbD 0
      steps := p.steps.map (fun e => ⟨if e.freq = 0 then 0 else max 200 (min e.freq.toNat 5000), max 10 (min e.dur.toNat 2000),
        min e.level.toNat 192⟩) } := by
  have cls : ∀ n < 256, p.cls.toNat = n ↔ p.cls = BitVec.ofNat 8 n := fun n h =>
    ⟨fun e => BitVec.eq_of_toNat_eq (by rw [e, BitVec.toNat_ofNat, Nat.mod_eq_of_lt h]),
      fun e => by rw [e, BitVec.toNat_ofNat, Nat.mod_eq_of_lt h]⟩
  simp only [definedChime, cls 0 (by decide), cls 1 (by decide), funext clampStep_eq]
  rfl

/-- R124: one adjustment for each field that a definition stores as another value. -/
theorem adjustments_eq (p : ChimeParams) : (if p.duck.toNat ≤ 48 then 0 else 1) + (p.steps.map stepAdjustments).sum =
    (if 48 < p.duck.toNat then 1 else 0) + (p.steps.map (fun e =>
      (if (if e.freq = 0 then 0 else max 200 (min e.freq.toNat 5000)) = e.freq.toNat then 0 else 1)
        + (if max 10 (min e.dur.toNat 2000) = e.dur.toNat then 0 else 1)
        + (if min e.level.toNat 192 = e.level.toNat then 0 else 1))).sum := by
  have duck : (if p.duck.toNat ≤ 48 then 0 else 1) = if 48 < p.duck.toNat then 1 else 0 := by
    simp only [← Nat.not_lt, ite_not]
  have step : ∀ e, stepAdjustments e = _ := fun e => by rw [stepAdjustments, clampStep_eq]
  rw [duck, funext step]

end Define

/-- Settles O44: CANCEL_CHIME by where its entry is, and DEFINE_CHIME by its checks in order. -/
theorem chimesAreCancelledAndDefined : Obligations.ChimesAreCancelledAndDefined := by
  refine ⟨fun s r c take => ⟨tookRecord r (ownCancelChime c) s, request_of_canTake take,
      fun h => tookRecord_alone (ownCancelChime_of_range h), fun h => tookRecord_alone (ownCancelChime_of_internal h),
      fun le num => ?_⟩,
    fun s r p take len => ⟨tookRecord r (ownDefineChime p) s, request_of_canTake take, ?_⟩⟩
  · obtain ⟨u, own, wai⟩ := ownCancelChime_done le num (answerPlaced r s)
    refine ⟨tookRecord_answered own (by rw [wai]), slotKept_of_core ?_, fun queued => ?_, fun free playing => ?_, fun free => ?_⟩
    · rw [tookRecord_slotCore own (by decide)]
      exact slotCore_of_wai (s := answerPlaced r s) wai
    · rw [tookRecord_che (ownCancelChime_of_queued le num queued), settleDefs_playing, settleDefs_tail, settleDefs_queue]
      exact ⟨rfl, rfl, List.filter_congr fun q _ => by rw [Bool.eq_iff_iff]; simp⟩
    · have che := tookRecord_che (r := r) (s := s) (ownCancelChime_of_playing le num free playing)
      refine ⟨?_, nextPlays_of_endPlaying (u := stopped (answerPlaced r s)) rfl ?_ ?_⟩
      · rw [che, settleDefs_tail, stopPlaying_eq, endPlaying_tail]; rfl
      · rw [che, settleDefs_playing, stopPlaying_eq]
      · rw [che, settleDefs_queue, stopPlaying_eq]
    · exact (tookRecord_alone (ownCancelChime_of_unused le num free)).1
  · by_cases range : 15 < p.entry.toNat
    · rw [if_pos range]
      exact tookRecord_alone (ownDefineChime_of_range range)
    rw [if_neg range]
    by_cases internal : p.entry.toNat ≤ 2
    · rw [if_pos internal]
      exact tookRecord_alone (ownDefineChime_of_internal internal)
    rw [if_neg internal]
    have le := Nat.not_lt.1 range
    have own := Nat.not_le.1 internal
    cases used : inUse s.che p.entry.toNat with
    | true =>
      rw [if_pos rfl]
      exact tookRecord_alone (ownDefineChime_of_used le own used)
    | false =>
      rw [if_neg Bool.false_ne_true]
      by_cases invalid : 8 < p.count.toNat ∨ 2 < p.cls.toNat ∨ 15 < p.priority.toNat
      · rw [if_pos invalid]
        exact tookRecord_alone (ownDefineChime_of_invalid le own used invalid)
      rw [if_neg invalid]
      have valid := ownDefineChime_of_valid (s := answerPlaced r s) le own used invalid len
      by_cases empty : p.count = 0
      · rw [if_pos empty] at valid ⊢
        exact ⟨tookRecord_che valid, tookRecord_answered valid rfl⟩
      · rw [if_neg empty] at valid ⊢
        refine ⟨(tookRecord_che valid).trans ?_, ?_⟩
        · rw [definedChime_eq]; rfl
        · have few : (if p.duck.toNat ≤ 48 then 0 else 1) + (p.steps.map stepAdjustments).sum ≤ 0xFFFF := by
            have := stepAdjustments_sum_le p.steps
            split <;> omega
          rw [answerAdjusted_eq few] at valid
          rw [adjustments_eq] at valid
          exact tookRecord_answered valid rfl

/-! ### PLAY_CHIME (R127 to R130, R132) -/

section Arrivals
variable {s t u : State} {r : RecordRef} {c : Byte} {n : Nat} {d : ChimeDef} {o : Origin} {p : Playing} {x : ChimeRec}

theorem ownPlayChime_of_range (h : 15 < c.toNat) : ownPlayChime c s = (s, answerInvalid .range) := if_pos h

theorem ownPlayChime_of_internal (h : c = 1) : ownPlayChime c s = (s, answerState .internal) := by
  subst h; rfl

theorem ownPlayChime_of_empty (le : c.toNat ≤ 15) (num : c ≠ 1) (empty : defOf s.che c.toNat = none) :
    ownPlayChime c s = (s, answerState .empty) := by
  rw [ownPlayChime, if_neg (Nat.not_lt.2 le), if_neg num]
  simp only [arrive, empty]

theorem ownPlayChime_of_defined (le : c.toNat ≤ 15) (num : c ≠ 1) (defined : defOf s.che c.toNat = some d) :
    ownPlayChime c s = (settleDefs (arriveDef c.toNat d .request s).1, (arriveDef c.toNat d .request s).2) := by
  rw [ownPlayChime, if_neg (Nat.not_lt.2 le), if_neg num]
  simp only [arrive, defined]

/-- R127: the record of an arrival. -/
def newRecord (n : Nat) (d : ChimeDef) (o : Origin) (s : State) : ChimeRec :=
  ⟨n, d.cls, d.priority, repeatsOf d, s.che.counter, o⟩

/-- R127: the arrival counter has gone on. -/
def counted (s : State) : State := s.setChe { s.che with counter := nextArrival s.che.counter }

theorem isPlaying_of_playing (playing : s.che.playing = some p) : isPlaying s.che n = (p.chime.num == n) := by
  simp [isPlaying, playing]

/-- R128: the playing chime is renewed. -/
theorem arriveDef_of_playing (playing : s.che.playing = some p) (num : p.chime.num = n) : arriveDef n d o s =
    (s.setChe { s.che with playing := some { p with chime := renew (repeatsOf d) o p.chime } }, answerDone) := by
  simp only [arriveDef, playing, if_pos num]

/-- R128: a waiting chime is renewed. -/
theorem arriveDef_of_queued (other : isPlaying s.che n = false) (queued : isQueued s.che n = true) : arriveDef n d o s =
    (s.setChe { s.che with queue := s.che.queue.map (fun r => if r.num = n then renew (repeatsOf d) o r else r) },
      ⟨⟨.doneAdjusted, .none⟩, 0⟩) := by
  cases playing : s.che.playing with
  | none => simp only [arriveDef, playing, if_pos queued]
  | some p =>
    rw [isPlaying_of_playing playing, beq_eq_false_iff_ne] at other
    simp only [arriveDef, playing, if_neg other, if_pos queued]

theorem arriveDef_of_silence (playing : s.che.playing = none) (free : isQueued s.che n = false) :
    arriveDef n d o s = arriveQueued (newRecord n d o s) (counted s) := by
  simp only [arriveDef, newRecord, counted, playing, free, Bool.false_eq_true, if_false]

theorem arriveDef_of_lower (playing : s.che.playing = some p) (other : p.chime.num ≠ n) (free : isQueued s.che n = false)
    (lower : classRank d.cls ≤ classRank p.chime.cls) : arriveDef n d o s = arriveQueued (newRecord n d o s) (counted s) := by
  simp only [arriveDef, newRecord, counted, playing, if_neg other, free, Bool.false_eq_true, if_false, if_neg (Nat.not_lt.2 lower)]

theorem arriveDef_of_higher (playing : s.che.playing = some p) (other : p.chime.num ≠ n) (free : isQueued s.che n = false)
    (higher : classRank p.chime.cls < classRank d.cls) :
    arriveDef n d o s = (preempt (newRecord n d o s) p (counted s), answerDone) := by
  simp only [arriveDef, newRecord, counted, playing, if_neg other, free, Bool.false_eq_true, if_false, if_pos higher]

/-- R130: an arrival under a playing chime finds room. -/
theorem arriveQueued_of_room (playing : s.che.playing = some p) (room : s.che.queue.length < 8) :
    arriveQueued x s = (s.setChe { s.che with queue := insertRec x s.che.queue }, answerDone) := by
  rw [arriveQueued, enqueue_spec.1 room]
  exact congrArg (·, answerDone) (startNext_of_playing playing)

/-- R130: an arrival under a playing chime evicts the lowest-ranked entry of a full queue. -/
theorem arriveQueued_of_evicting {qs : List ChimeRec} {low : ChimeRec} (playing : s.che.playing = some p)
    (queue : s.che.queue = qs ++ [low]) (full : 8 ≤ s.che.queue.length) (higher : outranks x low = true) :
    arriveQueued x s = (raiseDropped low 1 (s.setChe { s.che with queue := insertRec x qs }), answerDone) := by
  rw [arriveQueued, enqueue_spec.2 qs low queue full, if_pos higher]
  exact congrArg (·, answerDone) (startNext_of_playing (p := p) (by rw [raiseDropped_che]; exact playing))

/-- R130: a request that ranks below a full queue is refused. -/
theorem arriveQueued_of_lowest {qs : List ChimeRec} {low : ChimeRec} (request : x.origin = .request)
    (queue : s.che.queue = qs ++ [low]) (full : 8 ≤ s.che.queue.length) (lower : ¬ outranks x low = true) :
    arriveQueued x s = (s, answerState .queueFull) := by
  rw [arriveQueued, enqueue_spec.2 qs low queue full, if_neg lower]
  exact if_pos request

/-- R129: an arrival that does not preempt leaves the voice. -/
theorem arriveQueued_under (playing : s.che.playing = some p) :
    (arriveQueued x s).1.che.playing = some p ∧ (arriveQueued x s).1.che.tail = s.che.tail := by
  have kept : ∀ u : State, u.che.playing = s.che.playing → u.che.tail = s.che.tail →
      (startNext u).che.playing = some p ∧ (startNext u).che.tail = s.che.tail := fun u voice tail => by
    rw [startNext_of_playing (voice.trans playing)]
    exact ⟨voice.trans playing, tail⟩
  rw [arriveQueued]
  rcases enqueue_cases x s with ⟨-, e⟩ | ⟨qs, low, -, -, -, e⟩ | ⟨qs, low, -, -, -, e⟩ <;> rw [e]
  · exact kept _ rfl rfl
  · exact kept _ (by rw [raiseDropped_che]; rfl) (by rw [raiseDropped_che]; rfl)
  · simp only
    split
    · exact ⟨playing, rfl⟩
    · rw [raiseDropped_che]
      exact ⟨playing, rfl⟩

@[simp] theorem preempt_scanQueue (x : ChimeRec) (p : Playing) (s : State) : (preempt x p s).wai.scanQueue = s.wai.scanQueue := by
  have kept := scanQueue_enqueue p.chime (setPlaying (some (Playing.begin x)) (s.setChe { s.che with tail := tailOf s.che }))
  rw [setPlaying_wai] at kept
  unfold preempt
  simp only
  split <;> rename_i e <;> rw [e] at kept
  · exact kept
  · exact (raise_scanQueue _ _ _ _).trans kept

/-- R122: the duck depth of a chime that takes the voice. -/
theorem voiceChanged.duck (h : voiceChanged s t) (playing : t.che.playing = some p) (defined : defOf s.che p.chime.num = some d) :
    t.mix.duck = (if 0 < d.duck then d.duck else s.mix.duck) ∧ (0 < d.duck → t.mix.duckTimer = none) := by
  obtain ⟨ducks, keeps, -, -⟩ := h
  simp only [playing, defined] at ducks keeps
  by_cases depth : 0 < d.duck
  · rw [if_pos depth]
    exact ⟨(ducks depth).1, fun h => (ducks h).2⟩
  · rw [if_neg depth]
    exact ⟨(keeps (by omega)).1, fun h => absurd h depth⟩

/-- R129: PLAY_CHIME on a free voice. -/
theorem ownPlayChime_of_silence (le : c.toNat ≤ 15) (num : c ≠ 1) (defined : defOf s.che c.toNat = some d)
    (playing : s.che.playing = none) (empty : s.che.queue = []) : ownPlayChime c s =
      (settleDefs (setPlaying (some (Playing.begin (newRecord c.toNat d .request s)))
        ((counted s).setChe { (counted s).che with queue := [] })), answerDone) := by
  rw [ownPlayChime_of_defined le num defined, arriveDef_of_silence playing (by rw [isQueued, empty]; rfl),
    arriveQueued_of_free (s := counted s) playing empty]

/-- R129: PLAY_CHIME over a chime of a lower class. -/
theorem ownPlayChime_of_higher (le : c.toNat ≤ 15) (num : c ≠ 1) (defined : defOf s.che c.toNat = some d)
    (playing : s.che.playing = some p) (other : p.chime.num ≠ c.toNat) (free : isQueued s.che c.toNat = false)
    (higher : classRank p.chime.cls < classRank d.cls) :
    ownPlayChime c s = (settleDefs (preempt (newRecord c.toNat d .request s) p (counted s)), answerDone) := by
  rw [ownPlayChime_of_defined le num defined, arriveDef_of_higher playing other free higher]

/-- R121, R122: the voice that an owner leaves is the voice after its answer. -/
theorem tookRecord_voice {own : State → State × Answer} {a : Answer} (h : own (answerPlaced r s) = (settleDefs u, a))
    (voice : voiceChanged s u) : voiceChanged s (tookRecord r own s) :=
  voiceChanged_congr voice rfl rfl rfl (by rw [tookRecord_che h, settleDefs_playing]) ((tookRecord_mix h).trans settleDefs_mix)
    ((tookRecord_clockNs h).trans settleDefs_clockNs)

end Arrivals

/-- Settles O42: the checks, then the arrival by what plays and what waits. -/
theorem playChimeArrives : Obligations.PlayChimeArrives := by
  intro s r c take
  refine ⟨tookRecord r (ownPlayChime c) s, request_of_canTake take,
    fun h => tookRecord_alone (ownPlayChime_of_range h), fun h => tookRecord_alone (ownPlayChime_of_internal h),
    fun le num empty => tookRecord_alone (ownPlayChime_of_empty le num empty), fun d le num defined => ?_⟩
  have own : ownPlayChime c (answerPlaced r s) = _ := ownPlayChime_of_defined le num defined
  intro rep record
  refine ⟨fun p playing same => ?_, fun other queued => ?_, fun free empty => ?_,
    fun p playing other free => ⟨fun higher room => ?_, fun lower => ?_⟩⟩
  · rw [arriveDef_of_playing (s := answerPlaced r s) playing same] at own
    rw [tookRecord_che own, tookRecord_mix own, settleDefs_playing, settleDefs_queue, settleDefs_counter]
    exact ⟨rfl, rfl, rfl, rfl, tookRecord_answered own rfl⟩
  · rw [arriveDef_of_queued (s := answerPlaced r s) other queued] at own
    rw [tookRecord_che own, settleDefs_playing, settleDefs_queue, settleDefs_counter]
    exact ⟨rfl, rfl, rfl, tookRecord_answered own rfl⟩
  · have silent := ownPlayChime_of_silence (s := answerPlaced r s) le num defined free empty
    have playing : (tookRecord r (ownPlayChime c) s).che.playing = some (Playing.begin record) := by
      rw [tookRecord_che silent, settleDefs_playing, setPlaying_che]; rfl
    obtain ⟨duck, timer⟩ := (tookRecord_voice silent (setPlaying_voice_from _ rfl rfl rfl)).duck playing defined
    refine ⟨playing, ?_, ?_, ?_, duck, timer, tookRecord_answered silent ?_⟩
    · rw [tookRecord_che silent, settleDefs_queue, setPlaying_che]; rfl
    · rw [tookRecord_che silent, settleDefs_tail, setPlaying_che]; rfl
    · rw [tookRecord_che silent, settleDefs_counter, setPlaying_che]; rfl
    · rw [settleDefs_wai, setPlaying_wai]; rfl
  · have preempts := ownPlayChime_of_higher (s := answerPlaced r s) le num defined playing other free higher
    obtain ⟨che, queue, -⟩ := preempt_spec (r := record) (p := p) (s := counted (answerPlaced r s))
    refine ⟨?_, ?_, ?_, tookRecord_answered preempts ?_⟩
    · rw [tookRecord_che preempts, settleDefs_playing]; exact congrArg Che.playing che
    · rw [tookRecord_che preempts, settleDefs_queue]; exact queue room
    · rw [tookRecord_che preempts, settleDefs_tail]; exact congrArg Che.tail che
    · rw [settleDefs_wai, preempt_scanQueue]; rfl
  · rw [arriveDef_of_lower (s := answerPlaced r s) playing other free lower] at own
    have under : (counted (answerPlaced r s)).che.playing = some p := playing
    have is : newRecord c.toNat d .request (answerPlaced r s) = record := rfl
    rw [is] at own
    obtain ⟨voice, tail⟩ := arriveQueued_under (x := record) under
    refine ⟨?_, ?_, fun room => ?_, fun qs low queue full => ?_⟩
    · rw [tookRecord_che own, settleDefs_playing, playing]; exact voice
    · rw [tookRecord_che own, settleDefs_tail]; exact tail
    · rw [arriveQueued_of_room under room] at own
      rw [tookRecord_che own, settleDefs_queue]
      exact ⟨rfl, tookRecord_answered own rfl⟩
    · by_cases higher : outranks record low = true
      · rw [arriveQueued_of_evicting under queue full higher] at own
        rw [if_pos higher]
        refine ⟨?_, tookRecord_answered own (raise_scanQueue _ _ _ _), ?_⟩
        · rw [tookRecord_che own, settleDefs_queue, raiseDropped_che]; rfl
        · have notice : droppedNotice low 1 s (tookRecord r (ownPlayChime c) s) :=
            droppedNotice_raise (u := (counted (answerPlaced r s)).setChe _) rfl rfl
              ((tookRecord_slotCore own (by decide)).trans settleDefs_slot)
              (cabin_congr ((tookRecord_clockNs own).trans (raise_clockNs _ _ _ _)))
          rwa [droppedNotice, Nat.mul_one] at notice
      · rw [arriveQueued_of_lowest (s := counted (answerPlaced r s)) rfl queue full higher] at own
        rw [if_neg higher]
        refine ⟨?_, tookRecord_answered own rfl, slotKept_of_core ((tookRecord_slotCore own (by decide)).trans rfl)⟩
        rw [tookRecord_che own, settleDefs_queue]; rfl

/-! ## The matrix and the gains (R117 to R122) -/

section Gains
variable {s t u : State} {r : RecordRef} {c : Byte} {p : Playing} {d : ChimeDef} {n : Nat}

/-- R117: the codes of a SET_MIX that are clamped. -/
theorem clampCount_eq (c : MixCodes) :
    clampCount c = [c.filmA, c.filmB, c.ui, c.chime, c.master].countP (fun b => 192 < b.toNat) := List.countP_eq_length_filter.symm

theorem clampCounts_eq (p : MixParams) : clampCount p.cabin + clampCount p.headA + clampCount p.headB =
    ([p.cabin, p.headA, p.headB].flatMap (fun c => [c.filmA, c.filmB, c.ui, c.chime, c.master])).countP (fun b => 192 < b.toNat) := by
  simp only [clampCount_eq, List.flatMap_cons, List.flatMap_nil, List.append_nil, List.countP_append, Nat.add_assoc]

theorem clampCounts_le (p : MixParams) : clampCount p.cabin + clampCount p.headA + clampCount p.headB ≤ 15 := by
  rw [clampCounts_eq]
  exact List.countP_le_length

/-- R118: the targets of an output. -/
theorem targetOf_eq (s : State) (o : OutputId) : targetOf s o =
    let m := s.mix.matrix.get o
    let film (g : Nat) : Nat := if s.smn.low then 192 else min 192 (if o = .cabin then g + s.mix.duck else g)
    let floor := if o = .cabin ∧ safetyPlaying s = true then min m.chime 24 else m.chime
    ⟨film m.filmA, film m.filmB, if s.smn.low then 192 else min 192 m.ui,
      min 192 (if o = .cabin ∧ s.smn.low = true then max floor 24 else floor), m.master⟩ := by
  have cabin : (o == .cabin) = true ↔ o = .cabin := beq_iff_eq
  cases low : s.smn.low with
  | true => simp [targetOf, low, lowMuted, cabin, Nat.min_comm]
  | false =>
    simp only [targetOf, low, lowMuted, cabin, Nat.min_comm]
    by_cases o = .cabin <;> simp [*]

theorem muteForLow_effective (s : State) (o : OutputId) : (muteForLow s).mix.effective.get o = { s.mix.effective.get o with
    filmA := 192, filmB := 192, ui := 192
    chime := if o = .cabin then max (s.mix.effective.get o).chime 24 else (s.mix.effective.get o).chime } := by
  cases o <;> rfl

/-- R120: the change to LOW sets the gains, and nothing else of MIX. -/
theorem changeSupply_low_mix (s : State) : (changeSupply true s).mix = (muteForLow s).mix := by
  have mute : ∀ {u v : State}, v.mix = u.mix → (muteForLow v).mix = (muteForLow u).mix := fun e => by
    simp only [muteForLow, State.setMix_mix, e]
  have handed : ∀ u : State, (handLow u).mix = (muteForLow u).mix := fun u => by
    have after : Part.mix.same (muteForLow (onStreams holdStream (onPipes hideFetched u))) (handLow u) := by simp [handLow]
    have before : Part.mix.same u (onStreams holdStream (onPipes hideFetched u)) :=
      (same_onStreams (fun st v => by simp)).2 ((same_onPipes (fun q v => by simp)).2 rfl)
    exact Eq.trans after (mute before)
  exact (handed _).trans (mute (raise_mix _ _ _ _))

/-- R16, R17: the fourth sample that shows no supply changes the state to LOW. -/
theorem supplySample_low (normal : s.smn.low = false) (run : 3 ≤ s.smn.lowRun) :
    ∃ t, exec (.supplySample false false) s = .next t ∧ t.mix = (muteForLow s).mix := by
  refine ⟨_, rfl, ?_⟩
  generalize hu : (reach s.smn.nextSample s).setSmn
    { (reach s.smn.nextSample s).smn with nextSample := (reach s.smn.nextSample s).smn.nextSample + 2000 } = u
  have low : u.smn.low = false := by rw [← hu]; exact normal
  have mix : u.mix = s.mix := by rw [← hu]; rfl
  have complete : runComplete (supplyRuns (supplyLevel false false) u.smn) := by
    have runs : u.smn.lowRun = s.smn.lowRun := by rw [← hu]; rfl
    rw [supplyRuns_eq, runComplete, low]
    simp only [runs]
    exact Nat.min_eq_right (by omega)
  rw [settle_mix, (takeSample_eq false false u).1 complete, low, Bool.not_false, changeSupply_low_mix]
  simp only [muteForLow, State.setMix_mix, State.setSmn_mix, mix]

/-- R127: the end of a chime changes the voice. -/
theorem finishPlaying_voice (p : Playing) (s : State) : voiceChanged s (settle (finishPlaying p s)) := by
  have mix : (announced p s).mix = s.mix := by unfold announced; split <;> simp
  have smn : (announced p s).smn = s.smn := (by unfold announced; split <;> simp : Part.smn.same s (announced p s))
  refine voiceChanged_congr (endPlaying_voice (announced p s)) (by rw [announced_che]) (by rw [smn]) mix ?_ ?_ ?_
  · rw [settle_che, finishPlaying_eq, settleDefs_playing]
  · rw [settle_mix, finishPlaying_eq, settleDefs_mix]
  · rw [settle_clockNs, finishPlaying_eq, settleDefs_clockNs]

theorem stopPlaying_voice (s : State) : voiceChanged s (stopPlaying s) :=
  voiceChanged_congr (endPlaying_voice (stopped s)) rfl rfl rfl rfl rfl rfl

end Gains

/-- Settles O45: SET_MIX, the ramp, the hold timer and the supply state; then each change of the voice. -/
theorem gainsFollowTheMatrix : Obligations.GainsFollowTheMatrix := by
  refine ⟨fun s r p take => ⟨tookRecord r (ownSetMix p) s, request_of_canTake take, ?_, ?_⟩,
    fun s => ⟨_, rfl, ?_, ?_, fun o => ?_⟩,
    fun s due h => ?_, fun s normal run => ?_, fun s p d n tail playing num defined last remaining ended => ⟨_, rfl, ?_⟩,
    fun s r c take le num free playing => ⟨tookRecord r (ownCancelChime c) s, request_of_canTake take, ?_⟩,
    fun s r c d take le num defined arrives => ⟨tookRecord r (ownPlayChime c) s, request_of_canTake take, ?_⟩⟩
  · exact tookRecord_mix (own := ownSetMix p) rfl
  · have own : ownSetMix p (answerPlaced r s) = (_, answerAdjusted _) := rfl
    rw [answerAdjusted_eq ((clampCounts_le p).trans (by decide)), clampCounts_eq] at own
    exact tookRecord_answered own rfl
  · exact settle_clockNs _
  · rw [settle_mix]; rfl
  · rw [settle_mix]
    exact (rampAll_effective _ o).trans (by rw [targetOf_eq]; rfl)
  · refine ⟨settle (duckExpiry (reach due s)), by simp only [exec, execDuckHoldTimer, h, finish], settle_clockNs _, settle_mix _⟩
  · obtain ⟨t, ran, mix⟩ := supplySample_low normal run
    refine ⟨t, ran, ?_⟩
    rw [mix]
    exact ⟨rfl, rfl, muteForLow_effective s⟩
  · rw [stepEnd_of_last tail playing num defined (Nat.not_lt.2 last), cycleEnd_of_last remaining ended]
    exact finishPlaying_voice p s
  · exact tookRecord_voice (ownCancelChime_of_playing le num free playing) (stopPlaying_voice (answerPlaced r s))
  · rcases arrives with ⟨free, empty⟩ | ⟨p, playing, other, free, higher⟩
    · have own := ownPlayChime_of_silence (s := answerPlaced r s) le num defined free empty
      refine ⟨tookRecord_voice own (setPlaying_voice_from _ rfl rfl rfl),
        Playing.begin (newRecord c.toNat d .request (answerPlaced r s)), ?_, rfl⟩
      rw [tookRecord_che own, settleDefs_playing, setPlaying_che]
    · have own := ownPlayChime_of_higher (s := answerPlaced r s) le num defined playing other free higher
      have voice := preempt_voice (newRecord c.toNat d .request (answerPlaced r s)) p (counted (answerPlaced r s))
      refine ⟨tookRecord_voice own (voiceChanged_congr voice rfl rfl rfl rfl rfl rfl),
        Playing.begin (newRecord c.toNat d .request (answerPlaced r s)), ?_, rfl⟩
      rw [tookRecord_che own, settleDefs_playing, preempt_spec.1]

/-! ## The sounds (R137, R138, R140) -/

section Sounds
variable {s : State} {r : RecordRef} {c : Byte} {q : LongReq} {p : LoadParams}

theorem ownPlaySound_of_range (h : 31 < c.toNat) : ownPlaySound c s = (s, answerInvalid .range) := if_pos h

theorem ownPlaySound_of_empty (le : ¬ 31 < c.toNat) (empty : (soundOf s.che c.toNat).st ≠ .loaded) :
    ownPlaySound c s = (s, answerState .empty) := by
  simp only [ownPlaySound, if_neg le, if_pos empty]

theorem ownPlaySound_of_loaded (le : ¬ 31 < c.toNat) (loaded : ¬ (soundOf s.che c.toNat).st ≠ .loaded) : ownPlaySound c s =
    (cutBankUnit (s.setChe { s.che with ui := if (soundOf s.che c.toNat).len = 0 then none else some ⟨c.toNat, 0, 0, []⟩ }),
      answerDone) := by
  simp only [ownPlaySound, if_neg le, if_neg loaded]

/-- R140: a bank unit that is cut off is the fetch engine's alone. -/
theorem cutBankUnit_keeps (s : State) : (cutBankUnit s).che = s.che ∧ (cutBankUnit s).wai = s.wai :=
  ⟨(same_cutLocal (p := .che) (by decide)).2 rfl, (same_cutLocal (p := .wai) (by decide)).2 rfl⟩

/-- R138: an entry and a length that LOAD_SOUND takes. -/
structure Loadable (p : LoadParams) (s : State) : Prop where
  entry : p.entry.toNat ≤ 31
  len : p.len.toNat ≤ 262144
  still : (soundOf s.che p.entry.toNat).st ≠ .loading
  silent : ∀ u, s.che.ui = some u → u.entry ≠ p.entry.toNat

/-- R138: CHE with the entry's own blocks back among the free ones. -/
def blocksBack (p : LoadParams) (c : Che) : Che := freeBlocks (soundOf c p.entry.toNat).blocks c

/-- R138: a sound of length 0 is loaded at once. -/
def loadedEmpty (p : LoadParams) (s : State) : State :=
  s.setChe (setSound p.entry.toNat ⟨.loaded, 0, [], none⟩ (blocksBack p s.che))

/-- R138: the entry has its blocks, and BULK the copy. -/
def loadBegun (q : LongReq) (p : LoadParams) (s : State) : State :=
  let c := blocksBack p s.che
  let need := blocksFor p.len.toNat
  handBulk (.sound p.entry.toNat) [⟨p.addr.toNat, 2 * p.len.toNat⟩] (s.setChe (setSound p.entry.toNat
    ⟨.loading, p.len.toNat, c.free.take need, some q⟩ { c with free := c.free.drop need, loads := c.loads + 1 }))

theorem ownLoadSound_eq (h : Loadable p s) : ownLoadSound q p s =
    if 0 < p.len.toNat ∧ (p.addr.toNat % 2 ≠ 0 ∨ ¬ insideWindow (requestWindow s) p.addr.toNat (2 * p.len.toNat)) then
      (s, answerInvalid .address)
    else if 0 < p.len.toNat ∧ 2 ≤ s.che.loads then (s, answerState .busy)
    else if (blocksBack p s.che).free.length < blocksFor p.len.toNat then (s, answerState .noRoom)
    else if p.len.toNat = 0 then (completeRequest q statusDone (loadedEmpty p s), answerPending)
    else (loadBegun q p s, answerPending) := by
  have range : ¬ (31 < p.entry.toNat ∨ 262144 < p.len.toNat) := by
    have := h.entry
    have := h.len
    omega
  unfold ownLoadSound
  simp only [if_neg range, if_neg h.still]
  cases voice : s.che.ui with
  | none => rfl
  | some u => simp only [beq_false_of_ne (h.silent u voice)]; rfl

theorem ownLoadSound_of_empty (h : Loadable p s) (zero : p.len = 0) :
    ownLoadSound q p s = (completeRequest q statusDone (loadedEmpty p s), answerPending) := by
  have none : p.len.toNat = 0 := by rw [zero]; rfl
  simp [ownLoadSound_eq h, none, blocksFor]

theorem loadLength_pos (h : p.len ≠ 0) : 0 < p.len.toNat := Nat.pos_of_ne_zero fun e => h (BitVec.eq_of_toNat_eq e)

theorem ownLoadSound_of_outside (h : Loadable p s) (longer : p.len ≠ 0)
    (out : p.addr.toNat % 2 ≠ 0 ∨ insideWindow (requestWindow s) p.addr.toNat (2 * p.len.toNat) = false) :
    ownLoadSound q p s = (s, answerInvalid .address) := by
  rw [ownLoadSound_eq h, if_pos ⟨loadLength_pos longer, out.imp id (fun out => by simp [out])⟩]

/-- R138: with its bytes inside the window, a load waits for nothing but a place among the loads and blocks. -/
theorem ownLoadSound_of_inside (h : Loadable p s) (longer : p.len ≠ 0) (even : p.addr.toNat % 2 = 0)
    (inside : insideWindow (requestWindow s) p.addr.toNat (2 * p.len.toNat) = true) : ownLoadSound q p s =
      if 2 ≤ s.che.loads then (s, answerState .busy)
      else if (blocksBack p s.che).free.length < blocksFor p.len.toNat then (s, answerState .noRoom)
      else (loadBegun q p s, answerPending) := by
  simp [ownLoadSound_eq h, loadLength_pos longer, (loadLength_pos longer).ne', even, inside]

theorem blocksBack_free (p : LoadParams) (c : Che) : (blocksBack p c).free =
    (List.range 256).filter (fun b => b ∈ c.free ∨ b ∈ (soundOf c p.entry.toNat).blocks) :=
  List.filter_congr fun b _ => by rw [Bool.eq_iff_iff]; simp

end Sounds

/-- Settles O48: PLAY_SOUND by its checks, and LOAD_SOUND of a length of 0 and of any other by its own. -/
theorem soundsAreLoadedAndPlayed : Obligations.SoundsAreLoadedAndPlayed := by
  refine ⟨fun s r c take => ⟨tookRecord r (ownPlaySound c) s, request_of_canTake take, ?_⟩,
    fun s r p take fresh entry len still silent => ?_⟩
  · by_cases range : 31 < c.toNat
    · rw [if_pos range]
      exact tookRecord_alone (ownPlaySound_of_range range)
    rw [if_neg range]
    by_cases empty : (soundOf s.che c.toNat).st ≠ .loaded
    · rw [if_pos empty]
      exact tookRecord_alone (ownPlaySound_of_empty range empty)
    · rw [if_neg empty]
      have own := ownPlaySound_of_loaded (s := answerPlaced r s) range empty
      obtain ⟨che, wai⟩ := cutBankUnit_keeps ((answerPlaced r s).setChe _)
      exact ⟨(tookRecord_che own).trans che, tookRecord_answered own (congrArg Wai.scanQueue wai)⟩
  · have takes : Loadable p (answerPlaced r s) := ⟨entry, len, still, silent⟩
    intro old free need
    have blocks : (blocksBack p s.che).free = free := blocksBack_free p s.che
    refine ⟨tookRecord r (ownLoadSound ⟨some r⟩ p) s, request_of_canTake take, fun zero => ?_,
      fun longer outside => tookRecord_alone (ownLoadSound_of_outside takes longer outside), fun longer even inside => ?_⟩
    · have own := ownLoadSound_of_empty (q := ⟨some r⟩) takes zero
      have che : (tookRecord r (ownLoadSound ⟨some r⟩ p) s).che = (loadedEmpty p s).che :=
        (tookRecord_che own).trans ((same_completeRequest (p := .che) (by decide)).2 rfl)
      refine ⟨?_, ?_, ?_, ?_⟩
      · rw [che]; rfl
      · rw [che]; exact blocks
      · rw [che]; rfl
      · rw [tookRecord, own]
        exact answered_of_completed (s := loadedEmpty p (answerPlaced r s)) (pendingPlaced_placed take) statusDone answerPending
    · have own := ownLoadSound_of_inside (q := ⟨some r⟩) takes longer even inside
      by_cases busy : 2 ≤ s.che.loads
      · rw [if_pos busy]
        exact tookRecord_alone (own.trans (if_pos busy))
      replace own := own.trans (if_neg busy)
      rw [if_neg busy, ← blocks]
      by_cases full : (blocksBack p s.che).free.length < need
      · rw [if_pos full]
        exact tookRecord_alone (own.trans (if_pos full))
      replace own := own.trans (if_neg full)
      rw [if_neg full]
      have che : (tookRecord r (ownLoadSound ⟨some r⟩ p) s).che = (loadBegun ⟨some r⟩ p s).che :=
        (tookRecord_che own).trans rfl
      have fen : (enterAnswer r answerPending (loadBegun ⟨some r⟩ p (answerPlaced r s))).fen = (loadBegun ⟨some r⟩ p s).fen := rfl
      refine ⟨?_, ?_, ?_, tookRecord_answered own rfl, fun _ => ?_⟩
      · rw [che]; rfl
      · rw [che]; rfl
      · rw [che]; rfl
      · rw [tookRecord, own, settle_fen]
        exact congrArg Fen.bulk fen

/-! ## The definitions that CHE takes (R123, R189) -/

section Definitions
variable {s t u : State} {x : Settings} {src : SettingsSource} {c : Che} {d : ChimeDef} {m n : Nat}

/-- R123: the settings hold definitions 0 to 2, and definition 1 is that of the parking cadence. -/
def ThreeChimes (x : Settings) : Prop := ∃ a b d, x.chimes = [a, b, d] ∧ b.cls = .safety ∧ b.repeats = 0

theorem imageSettings_threeChimes (img : List Byte) : ThreeChimes (imageSettings img) := ⟨_, _, _, rfl, rfl, rfl⟩

theorem defaultSettings_threeChimes : ThreeChimes defaultSettings := ⟨_, _, _, rfl, rfl, rfl⟩

/-- R189: what running settings that are taken at `s` leave at `t`. -/
structure SettingsTaken (x : Settings) (src : SettingsSource) (s t : State) : Prop where
  che : t.che = (settleDefs (s.setChe (takeDefs x.chimes s.che))).che
  running : t.sto.running = x
  source : t.sto.source = src
  vwc : t.vwc = { s.vwc with policy := x.policy }
  glg : t.glg = { s.glg with valid := calibrationValid x.calib }

theorem takeSettings_taken (x : Settings) (src : SettingsSource) (s : State) : SettingsTaken x src s (takeSettings x src s) :=
  ⟨rfl, rfl, rfl, rfl, rfl⟩

theorem SettingsTaken.of_kept (h : SettingsTaken x src s u) (che : t.che = u.che) (running : t.sto.running = u.sto.running)
    (source : t.sto.source = u.sto.source) (vwc : t.vwc = u.vwc) (glg : t.glg = u.glg) : SettingsTaken x src s t :=
  ⟨che.trans h.che, running.trans h.running, source.trans h.source, vwc.trans h.vwc, glg.trans h.glg⟩

theorem SettingsTaken.definitions (h : SettingsTaken x src s t) (three : ThreeChimes x) : definitionsTaken s t := by
  intro defs waiting
  obtain ⟨a, b, d, chimes, safety, endless⟩ := three
  have taken := takeDefs_spec (a := a) (b := b) (d := d) defs waiting
  rw [← chimes, ← h.che] at taken
  obtain ⟨playing, queue, others, each⟩ := taken
  rw [chimes] at each
  refine ⟨playing, queue, others, ⟨a, b, d, by rw [h.running, chimes]⟩, fun n y e => ⟨?_, ?_⟩⟩
  · rintro rfl
    rw [h.running, chimes] at e
    obtain rfl : b = y := by simpa using e
    exact ⟨safety, endless⟩
  · exact each n y (by rw [← chimes, ← h.running]; exact e)

/-! ### The held values (R123) -/

/-- A value is held for an entry that is free. -/
structure HeldFree (n : Nat) (d : ChimeDef) (c : Che) : Prop where
  free : inUse c n = false
  entry : n < c.defs.length
  held : nth c.waiting n none = some d

/-- A held value has become the entry. -/
def tookHeld (n : Nat) (d : ChimeDef) (c : Che) : Prop := defOf c n = some d ∧ nth c.waiting n none = none

/-- Another entry's held value moves nothing of an entry. -/
theorem replaceHeld_other (h : n ≠ m) : inUse (replaceHeld m c) n = inUse c n ∧ (replaceHeld m c).defs.length = c.defs.length ∧
    defOf (replaceHeld m c) n = defOf c n ∧ nth (replaceHeld m c).waiting n none = nth c.waiting n none := by
  unfold replaceHeld
  split
  · exact ⟨rfl, rfl, rfl, rfl⟩
  · split
    · exact ⟨rfl, rfl, rfl, rfl⟩
    · exact ⟨rfl, by simp, by simp [defOf, nth, Ne.symm h], by simp [nth, Ne.symm h]⟩

theorem HeldFree.of_other (h : HeldFree n d c) (other : n ≠ m) : HeldFree n d (replaceHeld m c) := by
  obtain ⟨use, length, -, waiting⟩ := replaceHeld_other (c := c) other
  exact ⟨use.trans h.free, length ▸ h.entry, waiting.trans h.held⟩

theorem tookHeld_of_other (h : tookHeld n d c) (other : n ≠ m) : tookHeld n d (replaceHeld m c) := by
  obtain ⟨-, -, entry, waiting⟩ := replaceHeld_other (c := c) other
  exact ⟨entry.trans h.1, waiting.trans h.2⟩

theorem HeldFree.replaced (h : HeldFree n d c) : tookHeld n d (replaceHeld n c) := by
  have place : n < c.waiting.length := by
    by_contra out
    have held := h.held
    simp [nth, Nat.not_lt.1 out] at held
  simp only [replaceHeld, h.held, h.free]
  simp [tookHeld, defOf, nth, h.entry, place]

/-- R123: the examination after a change of the voice or the queue. -/
theorem HeldFree.settled (h : HeldFree n d s.che) (chime : n ≤ 2) : tookHeld n d (settleDefs s).che := by
  obtain rfl | rfl | rfl : n = 0 ∨ n = 1 ∨ n = 2 := by omega
  · exact tookHeld_of_other (tookHeld_of_other h.replaced (by decide)) (by decide)
  · exact tookHeld_of_other (h.of_other (by decide)).replaced (by decide)
  · exact ((h.of_other (by decide)).of_other (by decide)).replaced

/-- R127: an entry that does not wait is free once the voice is left. -/
theorem heldFree_endPlaying (waits : isQueued s.che n = false) (entry : n < s.che.defs.length)
    (held : nth s.che.waiting n none = some d) : HeldFree n d (endPlaying s).che := by
  cases queue : s.che.queue with
  | nil =>
    rw [endPlaying_of_empty queue]
    refine ⟨?_, entry, held⟩
    simp [inUse, isPlaying, isQueued, queue]
  | cons r q =>
    rw [endPlaying_of_next queue]
    refine ⟨?_, entry, held⟩
    rw [isQueued, queue, List.any_cons, Bool.or_eq_false_iff] at waits
    exact Bool.or_eq_false_iff.2 waits

/-- R133, R135: an entry that does not play is free once its record has left the queue. -/
theorem heldFree_filtered {f : ChimeRec → Bool} (silent : isPlaying s.che n = false) (gone : ∀ r : ChimeRec, f r = true → r.num ≠ n)
    (entry : n < s.che.defs.length) (held : nth s.che.waiting n none = some d) :
    HeldFree n d { s.che with queue := s.che.queue.filter f } := by
  refine ⟨Bool.or_eq_false_iff.2 ⟨silent, ?_⟩, entry, held⟩
  rw [isQueued, List.any_eq_false]
  intro r m
  simpa using gone r (List.mem_filter.1 m).2

end Definitions

/-! ## The start-up image (R187 to R189, R196) -/

section StartImage
variable {s t u : State} {img : List Byte} {n : Nat} {d : ChimeDef} {due : Nat}

/-- The flash port takes its next operation, and nothing else of STO changes. -/
theorem freeFlash_sto (s : State) : (freeFlash s).sto = { s.sto with flash := (freeFlash s).sto.flash } := by
  have served : ∀ u : State, (serveFlash u).sto = { u.sto with flash := (serveFlash u).sto.flash } := fun u => by
    unfold serveFlash
    repeat' split
    all_goals rfl
  rw [freeFlash, served]
  rfl

theorem freeFlash_wai (s : State) : (freeFlash s).wai = s.wai := (same_freeFlash (p := .wai) (by decide)).2 rfl
theorem freeFlash_che (s : State) : (freeFlash s).che = s.che := (same_freeFlash (p := .che) (by decide)).2 rfl
theorem freeFlash_vwc (s : State) : (freeFlash s).vwc = s.vwc := (same_freeFlash (p := .vwc) (by decide)).2 rfl
theorem freeFlash_glg (s : State) : (freeFlash s).glg = s.glg := (same_freeFlash (p := .glg) (by decide)).2 rfl
theorem freeFlash_clockNs (s : State) : (freeFlash s).clockNs = s.clockNs := (same_freeFlash (p := .clock) (by decide)).2 rfl

theorem raiseSettings_sto (e n : Nat) (x : Word) (s : State) : (raiseSettings e n x s).sto = s.sto := raise_sto _ _ _ _
theorem raiseSettings_vwc (e n : Nat) (x : Word) (s : State) : (raiseSettings e n x s).vwc = s.vwc := raise_vwc _ _ _ _
theorem raiseSettings_clockNs (e n : Nat) (x : Word) (s : State) : (raiseSettings e n x s).clockNs = s.clockNs := raise_clockNs _ _ _ _

/-- R189, R196: settings that are taken stay so under the notice and the free flash port. -/
theorem SettingsTaken.noticed {x : Settings} {src : SettingsSource} (h : SettingsTaken x src s u) (e n : Nat) (w : Word) :
    SettingsTaken x src s (settle (freeFlash (raiseSettings e n w u))) := by
  refine h.of_kept ?_ ?_ ?_ ?_ ?_
  · rw [settle_che, freeFlash_che]; exact raise_che
  · rw [settle_sto, freeFlash_sto, raiseSettings_sto]
  · rw [settle_sto, freeFlash_sto, raiseSettings_sto]
  · rw [settle_vwc, freeFlash_vwc, raiseSettings_vwc]
  · rw [settle_glg, freeFlash_glg]; exact raise_glg _ _ _ _

theorem SettingsTaken.of_base {x : Settings} {src : SettingsSource} (h : SettingsTaken x src u t) (che : u.che = s.che)
    (vwc : u.vwc = s.vwc) (glg : u.glg = s.glg) : SettingsTaken x src s t :=
  ⟨h.che.trans (by simp only [settleDefs, State.setChe_che, che]), h.running, h.source, h.vwc.trans (by rw [vwc]),
    h.glg.trans (by rw [glg])⟩

/-- R196: the notice that the flash port's command leaves. -/
theorem settingsNotice {e n : Nat} {w word : Word}
    (before : slotCore u (slotNumber .settingsState) = slotCore s (slotNumber .settingsState))
    (is : BitVec.ofNat 32 (e + 256 * sourceCode u.sto.source + 65536 * n) = word) :
    noticeRaised .settingsState word w s (settle (freeFlash (raiseSettings e n w u))) := by
  subst is
  refine noticeRaised_of_raise before ?_ (cabin_congr ?_)
  · rw [slotCore_settle (by decide)]; exact slotCore_of_wai (freeFlash_wai _)
  · rw [settle_clockNs, freeFlash_clockNs, raiseSettings_clockNs]

/-- R187: an image that passes the four checks. -/
def imageValid (img : List Byte) : Prop :=
  u32At img 0 = 0x49534346 ∧ u16At img 4 = 1 ∧ u16At img 6 = 1024 ∧ crc32 ((img.drop 16).take 1008) = u32At img 8

/-- R187: the first check that an image fails. -/
def firstFault (img : List Byte) : ImageReason :=
  if ¬ u32At img 0 = 0x49534346 then .magic else if ¬ u16At img 4 = 1 then .format else if ¬ u16At img 6 = 1024 then .length else .crc

theorem imageFault_of_valid (h : imageValid img) : imageFault img = none := by
  obtain ⟨magic, format, length, crc⟩ := h
  simp [imageFault, magic, format, length, crc]

theorem imageFault_of_not_valid (h : ¬ imageValid img) : imageFault img = some (firstFault img) := by
  unfold imageFault firstFault
  split
  · rfl
  · split
    · rfl
    · split
      · rfl
      · rename_i magic format length
        exact if_pos fun crc => h ⟨not_not.1 magic, not_not.1 format, not_not.1 length, crc⟩

theorem imageReasonCode_firstFault (img : List Byte) : imageReasonCode (firstFault img) =
    if ¬ u32At img 0 = 0x49534346 then 1 else if ¬ u16At img 4 = 1 then 2 else if ¬ u16At img 6 = 1024 then 3 else 4 := by
  unfold firstFault
  repeat' split
  all_goals rfl

/-- R188: the start-up read has ended. -/
theorem exec_settingsLoad (h : s.sto.flash = some (.load due)) :
    exec (.settingsLoad img) s = .next (settle (freeFlash (takeStartImage img (reachNs due s)))) := by
  simp [exec, execSettingsLoad, h, finish]

/-- R189: the image is staged, and its settings are taken. -/
def imageAccepted (img : List Byte) (s : State) : State :=
  takeSettings (imageSettings img) .image (s.setSto { s.sto with staged := img })

theorem imageAccepted_taken (img : List Byte) (s : State) : SettingsTaken (imageSettings img) .image s (imageAccepted img s) :=
  takeSettings_taken (imageSettings img) .image (s.setSto { s.sto with staged := img }) |>.of_base rfl rfl rfl

theorem takeStartImage_of_valid (h : imageValid img) (s : State) :
    takeStartImage img s = raiseSettings 1 0 (imageSerial img) (imageAccepted img s) := by
  simp only [takeStartImage, imageFault_of_valid h, imageAccepted]

/-- R188: the defaults are taken, with the reason. -/
def imageRejected (img : List Byte) (s : State) : State :=
  let u := takeSettings defaultSettings .defaults s
  u.setSto { u.sto with rejection := some (firstFault img) }

theorem imageRejected_taken (img : List Byte) (s : State) : SettingsTaken defaultSettings .defaults s (imageRejected img s) :=
  (takeSettings_taken defaultSettings .defaults s).of_kept rfl rfl rfl rfl rfl

theorem takeStartImage_of_not_valid (h : ¬ imageValid img) (s : State) :
    takeStartImage img s = raiseSettings 2 (imageReasonCode (firstFault img)) 0 (imageRejected img s) := by
  simp only [takeStartImage, imageFault_of_not_valid h, imageRejected]

end StartImage

/-! ### The stop of the cadence (R135) -/

section CadenceStop
variable {s : State} {due : Nat}

theorem stopCadence_of_playing (h : isPlaying s.che 1 = true) : stopCadence s = settleDefs (endPlaying (stopped s)) := if_pos h

theorem stopCadence_of_silent (h : isPlaying s.che 1 = false) :
    stopCadence s = settleDefs (s.setChe { s.che with queue := s.che.queue.filter (fun r => r.num != 1) }) :=
  if_neg (by simp [h])

/-- R135: PARK_ASSIST has become STALE. -/
theorem exec_parkStale (h : s.vsr.parkFresh.deadline = some due) :
    exec (.freshnessDeadline .parkAssist) s = .next (settle (freshDeadline .parkAssist (reach due s))) := by
  simp [exec, execFreshnessDeadline, freshOf, h, finish]

/-- What the stop of the cadence leaves of CHE depends on CHE alone. -/
theorem stopCadence_che_congr {u v : State} (h : v.che = u.che) : (stopCadence v).che = (stopCadence u).che := by
  have ends : ∀ {u v : State}, v.che = u.che → (endPlaying v).che = (endPlaying u).che := fun e => by
    rw [endPlaying_che, endPlaying_che, e]
  have settles : ∀ {u v : State}, v.che = u.che → (settleDefs v).che = (settleDefs u).che := fun e => by
    simp only [settleDefs, State.setChe_che, e]
  cases playing : isPlaying u.che 1 with
  | true =>
    rw [stopCadence_of_playing playing, stopCadence_of_playing (by rw [h]; exact playing)]
    exact settles (ends (by simp only [stopped, State.setChe_che, h]))
  | false =>
    rw [stopCadence_of_silent playing, stopCadence_of_silent (by rw [h]; exact playing)]
    exact settles (by simp only [State.setChe_che, h])

/-- R135: the cadence condition is noted false. -/
def cadenceLost (s : State) : State := s.setChe { s.che with cadence := false }

theorem parkStale_stops (cadence : s.che.cadence = true) :
    (freshDeadline .parkAssist (reach due s)).che = (stopCadence (cadenceLost s)).che := by
  have lost : ∀ f u, (moveFresh .parkAssist f u).che = u.che := fun f u =>
    (same_moveFresh (p := .che) (by decide) (by decide)).2 rfl
  rw [freshDeadline, evalCadence_of_lost (by rw [moveFresh_vsr]; simp [cadenceNow, setFresh, freshExpiry])
    (by rw [lost]; exact cadence)]
  exact stopCadence_che_congr (by rw [State.setChe_che, lost]; rfl)

end CadenceStop

/-- Settles O57: the image by its four checks, and a held value by what leaves its entry free. -/
theorem settingsLoadTakesOrRejects : Obligations.SettingsLoadTakesOrRejects := by
  refine ⟨fun s img due load => ?_, ?_⟩
  · refine ⟨_, exec_settingsLoad load, ?_⟩
    by_cases valid : imageValid img
    · rw [takeStartImage_of_valid valid]
      have taken := ((imageAccepted_taken img (reachNs due s)).noticed 1 0 (imageSerial img)).of_base (s := s) rfl rfl rfl
      refine ⟨?_, taken.definitions (imageSettings_threeChimes img), fun _ _ _ _ => ⟨taken.running, ?_, ?_, taken.source, ?_, taken.vwc,
        taken.glg, ?_, ?_, ?_, ?_, ?_⟩, fun bad => absurd valid bad⟩
      · rw [settle_clockNs, freeFlash_clockNs, raiseSettings_clockNs]; rfl
      · rw [taken.running]; rfl
      · rw [taken.running]; rfl
      · rw [settle_sto, freeFlash_sto, raiseSettings_sto]; rfl
      · rw [taken.running]; exact Nat.le_max_left _ _
      · rw [taken.running]; exact Nat.max_le.2 ⟨by decide, Nat.min_le_right _ _⟩
      · rw [taken.running]; exact Nat.le_max_left _ _
      · rw [taken.running]; exact Nat.max_le.2 ⟨by decide, Nat.min_le_right _ _⟩
      · refine settingsNotice (slotCore_of_wai rfl) ?_
        rw [(imageAccepted_taken img _).source]; rfl
    · rw [takeStartImage_of_not_valid valid]
      have taken := ((imageRejected_taken img (reachNs due s)).noticed 2 (imageReasonCode (firstFault img)) 0).of_base (s := s) rfl rfl rfl
      refine ⟨?_, taken.definitions defaultSettings_threeChimes,
        fun magic format length crc => absurd ⟨magic, format, length, crc⟩ valid,
        fun _ => ⟨taken.running, taken.source, taken.vwc, ?_, ?_⟩⟩
      · rw [settle_clockNs, freeFlash_clockNs, raiseSettings_clockNs]; rfl
      · rw [settle_sto, freeFlash_sto, raiseSettings_sto]; rfl
      · refine settingsNotice (slotCore_of_wai rfl) ?_
        rw [(imageRejected_taken img _).source, imageReasonCode_firstFault, show 2 + 256 * sourceCode .defaults = 514 from rfl]
  · refine ⟨fun s r c d take le num defs held use once => ⟨tookRecord r (ownCancelChime c) s, request_of_canTake take, ?_⟩,
      fun s p x d n tail playing le num defined last remaining ended waits defs held => ⟨_, rfl, ?_⟩,
      fun s due d fresh cadence use once defs held => ⟨_, exec_parkStale fresh, ?_⟩⟩
    · have entry : c.toNat < s.che.defs.length := by omega
      change tookHeld c.toNat d (tookRecord r (ownCancelChime c) s).che
      cases queued : isQueued s.che c.toNat with
      | true =>
        have silent : isPlaying s.che c.toNat = false := Bool.eq_false_iff.2 fun playing => once ⟨playing, queued⟩
        rw [tookRecord_che (ownCancelChime_of_queued (by omega) num queued)]
        exact (heldFree_filtered silent (fun r h => by simpa using h) entry held).settled le
      | false =>
        have playing : isPlaying s.che c.toNat = true := by rwa [inUse, queued, Bool.or_false] at use
        rw [tookRecord_che (ownCancelChime_of_playing (by omega) num queued playing)]
        exact (heldFree_endPlaying (s := stopped (answerPlaced r s)) queued entry held).settled le
    · change tookHeld p.chime.num d (settle (stepEnd s)).che
      rw [settle_che, stepEnd_of_last tail playing num defined (Nat.not_lt.2 last), cycleEnd_of_last remaining ended, finishPlaying_eq]
      refine (heldFree_endPlaying ?_ ?_ ?_).settled le <;> rw [announced_che]
      · exact waits
      · omega
      · exact held
    · have entry : 1 < s.che.defs.length := by omega
      change tookHeld 1 d (settle (freshDeadline .parkAssist (reach due s))).che
      rw [settle_che, parkStale_stops cadence]
      cases playing : isPlaying s.che 1 with
      | true =>
        have waits : isQueued s.che 1 = false := Bool.eq_false_iff.2 fun queued => once ⟨playing, queued⟩
        rw [stopCadence_of_playing (s := cadenceLost s) playing]
        exact (heldFree_endPlaying (s := stopped (cadenceLost s)) waits entry held).settled (by decide)
      | false =>
        rw [stopCadence_of_silent (s := cadenceLost s) playing]
        exact (heldFree_filtered (s := cadenceLost s) playing (fun r h => by simpa using h) entry held).settled (by decide)

/-! ## WRITE_SETTINGS (R190 to R193) -/

section Write
variable {s t u : State} {r : RecordRef} {q : LongReq} {p : WriteParams} {bytes : List Byte} {due : Nat}

theorem ownWriteSettings_of_length (h : p.len ≠ 1024) : ownWriteSettings q p s = (s, answerInvalid .range) := if_pos h

theorem ownWriteSettings_of_outside (len : ¬ p.len ≠ 1024)
    (out : p.addr.toNat % 4 ≠ 0 ∨ insideWindow (requestWindow s) p.addr.toNat 1024 = false) :
    ownWriteSettings q p s = (s, answerInvalid .address) := by
  rw [ownWriteSettings, if_neg len, if_pos (out.imp id (fun out => by simp [out]))]

theorem ownWriteSettings_of_busy (len : ¬ p.len ≠ 1024)
    (inside : ¬ (p.addr.toNat % 4 ≠ 0 ∨ insideWindow (requestWindow s) p.addr.toNat 1024 = false))
    (busy : s.sto.source = .loading ∨ s.sto.writePhase ≠ .idle) : ownWriteSettings q p s = (s, answerState .busy) := by
  rw [ownWriteSettings, if_neg len, if_neg (by simpa using inside), if_pos busy]

/-- R190: the copy in begins; at LOW it is suspended. -/
def copyInBegun (q : LongReq) (p : WriteParams) (s : State) : State :=
  let u := handBulk .settingsIn [⟨p.addr.toNat, 1024⟩]
    (s.setSto { s.sto with writePhase := .copying, staged := [], writeReq := some q })
  if s.smn.low then suspendChannel (.bulk .settingsIn) u else u

theorem ownWriteSettings_of_idle (len : ¬ p.len ≠ 1024)
    (inside : ¬ (p.addr.toNat % 4 ≠ 0 ∨ insideWindow (requestWindow s) p.addr.toNat 1024 = false))
    (idle : ¬ (s.sto.source = .loading ∨ s.sto.writePhase ≠ .idle)) :
    ownWriteSettings q p s = (copyInBegun q p s, answerPending) := by
  rw [ownWriteSettings, if_neg len, if_neg (by simpa using inside), if_neg idle]
  rfl

theorem copyInBegun_keeps (q : LongReq) (p : WriteParams) (s : State) :
    (copyInBegun q p s).sto = { s.sto with writePhase := .copying, staged := [], writeReq := some q } ∧
      (copyInBegun q p s).wai = s.wai := by
  unfold copyInBegun
  simp only
  split <;> exact ⟨rfl, rfl⟩

theorem copyInBegun_bulk (normal : s.smn.low = false) : (copyInBegun q p s).fen.bulk =
    s.fen.bulk ++ [⟨.settingsIn, Channel.started [⟨p.addr.toNat, 1024⟩], 0⟩] := by
  simp only [copyInBegun, normal]
  rfl

/-- R192: the request of a write has its end, and the phases are over. -/
def writeEnded (st : Status) (o : Option WriteReason) (s : State) : State :=
  let u := match s.sto.writeReq with
    | some q => completeRequest q st s
    | none => s
  u.setSto { u.sto with writePhase := .idle, lastOutcome := o, writeReq := none }

/-- The answer of a request aside, STO alone moves. -/
theorem writeEnded_keeps (st : Status) (o : Option WriteReason) (s : State) :
    (writeEnded st o s).sto = { s.sto with writePhase := .idle, lastOutcome := o, writeReq := none } ∧
      (∀ part : Part, part ≠ .sto → part ≠ .running → part ≠ .wai → part.same s (writeEnded st o s)) ∧
      slotCore (writeEnded st o s) (slotNumber .settingsState) = slotCore s (slotNumber .settingsState) := by
  unfold writeEnded
  split
  · exact ⟨by simp, fun part sto running wai => by simp [sto, wai], by simp⟩
  · exact ⟨rfl, fun part sto running wai => by simp [sto], rfl⟩

/-- R192: the image waits for the view to be OFF. -/
def imageWaits (s : State) : State :=
  let u := writeEnded statusDone none s
  u.setSto { u.sto with waiting := some u.sto.staged }

theorem imageWaits_keeps (s : State) :
    (imageWaits s).sto = { s.sto with writePhase := .idle, lastOutcome := none, writeReq := none, waiting := some s.sto.staged } ∧
      (∀ part : Part, part ≠ .sto → part ≠ .running → part ≠ .wai → part.same s (imageWaits s)) ∧
      slotCore (imageWaits s) (slotNumber .settingsState) = slotCore s (slotNumber .settingsState) := by
  obtain ⟨sto, others, slot⟩ := writeEnded_keeps statusDone none s
  refine ⟨?_, fun part h h' h'' => ?_, slot⟩
  · simp only [imageWaits, State.setSto_sto, sto]
  · simpa [imageWaits, h, h'] using others part h h' h''

theorem finishWrite_eq (s : State) : finishWrite s = if (imageWaits s).vwc.view = .off then applyWaiting (imageWaits s)
    else raiseSettings 3 0 (imageSerial (imageWaits s).sto.staged) (imageWaits s) := rfl

/-- R192, R193: the image becomes the running settings. -/
def imageApplied (s : State) : State :=
  takeSettings (imageSettings s.sto.staged) .image ((imageWaits s).setSto { (imageWaits s).sto with waiting := none })

theorem imageApplied_taken (s : State) : SettingsTaken (imageSettings s.sto.staged) .image s (imageApplied s) := by
  obtain ⟨-, others, -⟩ := imageWaits_keeps s
  exact (takeSettings_taken _ _ _).of_base (others .che (by decide) (by decide) (by decide))
    (others .vwc (by decide) (by decide) (by decide)) (others .glg (by decide) (by decide) (by decide))

theorem imageApplied_sto (s : State) : (imageApplied s).sto = { s.sto with
    writePhase := .idle, lastOutcome := none, writeReq := none, waiting := none,
    running := imageSettings s.sto.staged, source := .image } := by
  obtain ⟨sto, -, -⟩ := imageWaits_keeps s
  unfold imageApplied takeSettings settleDefs
  simp only [State.setChe_sto, State.setGlg_sto, State.setVwc_sto, State.setSto_sto, sto]

theorem imageApplied_clockNs (s : State) : (imageApplied s).clockNs = s.clockNs := by
  have clock : (imageWaits s).clockNs = s.clockNs := (imageWaits_keeps s).2.1 .clock (by decide) (by decide) (by decide)
  simp [imageApplied, takeSettings, clock]

theorem imageApplied_slotCore (s : State) :
    slotCore (imageApplied s) (slotNumber .settingsState) = slotCore s (slotNumber .settingsState) := by
  obtain ⟨-, -, slot⟩ := imageWaits_keeps s
  simp [imageApplied, takeSettings, slot]

theorem failWrite_eq (reason : WriteReason) (s : State) : failWrite reason s =
    raiseSettings 5 (writeReasonCode reason) (failedSerial reason (writeEnded (writeFailure reason) (some reason) s).sto.staged)
      (writeEnded (writeFailure reason) (some reason) s) := rfl

/-- R192: another image than the staged one. -/
theorem compareImage_of_other (h : bytes ≠ s.sto.staged) : compareImage bytes s =
    freeFlash (raiseSettings 5 8 (imageSerial s.sto.staged)
      (writeEnded (writeFailure .compare) (some .compare) s)) := by
  rw [compareImage, if_neg h, failWrite_eq, (writeEnded_keeps _ _ _).1]
  rfl

/-- R192: the staged image, in a view state other than OFF. -/
theorem compareImage_of_waiting (h : bytes = s.sto.staged) (view : s.vwc.view ≠ .off) : compareImage bytes s =
    freeFlash (raiseSettings 3 0 (imageSerial s.sto.staged) (imageWaits s)) := by
  have vwc : (imageWaits s).vwc = s.vwc := (imageWaits_keeps s).2.1 .vwc (by decide) (by decide) (by decide)
  rw [compareImage, if_pos h, finishWrite_eq, vwc, if_neg view, (imageWaits_keeps s).1]

/-- R192, R193: the staged image in OFF. -/
theorem compareImage_of_applied (h : bytes = s.sto.staged) (view : s.vwc.view = .off) : compareImage bytes s =
    freeFlash (raiseSettings 4 0 (imageSerial s.sto.staged) (imageApplied s)) := by
  obtain ⟨sto, others, -⟩ := imageWaits_keeps s
  have vwc : (imageWaits s).vwc = s.vwc := others .vwc (by decide) (by decide) (by decide)
  have waiting : (imageWaits s).sto.waiting = some s.sto.staged := by rw [sto]
  rw [compareImage, if_pos h, finishWrite_eq, vwc, if_pos view]
  simp only [applyWaiting, waiting, imageApplied]

/-- R191, R195: with no write and no read to serve, the flash port stays free. -/
theorem freeFlash_flash (idle : s.sto.writePhase = .idle) (read : s.sto.readPhase ≠ .flashRead) : (freeFlash s).sto.flash = none := by
  simp [freeFlash, serveFlash, setFlash, idle, read]

/-- R192, R196: what the end of a write leaves, its notice raised at `u`. -/
theorem writeEnd_leaves {e n : Nat} {w : Word} (idle : u.sto.writePhase = .idle) (read : u.sto.readPhase ≠ .flashRead)
    (clock : u.clockNs = s.clockNs) :
    (settle (freeFlash (raiseSettings e n w u))).sto = { u.sto with flash := none } ∧
      (settle (freeFlash (raiseSettings e n w u))).vwc = u.vwc ∧
      (settle (freeFlash (raiseSettings e n w u))).clockNs = s.clockNs := by
  refine ⟨?_, ?_, ?_⟩
  · rw [settle_sto, freeFlash_sto, freeFlash_flash (by rwa [raiseSettings_sto]) (by rwa [raiseSettings_sto]), raiseSettings_sto]
  · rw [settle_vwc, freeFlash_vwc, raiseSettings_vwc]
  · rw [settle_clockNs, freeFlash_clockNs, raiseSettings_clockNs, clock]

/-- R192: the comparison fails. -/
theorem compare_other_leaves (differs : bytes ≠ s.sto.staged) (read : s.sto.readPhase ≠ .flashRead)
    (ht : t = settle (compareImage bytes s)) :
    t.sto = { s.sto with writePhase := .idle, writeReq := none, lastOutcome := some .compare, flash := none } ∧ t.vwc = s.vwc ∧
      t.clockNs = s.clockNs ∧ noticeRaised .settingsState (BitVec.ofNat 32 (524293 + 256 * sourceCode s.sto.source))
        (imageSerial s.sto.staged) s t := by
  obtain ⟨before, others, slot⟩ := writeEnded_keeps (writeFailure .compare) (some .compare) s
  obtain ⟨sto, vwc, clock⟩ := writeEnd_leaves (e := 5) (n := 8) (w := imageSerial s.sto.staged) (s := s)
    (u := writeEnded (writeFailure .compare) (some .compare) s) (by rw [before]) (by rw [before]; exact read)
    (others .clock (by decide) (by decide) (by decide))
  rw [ht, compareImage_of_other differs]
  refine ⟨by rw [sto, before], vwc.trans (others .vwc (by decide) (by decide) (by decide)), clock, settingsNotice slot ?_⟩
  have source : (writeEnded (writeFailure .compare) (some .compare) s).sto.source = s.sto.source := by rw [before]
  exact congrArg (BitVec.ofNat 32) (by rw [source]; omega)

/-- R192: the comparison succeeds in a view state other than OFF. -/
theorem compare_waiting_leaves (same : bytes = s.sto.staged) (view : s.vwc.view ≠ .off) (read : s.sto.readPhase ≠ .flashRead)
    (ht : t = settle (compareImage bytes s)) :
    t.sto = { s.sto with writePhase := .idle, writeReq := none, lastOutcome := none, waiting := some s.sto.staged, flash := none } ∧
      t.vwc = s.vwc ∧ t.clockNs = s.clockNs ∧ noticeRaised .settingsState (BitVec.ofNat 32 (3 + 256 * sourceCode s.sto.source))
        (imageSerial s.sto.staged) s t := by
  obtain ⟨before, others, slot⟩ := imageWaits_keeps s
  obtain ⟨sto, vwc, clock⟩ := writeEnd_leaves (e := 3) (n := 0) (w := imageSerial s.sto.staged) (s := s) (u := imageWaits s)
    (by rw [before]) (by rw [before]; exact read) (others .clock (by decide) (by decide) (by decide))
  rw [ht, compareImage_of_waiting same view]
  refine ⟨by rw [sto, before], vwc.trans (others .vwc (by decide) (by decide) (by decide)), clock, settingsNotice slot ?_⟩
  have source : (imageWaits s).sto.source = s.sto.source := by rw [before]
  rw [source, Nat.mul_zero, Nat.add_zero]

/-- R192, R193: the comparison succeeds in OFF. -/
theorem compare_applied_leaves (same : bytes = s.sto.staged) (view : s.vwc.view = .off) (read : s.sto.readPhase ≠ .flashRead)
    (ht : t = settle (compareImage bytes s)) :
    t.sto = { s.sto with
        writePhase := .idle, writeReq := none, lastOutcome := none, waiting := none, flash := none,
        running := imageSettings s.sto.staged, source := .image } ∧
      SettingsTaken (imageSettings s.sto.staged) .image s t ∧ t.clockNs = s.clockNs ∧
      noticeRaised .settingsState 260 (imageSerial s.sto.staged) s t := by
  have before := imageApplied_sto s
  obtain ⟨sto, -, clock⟩ := writeEnd_leaves (e := 4) (n := 0) (w := imageSerial s.sto.staged) (s := s) (u := imageApplied s)
    (by rw [before]) (by rw [before]; exact read) (imageApplied_clockNs s)
  rw [ht, compareImage_of_applied same view]
  refine ⟨by rw [sto, before], (imageApplied_taken s).noticed _ _ _, clock, settingsNotice (imageApplied_slotCore s) ?_⟩
  rw [before]
  rfl

end Write

/-- Settles O58: the request's checks in order, each phase, and the comparison by its outcome and the view. -/
theorem writeSettingsRunsItsPhases : Obligations.WriteSettingsRunsItsPhases := by
  refine ⟨fun s r p take fresh => ⟨tookRecord r (ownWriteSettings ⟨some r⟩ p) s, request_of_canTake take, ?_⟩,
    fun s limit erase => ⟨settle (programPage 0 s), by simp only [exec, execEraseComplete, erase, finish], settle_sto _⟩,
    fun s n limit program => ⟨settle (if n + 1 < 4 then programPage (n + 1) s else startVerify s),
      by simp only [exec, execPageProgramComplete, program, finish], ?_⟩,
    fun s due bytes verify read => ⟨settle (compareImage bytes (reachNs due s)),
      by simp only [exec, execVerifyReadComplete, verify, finish], ?_⟩⟩
  · by_cases len : p.len ≠ 1024
    · rw [if_pos len]
      exact tookRecord_alone (ownWriteSettings_of_length len)
    rw [if_neg len]
    by_cases out : p.addr.toNat % 4 ≠ 0 ∨ insideWindow (requestWindow s) p.addr.toNat 1024 = false
    · rw [if_pos out]
      exact tookRecord_alone (ownWriteSettings_of_outside len out)
    rw [if_neg out]
    by_cases busy : s.sto.source = .loading ∨ s.sto.writePhase ≠ .idle
    · rw [if_pos busy]
      exact tookRecord_alone (ownWriteSettings_of_busy len out busy)
    rw [if_neg busy]
    have own := ownWriteSettings_of_idle (q := ⟨some r⟩) (s := answerPlaced r s) len out busy
    obtain ⟨sto, wai⟩ := copyInBegun_keeps ⟨some r⟩ p (answerPlaced r s)
    refine ⟨?_, tookRecord_answered own (by rw [wai]), fun normal => ?_⟩
    · rw [tookRecord, own, settle_sto]; exact sto
    · rw [tookRecord, own, settle_fen]; exact copyInBegun_bulk (s := answerPlaced r s) normal
  · rw [settle_sto]
    by_cases more : n < 3
    · rw [if_pos more, if_pos (by omega)]; rfl
    · rw [if_neg more, if_neg (by omega)]; rfl
  · by_cases same : bytes = s.sto.staged
    · by_cases off : s.vwc.view = .off
      · obtain ⟨sto, taken, clock, notice⟩ := compare_applied_leaves (s := reachNs due s) same off read rfl
        replace taken := taken.of_base (s := s) rfl rfl rfl
        exact ⟨clock, by rw [sto], by rw [sto], by rw [sto], fun other => absurd same other, fun _ => ⟨by rw [sto],
          fun view => absurd off view, fun _ => ⟨by rw [sto], taken.running, taken.source,
            taken.definitions (imageSettings_threeChimes _), taken.vwc, notice⟩⟩⟩
      · obtain ⟨sto, vwc, clock, notice⟩ := compare_waiting_leaves (s := reachNs due s) same off read rfl
        exact ⟨clock, by rw [sto], by rw [sto], by rw [sto], fun other => absurd same other, fun _ => ⟨by rw [sto],
          fun _ => ⟨by rw [sto]; rfl, by rw [sto]; rfl, vwc, notice⟩, fun view => absurd view off⟩⟩
    · obtain ⟨sto, vwc, clock, notice⟩ := compare_other_leaves (s := reachNs due s) same read rfl
      exact ⟨clock, by rw [sto], by rw [sto], by rw [sto],
        fun _ => ⟨by rw [sto], by rw [sto]; rfl, by rw [sto]; rfl, vwc, notice⟩, fun equal => absurd equal same⟩

end Sys2Proof.Machine

/-! PROOFS. Chapter 7: the places of the system port, both memories, the parts a command touches. -/

namespace Sys2Proof.Machine

/-! ## The places of the system port over a step (R146) -/

section Places
variable {s t : State} {u : FetchUnit} {us vs : List FetchUnit} {f : Fen} {c : ChanId} {place : Nat}

/-- The places that a list of units takes (R146, R154). -/
def occupied (us : List FetchUnit) : List Nat := (us.filter (·.keepsPlace)).map (·.place)

/-- The places taken in a state. -/
def places (s : State) : List Nat := placesUsed s.fen

theorem placesUsed_eq (f : Fen) : placesUsed f = occupied f.units := rfl
theorem places_of_same (h : Part.fen.same s t) : places t = places s := congrArg placesUsed h

/-- Units that are replaced one by one by units in the same places. -/
theorem occupied_map {g : FetchUnit → FetchUnit} (keeps : ∀ u, (g u).keepsPlace = u.keepsPlace) (place : ∀ u, (g u).place = u.place)
    (us : List FetchUnit) : occupied (us.map g) = occupied us := by
  simp [occupied, List.filter_map, Function.comp_def, keeps, place]

/-- R153: a unit that is cut off keeps its place, and one that is held has none to lose. -/
@[simp] theorem occupied_orphanUnits (c : ChanId) (us : List FetchUnit) : occupied (orphanUnits c us) = occupied us := by
  rw [orphanUnits, occupied_map]
  · rw [occupied, occupied, List.filter_filter]
    congr 1
    refine List.filter_congr fun u _ => ?_
    unfold FetchUnit.keepsPlace
    split <;> simp [*]
  · intro u
    split
    · rename_i h; simp [FetchUnit.keepsPlace, h.2]
    · rfl
  · intro u; split <;> rfl

/-- A replacement of FEN's record keeps the places where it keeps those of the units. -/
@[simp] theorem places_setFen (h : occupied f.units = occupied s.fen.units) : places (s.setFen f) = places s := h


/-! ### The parts of the state that hold no unit -/

@[simp] theorem places_setVsr (x : Vsr) : places (s.setVsr x) = places s := rfl
@[simp] theorem places_setSmn (x : Smn) : places (s.setSmn x) = places s := rfl
@[simp] theorem places_setCin (x : Cin) : places (s.setCin x) = places s := rfl
@[simp] theorem places_setVwc (x : Vwc) : places (s.setVwc x) = places s := rfl
@[simp] theorem places_setGlg (x : Glg) : places (s.setGlg x) = places s := rfl
@[simp] theorem places_setChe (x : Che) : places (s.setChe x) = places s := rfl
@[simp] theorem places_setWai (x : Wai) : places (s.setWai x) = places s := rfl
@[simp] theorem places_setSto (x : Sto) : places (s.setSto x) = places s := rfl

/-! ### Operations on one of each -/

@[simp] theorem places_onPipes {f : PipeId → State → State} (h : ∀ q u, places (f q u) = places u) :
    places (onPipes f s) = places s := by simp [onPipes, h]
@[simp] theorem places_onStreams {f : StreamId → State → State} (h : ∀ q u, places (f q u) = places u) :
    places (onStreams f s) = places s := by simp [onStreams, h]
theorem places_foldl {α : Type} {f : State → α → State} (h : ∀ u a, places (f u a) = places u) (l : List α) (s : State) :
    places (l.foldl f s) = places s := by
  induction l generalizing s with
  | nil => rfl
  | cons a l ih => rw [List.foldl_cons, ih, h]
@[simp] theorem places_onSlots {f : Nat → State → State} (h : ∀ n u, places (f n u) = places u) :
    places (onSlots f s) = places s := places_foldl (fun u n => h n u) _ s
@[simp] theorem places_onSounds {f : Nat → State → State} (h : ∀ n u, places (f n u) = places u) :
    places (onSounds f s) = places s := places_foldl (fun u n => h n u) _ s
theorem places_withStream {x : Byte} {k : StreamId → State × Answer} (h : ∀ st, places (k st).1 = places s) :
    places (withStream x s k).1 = places s := by
  unfold withStream; split
  · rfl
  · exact h _
theorem places_withPipe {x : Byte} {k : PipeId → State × Answer} (h : ∀ q, places (k q).1 = places s) :
    places (withPipe x s k).1 = places s := by
  unfold withPipe; split
  · rfl
  · exact h _


/-! ### Operations that leave FEN's record -/

@[simp] theorem places_setAudio {q : StreamId} {x : FilmAudio} : places (setAudio q x s) = places s := places_of_same (by simp)
@[simp] theorem places_setFilm {q : StreamId} {x : Film} : places (setFilm q x s) = places s := places_of_same (by simp)
@[simp] theorem places_setVideo {q : StreamId} {x : FilmVideo} : places (setVideo q x s) = places s := places_of_same (by simp)
@[simp] theorem places_retireStream {st : StreamId} : places (retireStream st s) = places s := places_of_same (by simp)
@[simp] theorem places_raise {k : NoticeKind} {a b : Word} : places (raise k a b s) = places s := places_of_same (by simp)
@[simp] theorem places_completeRequest {q : LongReq} {st : Status} : places (completeRequest q st s) = places s := places_of_same (by simp)
@[simp] theorem places_examineStream {st : StreamId} : places (examineStream st s) = places s := places_of_same (by simp)
@[simp] theorem places_retireDiscarded {st : StreamId} : places (retireDiscarded st s) = places s := places_of_same (by simp)
@[simp] theorem places_freeFlash : places (freeFlash s) = places s := places_of_same (by simp)
@[simp] theorem places_raiseSettings {e r : Nat} {x : Word} : places (raiseSettings e r x s) = places s := places_of_same (by simp)
@[simp] theorem places_setGuideMode {m : GuideMode} : places (setGuideMode m s) = places s := places_of_same (by simp)
@[simp] theorem places_completeRun {m : GuideMode} : places (completeRun m s) = places s := places_of_same (by simp)
@[simp] theorem places_curvatureStep : places (curvatureStep s) = places s := places_of_same (by simp)
@[simp] theorem places_setReader {q : PipeId} {n : Nat} {r : SlotReader} : places (setReader q n r s) = places s := places_of_same (by simp)
@[simp] theorem places_setPipe {q : PipeId} {x : Pipe} : places (setPipe q x s) = places s := places_of_same (by simp)
@[simp] theorem places_handSet {q : PipeId} {a b : Bool} : places (handSet q a b s) = places s := places_of_same (by simp)
@[simp] theorem places_raisePipe {q : PipeId} {a b : PipeState} {c : PipeCause} : places (raisePipe q a b c s) = places s :=
  places_of_same (by simp)
@[simp] theorem places_startLayout {o : PipeState} : places (startLayout o s) = places s := places_of_same (by simp)
@[simp] theorem places_completeAll {qs : List LongReq} {st : Status} : places (completeAll qs st s) = places s := places_of_same (by simp)
@[simp] theorem places_freeShown : places (freeShown s) = places s := places_of_same (by simp)
@[simp] theorem places_countLate {q : PipeId} {n : Nat} : places (countLate q n s) = places s := places_of_same (by simp)
@[simp] theorem places_countDrawn : places (countDrawn s) = places s := places_of_same (by simp)
@[simp] theorem places_clearPicture : places (clearPicture s) = places s := places_of_same (by simp)
@[simp] theorem places_arriveInternal {n : Nat} : places (arriveInternal n s) = places s := places_of_same (by simp)
@[simp] theorem places_applyWaiting : places (applyWaiting s) = places s := places_of_same (by simp)
@[simp] theorem places_raiseView {a b : Vwc} {c : ViewCause} : places (raiseView a b c s) = places s := places_of_same (by simp)
@[simp] theorem places_takeOver : places (takeOver s) = places s := places_of_same (by simp)
@[simp] theorem places_clearFrozen : places (clearFrozen s) = places s := places_of_same (by simp)
@[simp] theorem places_dropFrame : places (dropFrame s) = places s := places_of_same (by simp)
@[simp] theorem places_writeLocal {a : Nat} {bs : List Byte} : places (writeLocal a bs s) = places s := places_of_same (by simp)
@[simp] theorem places_beginFrame : places (beginFrame s) = places s := places_of_same (by simp)
@[simp] theorem places_reach {a : Nat} : places (reach a s) = places s := places_of_same (by simp)
@[simp] theorem places_reachNs {a : Nat} : places (reachNs a s) = places s := places_of_same (by simp)
@[simp] theorem places_evalCadence {b : Bool} : places (evalCadence b s) = places s := places_of_same (by simp)
@[simp] theorem places_evalDisagreement : places (evalDisagreement s) = places s := places_of_same (by simp)
@[simp] theorem places_moveFresh {k : VslKind} {f : Freshness} : places (moveFresh k f s) = places s := places_of_same (by simp)
@[simp] theorem places_frameErrorNow {x : VslError} {n : Nat} {b : Option Byte} : places (frameErrorNow x n b s) = places s :=
  places_of_same (by simp)
@[simp] theorem places_freshFrame {k : VslKind} {n : BitVec 4} : places (freshFrame k n s) = places s := places_of_same (by simp)
@[simp] theorem places_muteForLow : places (muteForLow s) = places s := places_of_same (by simp)
@[simp] theorem places_eraseAtNormal : places (eraseAtNormal s) = places s := places_of_same (by simp)
@[simp] theorem places_latchLayout {o : Option Nat} : places (latchLayout o s) = places s := places_of_same (by simp)
@[simp] theorem places_present {q : PipeId} : places (present q s) = places s := places_of_same (by simp)
@[simp] theorem places_countStart {q : PipeId} : places (countStart q s) = places s := places_of_same (by simp)
@[simp] theorem places_headerRead {page : Nat} {bs : List Byte} : places (headerRead page bs s) = places s := places_of_same (by simp)
@[simp] theorem places_endPage {r : RecordRef} : places (endPage r s) = places s := places_of_same (by simp)
@[simp] theorem places_failAttach {c : AttachCause} : places (failAttach c s) = places s := places_of_same (by simp)
@[simp] theorem places_requestScan : places (requestScan s) = places s := places_of_same (by simp)
@[simp] theorem places_endRead {x : Status} : places (endRead x s) = places s := places_of_same (by simp)
@[simp] theorem places_writeSystem {a : Nat} {bs : List Byte} : places (writeSystem a bs s) = places s := places_of_same (by simp)
@[simp] theorem places_copyInDone : places (copyInDone s) = places s := places_of_same (by simp)
@[simp] theorem places_lineBytes {q : PipeId} {n : Nat} {bs : List Byte} : places (lineBytes q n bs s) = places s :=
  places_of_same (by simp)
@[simp] theorem places_guideDone : places (guideDone s) = places s := places_of_same (by simp)
@[simp] theorem places_writePieces {ws : List (Nat × List Byte)} : places (writePieces ws s) = places s := places_of_same (by simp)
@[simp] theorem places_failWrite {r : WriteReason} : places (failWrite r s) = places s := places_of_same (by simp)

/-! ### The channels and BULK -/

@[simp] theorem places_startChannel {c : ChanId} {rs : List Range} : places (startChannel c rs s) = places s := by simp [startChannel]
@[simp] theorem places_stopChannel {c : ChanId} : places (stopChannel c s) = places s := by simp [stopChannel]
@[simp] theorem places_suspendChannel {c : ChanId} : places (suspendChannel c s) = places s := by simp [suspendChannel]
@[simp] theorem places_resumeChannel {c : ChanId} : places (resumeChannel c s) = places s := by simp [resumeChannel]
@[simp] theorem places_cutLocal {u : LocalUser} : places (cutLocal u s) = places s := by
  unfold cutLocal; repeat' split
  all_goals simp
@[simp] theorem places_handBulk {id : BulkId} {rs : List Range} : places (handBulk id rs s) = places s := by simp [handBulk]
@[simp] theorem places_dropBulk {id : BulkId} : places (dropBulk id s) = places s := by simp [dropBulk]

/-! ### The film streams -/

@[simp] theorem places_startReader {st : StreamId} : places (startReader st s) = places s := by
  unfold startReader; simp only
  split
  · rfl
  · split <;> split <;> simp
@[simp] theorem places_reopenReader {st : StreamId} : places (reopenReader st s) = places s := by
  unfold reopenReader; simp only
  split <;> split <;> simp
@[simp] theorem places_afterAudioUnit {st : StreamId} : places (afterAudioUnit st s) = places s := by simp [afterAudioUnit]
@[simp] theorem places_audioUnitDone {st : StreamId} {d : Bool} {bs : List Byte} : places (audioUnitDone st d bs s) = places s := by
  unfold audioUnitDone; split <;> simp
@[simp] theorem places_audioError {st : StreamId} {d : Bool} : places (audioError st d s) = places s := by
  unfold audioError; simp only; split <;> split <;> simp
@[simp] theorem places_holdStream {st : StreamId} : places (holdStream st s) = places s := by unfold holdStream; simp only; split <;> simp
@[simp] theorem places_releaseStream {st : StreamId} : places (releaseStream st s) = places s := by
  unfold releaseStream; simp only; split <;> simp
@[simp] theorem places_detachStream {st : StreamId} : places (detachStream st s) = places s := by
  unfold detachStream; simp only; split <;> simp
@[simp] theorem places_ownQueueAudio {x : AudioParams} : places (ownQueueAudio x s).1 = places s := by
  unfold ownQueueAudio
  refine places_withStream (fun st => ?_)
  simp only; repeat' split
  all_goals simp
@[simp] theorem places_discardUnits {st : StreamId} : places (discardUnits st s) = places s := by
  refine places_setFen (occupied_map (fun u => ?_) (fun u => ?_) _) <;> split <;> rfl
@[simp] theorem places_flushStreamNow {st : StreamId} : places (flushStreamNow st s) = places s := by simp [flushStreamNow, flushAudio]
@[simp] theorem places_ownFlushStream {q : LongReq} {c : Byte} : places (ownFlushStream q c s).1 = places s := by
  unfold ownFlushStream
  refine places_withStream (fun st => ?_)
  simp only; repeat' split
  all_goals simp
@[simp] theorem places_ownCloseStream {q : LongReq} {c : Byte} : places (ownCloseStream q c s).1 = places s := by
  unfold ownCloseStream
  refine places_withStream (fun st => ?_)
  simp only; repeat' split
  all_goals simp

/-! ### The sound bank and the settings -/

@[simp] theorem places_dropLoad {n : Nat} : places (dropLoad n s) = places s := by simp [dropLoad]
@[simp] theorem places_finishLoad {n : Nat} : places (finishLoad n s) = places s := by unfold finishLoad; simp only; split <;> simp
@[simp] theorem places_failLoad {n : Nat} : places (failLoad n s) = places s := by unfold failLoad; split <;> simp
@[simp] theorem places_abandonLoad {n : Nat} : places (abandonLoad n s) = places s := by unfold abandonLoad; split <;> simp
@[simp] theorem places_suspendLoads : places (suspendLoads s) = places s := by simp [suspendLoads]
@[simp] theorem places_resumeLoads : places (resumeLoads s) = places s := by simp [resumeLoads]
@[simp] theorem places_ownLoadSound {q : LongReq} {x : LoadParams} : places (ownLoadSound q x s).1 = places s := by
  unfold ownLoadSound; simp only; repeat' split
  all_goals simp
@[simp] theorem places_ownPlaySound {c : Byte} : places (ownPlaySound c s).1 = places s := by
  unfold ownPlaySound; simp only; repeat' split
  all_goals simp [cutBankUnit]
@[simp] theorem places_startCopyOut {bs : List Byte} : places (startCopyOut bs s) = places s := by
  unfold startCopyOut; simp only; split <;> simp
@[simp] theorem places_suspendCopies : places (suspendCopies s) = places s := by simp [suspendCopies]
@[simp] theorem places_resumeCopies : places (resumeCopies s) = places s := by simp [resumeCopies]
@[simp] theorem places_abandonWrite : places (abandonWrite s) = places s := by
  unfold abandonWrite; repeat' split
  all_goals simp
@[simp] theorem places_abandonRead : places (abandonRead s) = places s := by
  unfold abandonRead; simp only; repeat' split
  all_goals simp
@[simp] theorem places_ownWriteSettings {q : LongReq} {x : WriteParams} : places (ownWriteSettings q x s).1 = places s := by
  unfold ownWriteSettings; simp only; repeat' split
  all_goals simp

/-! ### The guide lines -/

@[simp] theorem places_abandonRun : places (abandonRun s) = places s := by unfold abandonRun; split <;> simp
@[simp] theorem places_swapOverlay : places (swapOverlay s) = places s := by unfold swapOverlay; split <;> simp
@[simp] theorem places_startRun {m : GuideMode} : places (startRun m s) = places s := by simp [startRun]
@[simp] theorem places_guideVblank : places (guideVblank s) = places s := by
  unfold guideVblank; simp only; repeat' split
  all_goals simp
@[simp] theorem places_guideExit : places (guideExit s) = places s := by simp [guideExit]

/-! ### The pipes and their planes -/

@[simp] theorem places_hideSlot {q : PipeId} {n : Nat} : places (hideSlot q n s) = places s := by simp [hideSlot]
@[simp] theorem places_stopSlot {q : PipeId} {n : Nat} : places (stopSlot q n s) = places s := by simp [stopSlot]
@[simp] theorem places_hideSlots {q : PipeId} : places (hideSlots q s) = places s := by simp [hideSlots]
@[simp] theorem places_stopSlots {q : PipeId} : places (stopSlots q s) = places s := by simp [stopSlots]
@[simp] theorem places_dropLayers : places (dropLayers s) = places s := by simp [dropLayers, cutLayerUnit]
@[simp] theorem places_enterStarting {q : PipeId} {k : PipeCause} : places (enterStarting q k s) = places s := by
  unfold enterStarting; simp only; split <;> simp
@[simp] theorem places_enterOff {q : PipeId} : places (enterOff q s) = places s := by unfold enterOff; simp only; split <;> simp
@[simp] theorem places_startByView : places (startByView s) = places s := by unfold startByView; simp only; split <;> simp
@[simp] theorem places_ownSetPipeTiming {x : TimingParams} : places (ownSetPipeTiming x s).1 = places s := by
  unfold ownSetPipeTiming
  refine places_withPipe (fun q => ?_)
  simp only; repeat' split
  all_goals simp
@[simp] theorem places_ownPipeOff {x : Byte} : places (ownPipeOff x s).1 = places s := by
  unfold ownPipeOff
  refine places_withPipe (fun q => ?_)
  repeat' split
  all_goals simp
@[simp] theorem places_ownRestartPipe {r : LongReq} {x : Byte} : places (ownRestartPipe r x s).1 = places s := by
  unfold ownRestartPipe
  refine places_withPipe (fun q => ?_)
  simp only; repeat' split
  all_goals simp
@[simp] theorem places_handLine {q : PipeId} {n : Nat} : places (handLine q n s) = places s := by
  unfold handLine; simp only; repeat' split
  all_goals simp
@[simp] theorem places_lineDone {q : PipeId} {n : Nat} : places (lineDone q n s) = places s := by
  unfold lineDone; simp only; repeat' split
  all_goals simp
@[simp] theorem places_passLine {q : PipeId} {y n : Nat} : places (passLine q y n s) = places s := by
  unfold passLine; simp only; split <;> simp
@[simp] theorem places_outputLine {q : PipeId} {n : Nat} : places (outputLine q n s) = places s := by
  unfold outputLine; simp only
  split <;> split <;> simp [places_foldl]
@[simp] theorem places_hideFilms : places (hideFilms s) = places s := by
  unfold hideFilms
  refine places_onSlots (fun n u => ?_)
  repeat' split
  all_goals simp
@[simp] theorem places_hideFetched {q : PipeId} : places (hideFetched q s) = places s := by
  unfold hideFetched
  refine places_onSlots (fun n u => ?_)
  repeat' split
  all_goals simp
@[simp] theorem places_withdrawSlot {q : PipeId} {n : Nat} : places (withdrawSlot q n s) = places s := by
  unfold withdrawSlot; repeat' split
  all_goals simp
@[simp] theorem places_withdrawPipe {q : PipeId} : places (withdrawPipe q s) = places s := by simp [withdrawPipe]
@[simp] theorem places_planeError {q : PipeId} {n a : Nat} : places (planeError q n a s) = places s := by
  unfold planeError; simp only; repeat' split
  all_goals simp
@[simp] theorem places_openComposition : places (openComposition s) = places s := by
  unfold openComposition; simp only; split
  · rfl
  · simp
  · rw [places_onSlots (fun n u => by split <;> simp)]; simp

/-! ### The view -/

@[simp] theorem places_moveView {v : ViewState} {m : Bool} {k : ViewCause} : places (moveView v m k s) = places s := by
  unfold moveView enterView; simp only
  cases v <;> simp only <;> split <;> split <;> simp
@[simp] theorem places_viewReverseOn : places (viewReverseOn s) = places s := by
  unfold viewReverseOn; repeat' split
  all_goals simp
@[simp] theorem places_viewReverseOff : places (viewReverseOff s) = places s := by
  unfold viewReverseOff leaveReverse; repeat' split
  all_goals simp
@[simp] theorem places_viewVblank : places (viewVblank s) = places s := by unfold viewVblank; split <;> simp
@[simp] theorem places_viewStartTimeout : places (viewStartTimeout s) = places s := by unfold viewStartTimeout; split <;> simp
@[simp] theorem places_viewCameraGone {k : ViewCause} : places (viewCameraGone k s) = places s := by
  unfold viewCameraGone; split <;> simp
@[simp] theorem places_viewExitTimeout : places (viewExitTimeout s) = places s := by
  unfold viewExitTimeout; split <;> simp
@[simp] theorem places_viewSpeed : places (viewSpeed s) = places s := by
  unfold viewSpeed; repeat' split
  all_goals simp
@[simp] theorem places_ownViewRequest {x : Byte} : places (ownViewRequest x s).1 = places s := by
  unfold ownViewRequest viewOn viewOff; repeat' split
  all_goals simp

/-! ### The camera input -/

@[simp] theorem places_changeStream {x : CamStream} {n : Nat} : places (changeStream x n s) = places s := by
  unfold changeStream; simp only; split <;> simp
@[simp] theorem places_frameStartStream : places (frameStartStream s) = places s := by unfold frameStartStream; simp only; split <;> simp
@[simp] theorem places_faultFrame {x : FaultCause} : places (faultFrame x s) = places s := by
  unfold faultFrame; simp only; repeat' split
  all_goals simp
@[simp] theorem places_goodEndStream : places (goodEndStream s) = places s := by
  unfold goodEndStream; simp only; repeat' split
  all_goals simp
@[simp] theorem places_takeSignature {n : Nat} : places (takeSignature n s) = places s := by
  unfold takeSignature; simp only; repeat' split
  all_goals simp
@[simp] theorem places_goodEnd {f : CamFrame} : places (goodEnd f s) = places s := by unfold goodEnd; simp only; split <;> simp
@[simp] theorem places_handRow {x : CamFrame} {bs : List Byte} : places (handRow x bs s) = places s := by simp [handRow]
@[simp] theorem places_nextTestRow : places (nextTestRow s) = places s := by
  unfold nextTestRow; repeat' split
  all_goals simp
@[simp] theorem places_lineWritten : places (lineWritten s) = places s := by
  unfold lineWritten; repeat' split
  all_goals simp
@[simp] theorem places_completeCameraUnit : places (completeCameraUnit s) = places s := by
  unfold completeCameraUnit; repeat' split
  all_goals simp
@[simp] theorem places_flushLine : places (flushLine s) = places s := by simp [flushLine]
@[simp] theorem places_finishLine : places (finishLine s) = places s := by
  unfold finishLine; simp only; repeat' split
  all_goals simp
@[simp] theorem places_stopLine : places (stopLine s) = places s := by simp [stopLine]
@[simp] theorem places_endFrame {x : CamFrame} : places (endFrame x s) = places s := by unfold endFrame; simp only; split <;> simp
@[simp] theorem places_camFrameStart : places (camFrameStart s) = places s := by unfold camFrameStart; simp only; split <;> simp
@[simp] theorem places_camLineStart : places (camLineStart s) = places s := by
  unfold camLineStart; repeat' split
  all_goals simp
@[simp] theorem places_camLineEnd : places (camLineEnd s) = places s := by
  unfold camLineEnd; repeat' split
  all_goals simp
@[simp] theorem places_camFrameEnd : places (camFrameEnd s) = places s := by
  unfold camFrameEnd; repeat' split
  all_goals simp
@[simp] theorem places_camInvalid : places (camInvalid s) = places s := by unfold camInvalid; split <;> simp
@[simp] theorem places_camPixel {b : Byte} : places (camPixel b s) = places s := by
  unfold camPixel; repeat' split
  all_goals simp
@[simp] theorem places_camDeadline : places (camDeadline s) = places s := by simp [camDeadline]
@[simp] theorem places_switchSource {x : CamSource} : places (switchSource x s) = places s := by
  unfold switchSource; simp only; split <;> split <;> simp
@[simp] theorem places_enterTest : places (enterTest s) = places s := by simp [enterTest]
@[simp] theorem places_leaveTest {n : Nat} : places (leaveTest n s) = places s := by simp [leaveTest]
@[simp] theorem places_camReverseOn : places (camReverseOn s) = places s := by unfold camReverseOn; split <;> simp
@[simp] theorem places_restOfTest {n : Nat} : places (restOfTest n s) = places s := by
  induction n generalizing s with
  | zero => rfl
  | succ n ih => unfold restOfTest; exact ih.trans (by simp)
@[simp] theorem places_endTestFrame : places (endTestFrame s) = places s := by
  unfold endTestFrame; simp only; repeat' split
  all_goals simp
@[simp] theorem places_startTestFrame : places (startTestFrame s) = places s := by simp [startTestFrame]
@[simp] theorem places_ownCameraTest {x : Byte} : places (ownCameraTest x s).1 = places s := by
  unfold ownCameraTest; repeat' split
  all_goals simp

/-! ### The vehicle and the supply -/

@[simp] theorem places_handReverse : places (handReverse s) = places s := by
  unfold handReverse chimeReverseOn; repeat' split
  all_goals simp
@[simp] theorem places_evalReverse : places (evalReverse s) = places s := by unfold evalReverse; simp only; split <;> simp
@[simp] theorem places_evalParked : places (evalParked s) = places s := by unfold evalParked; simp only; split <;> simp
@[simp] theorem places_evalMotion : places (evalMotion s) = places s := by simp [evalMotion]
@[simp] theorem places_freshDeadline {k : VslKind} : places (freshDeadline k s) = places s := by
  unfold freshDeadline; simp only; split <;> simp
@[simp] theorem places_goodMotion {b : Byte} {bs : List Bool} : places (goodMotion b bs s) = places s := by
  unfold goodMotion; simp only; split <;> simp
@[simp] theorem places_goodPark {b : Byte} {bs : List Bool} : places (goodPark b bs s) = places s := by simp [goodPark]
@[simp] theorem places_takeEvent {x : RxEvent} : places (takeEvent x s) = places s := by
  unfold takeEvent; repeat' split
  all_goals simp
@[simp] theorem places_takeBits {bs : List Bool} : places (takeBits bs s) = places s := by
  unfold takeBits; simp only
  rw [places_foldl (fun u a => by simp)]; simp
@[simp] theorem places_holdExpiry : places (holdExpiry s) = places s := by simp [holdExpiry]
@[simp] theorem places_handLow : places (handLow s) = places s := by simp [handLow]
@[simp] theorem places_handNormal : places (handNormal s) = places s := by simp [handNormal]
@[simp] theorem places_takeSample {a b : Bool} : places (takeSample a b s) = places s := by
  unfold takeSample changeSupply; simp only; repeat' split
  all_goals simp_all

/-! ### The vblank -/

@[simp] theorem places_activateScene {q : PipeId} : places (activateScene q s) = places s := by
  unfold activateScene; simp only; split <;> simp
@[simp] theorem places_beginSlot {q : PipeId} {n : Nat} : places (beginSlot q n s) = places s := by
  unfold beginSlot; simp only; repeat' split
  all_goals simp
@[simp] theorem places_beginLayers {n : Nat} : places (beginLayers n s) = places s := by simp [beginLayers]
@[simp] theorem places_fixFrame {q : PipeId} : places (fixFrame q s) = places s := by
  unfold fixFrame; simp only; repeat' split
  all_goals simp
@[simp] theorem places_centreVblank : places (centreVblank s) = places s := by simp [centreVblank]
@[simp] theorem places_vblank {q : PipeId} : places (vblank q s) = places s := by unfold vblank; simp only; split <;> simp

/-! ### WORK's list, attaching and the records -/

@[simp] theorem places_handWork {j : WorkJob} {rs : List Range} {d : List Byte} : places (handWork j rs d s) = places s := by
  simp [handWork]
@[simp] theorem places_handWrite {j : WorkJob} {a : Nat} {d : List Byte} : places (handWrite j a d s) = places s := by simp [handWrite]
@[simp] theorem places_stopWork : places (stopWork s) = places s := by simp [stopWork]
/-- Table 8-6: a request that starts, suspends or stops a channel leaves the places, and any other one leaves FEN. -/
theorem places_ownRequest (q : LongReq) (r : Request) : places (ownRequest q r s).1 = places s := by
  cases r
  case setPipeTiming | pipeOff | restartPipe | queueAudio | flushStream | closeStream | viewRequest | cameraTest | loadSound
      | playSound | writeSettings => simp [ownRequest]
  all_goals exact places_of_same (by simp [ownRequest])

theorem places_takeRecord {r : RecordRef} {k : LongReq → State → State × Answer} (h : ∀ q u, places (k q u).1 = places u) :
    places (takeRecord r k s) = places s := by
  unfold takeRecord; simp only; split
  · rw [places_of_same ((same_enterAnswer (by simp)).2 (Part.same_self _ _)), h]; rfl
  · exact h _ _
theorem places_takeKind {r : RecordRef} {bs : List Byte} : places (takeKind r bs s) = places s := by
  unfold takeKind
  refine places_takeRecord fun q u => ?_
  repeat' split
  all_goals simp [places_ownRequest]
theorem places_takeRecords {n page : Nat} {seq : Word} {bs : List Byte} {pos : Nat} :
    places (takeRecords n page seq bs pos s) = places s := by
  induction n generalizing pos s with
  | zero => rfl
  | succ n ih =>
    unfold takeRecords; simp only
    split
    · rfl
    · split
      · exact places_takeRecord fun _ _ => rfl
      · exact ih.trans places_takeKind
@[simp] theorem places_recordsRead {page : Nat} {bs : List Byte} : places (recordsRead page bs s) = places s := by
  unfold recordsRead; simp only; split <;> simp [places_takeRecords]
@[simp] theorem places_handBoard : places (handBoard s) = places s := by simp [handBoard]
@[simp] theorem places_anchorRead {bs : List Byte} : places (anchorRead bs s) = places s := by unfold anchorRead; split <;> simp
@[simp] theorem places_attachNow : places (attachNow s) = places s := by
  unfold attachNow; simp only; repeat' split
  all_goals simp
@[simp] theorem places_attachComplete : places (attachComplete s) = places s := by unfold attachComplete; split <;> simp
@[simp] theorem places_exitAttached {x : AttachState} {c : AttachCause} : places (exitAttached x c s) = places s := by
  have k : ∀ q u, places (abandonRestarts q u) = places u := fun q u => by simp [abandonRestarts]
  simp [exitAttached, k]
@[simp] theorem places_exitAttaching : places (exitAttaching s) = places s := by simp [exitAttaching]
@[simp] theorem places_detachNow : places (detachNow s) = places s := by unfold detachNow; split <;> simp
@[simp] theorem places_workError : places (workError s) = places s := by unfold workError; split <;> simp
@[simp] theorem places_writeRegByte {o : Nat} {b : Byte} : places (writeRegByte o b s) = places s := by
  unfold writeRegByte ctrlByte; simp only; repeat' split
  all_goals simp
@[simp] theorem places_writeRegs {o : Nat} {bs : List Byte} : places (writeRegs o bs s) = places s := by
  induction bs generalizing o s with
  | nil => rfl
  | cons b bs ih => simp [writeRegs, ih]

/-! ### The Fetch Engine and the local port -/

@[simp] theorem places_tellOwner {c : ChanId} {a : Nat} {d : Bool} : places (tellOwner c a d s) = places s := by
  rcases c with ⟨_, _⟩ | _ | _ | _ | _ | (_ | _ | _) <;> simp [tellOwner, copyInFailed]
@[simp] theorem places_failChannel {c : ChanId} {a : Nat} {d : Bool} : places (failChannel c a d s) = places s := by simp [failChannel]
@[simp] theorem places_popWork : places (popWork s) = places s := by simp [popWork]
@[simp] theorem places_handData {c : ChanId} {d : Bool} {bs : List Byte} : places (handData c d bs s) = places s := by
  unfold handData workArrived; simp only
  repeat' split
  all_goals simp
@[simp] theorem places_localGrant : places (localGrant s) = places s := by
  unfold localGrant localRequested; repeat' split
  all_goals simp
@[simp] theorem places_localDone : places (localDone s) = places s := by
  unfold localDone localMoved cameraWritten guideWritten bankArrived bulkWrote; simp only; repeat' split
  all_goals simp


/-! ### The port itself -/

@[simp] theorem places_settle : places (settle s) = places s := by
  rw [places, placesUsed_eq, settle_units]; rfl

theorem placesOk_iff : placesOk f = true ↔ (placesUsed f).Nodup ∧ ∀ n ∈ placesUsed f, n < 16 := by
  simp [placesOk]

/-- R146: the port grants a free place of the 16. -/
theorem freePlace_spec {n : Nat} (h : freePlace f = some n) : n < 16 ∧ n ∉ placesUsed f := by
  have free := List.find?_some h
  have place := List.mem_of_find?_eq_some h
  simp_all

/-- The places after a move of the port: some of those before, or those and a free one (R146). -/
def PlacesMoved (s t : State) : Prop :=
  (places t).Sublist (places s) ∨ ∃ n, freePlace s.fen = some n ∧ places t = places s ++ [n]

theorem PlacesMoved.of_eq (h : places t = places s) : PlacesMoved s t := .inl (by rw [h])

theorem PlacesMoved.congr {v : State} (h : PlacesMoved s t) (k : places v = places t) : PlacesMoved s v := by
  unfold PlacesMoved; rwa [k]

/-- R146: a move of the port leaves the units in distinct places of its 16. -/
theorem PlacesMoved.placesOk (h : PlacesMoved s t) (ok : placesOk s.fen = true) : placesOk t.fen = true := by
  obtain ⟨distinct, bound⟩ := placesOk_iff.1 ok
  rw [placesOk_iff]
  obtain sub | ⟨n, free, eq⟩ := h
  · exact ⟨distinct.sublist sub, fun n m => bound n (sub.subset m)⟩
  · obtain ⟨small, fresh⟩ := freePlace_spec free
    rw [show placesUsed t.fen = placesUsed s.fen ++ [n] from eq]
    refine ⟨List.nodup_append.2 ⟨distinct, List.nodup_singleton n, by simpa using fun m mem => ne_of_mem_of_not_mem mem fresh⟩,
      fun m mem => ?_⟩
    obtain mem | mem := List.mem_append.1 mem
    · exact bound m mem
    · rwa [List.mem_singleton.1 mem]

/-- The turns hold no unit. -/
theorem turnAfter_units (c : ChanId) (f : Fen) : (turnAfter c f).units = f.units := by unfold turnAfter; split <;> rfl

@[simp] theorem places_grantWork {u : Range} : places (grantWork u s) = places s := by
  unfold grantWork; split
  · rfl
  · simp only
    split <;> split <;> try split
    all_goals simp
@[simp] theorem places_grantCopyOut {u : Range} : places (grantCopyOut u s) = places s := by
  unfold grantCopyOut; simp only; split <;> simp

theorem places_grantRead (c : ChanId) (u : Range) (n : Nat) (s : State) : places (grantRead c u n s) = places s ++ [n] := by
  simp [grantRead, places, placesUsed, FetchUnit.keepsPlace]

/-- R146, R147: a grant of a read takes a free place, and any other one none. -/
theorem grantUnit_placesMoved (c : ChanId) (u : Range) (s : State) : PlacesMoved s (grantUnit c u s) := by
  have turned : places (s.setFen (turnAfter c s.fen)) = places s := places_setFen (by rw [turnAfter_units])
  have free : freePlace (turnAfter c s.fen) = freePlace s.fen := by simp [freePlace, placesUsed, turnAfter_units]
  unfold grantUnit
  split
  · dsimp only
    split
    · split <;> exact .of_eq (by simp [turned])
    · split
      · rename_i n place
        exact .inr ⟨n, free.symm.trans place, by rw [places_grantRead, turned]⟩
      · exact .of_eq turned
  · exact .of_eq places_failChannel

theorem systemGrant_placesMoved (s : State) : PlacesMoved s (systemGrant s) := by
  unfold systemGrant
  split
  · exact .of_eq rfl
  · split
    · exact grantUnit_placesMoved _ _ s
    · exact .of_eq rfl

/-- R150: a unit that leaves the list frees its place. -/
theorem places_removeUnit (place : Nat) (s : State) : (places (removeUnit place s)).Sublist (places s) := by
  rw [removeUnit_eq]
  exact ((List.eraseP_sublist).filter _).map _

/-- R150: a unit that is held frees its place. -/
theorem places_hold (place : Nat) (d : List Byte) (s : State) : (places (rephase place (.held d) s)).Sublist (places s) := by
  have still : ∀ u, (rephased place (.held d) u).keepsPlace = true → u.keepsPlace = true := fun u => by
    unfold rephased; split
    · exact fun k => absurd k (by simp [FetchUnit.keepsPlace])
    · exact id
  have kept : ∀ u, (rephased place (.held d) u).place = u.place := fun u => by unfold rephased; split <;> rfl
  simp only [rephase_eq, places, placesUsed, State.setFen_fen, List.filter_map, List.map_map, Function.comp_def, kept]
  exact (List.monotone_filter_right _ still).map _

/-- R154: a unit that has timed out keeps its place. -/
@[simp] theorem places_timeOut {n : Nat} : places (rephase place (.timedOut n) s) = places s := by
  refine places_setFen (occupied_map (fun u => ?_) (fun u => ?_) _)
  · split
    · rename_i h
      exact (Bool.and_eq_true_iff.1 h).1.symm
    · rfl
  · split <;> rfl

@[simp] theorem places_afterOrphan : places (afterOrphan c s) = places s := by unfold afterOrphan; split <;> simp

/-- R150: a held unit that is handed over has no place to free. -/
theorem occupied_eraseP {p : FetchUnit → Bool} (h : us.find? p = some u) (held : u.keepsPlace = false) :
    occupied (us.eraseP p) = occupied us := by
  induction us with
  | nil => rfl
  | cons x us ih =>
    rw [List.eraseP_cons]
    rw [List.find?_cons] at h
    split at h
    · obtain rfl : x = u := Option.some.inj h
      simp_all [occupied]
    · rename_i other
      have rest := ih h
      unfold occupied at rest ⊢
      simp only [other, cond_false, List.filter_cons]
      split <;> simp [rest]

@[simp] theorem places_drain {n : Nat} : places (drain n c s) = places s := by
  induction n generalizing s with
  | zero => rfl
  | succ n ih =>
    unfold drain
    split
    · rfl
    · rename_i u found
      split
      · rename_i data phase
        rw [ih, places_handData]
        exact places_setFen (by rw [dropFirst_eq_eraseP]; exact occupied_eraseP found (by simp [FetchUnit.keepsPlace, phase]))
      · rfl

theorem completion_placesMoved (place : Nat) (ok : Bool) (d : List Byte) (s : State) : PlacesMoved s (completion place ok d s) := by
  have left : ∀ v, places v = places (removeUnit place s) → PlacesMoved s v := fun v k => .inl <| by
    rw [k]; exact places_removeUnit place s
  unfold completion
  split
  · exact .of_eq rfl
  · rename_i u _
    split
    · split
      · exact .inl (by rw [places_drain]; exact places_hold _ _ s)
      · exact left _ (by simp)
    · exact left _ (by simp)
    · exact left _ rfl

@[simp] theorem places_unitTimedOut {n : Nat} : places (unitTimedOut n s) = places s := by
  unfold unitTimedOut; simp only; repeat' split
  all_goals simp

theorem placeRelease_placesMoved (place : Nat) (s : State) : PlacesMoved s (placeRelease place s) := by
  unfold placeRelease; split
  · exact .of_eq rfl
  · split
    · rename_i t _
      exact .inl (by simpa using places_removeUnit place (reach t s))
    · exact .of_eq rfl

/-- R169: a link reset frees every place. -/
theorem linkResetNow_placesMoved (s : State) : PlacesMoved s (linkResetNow s) := .inl (List.nil_sublist _)

/-! ### Every command -/

theorem placesMoved_of_finish {v : State} (m : PlacesMoved s v) (h : finish v = .next t) : PlacesMoved s t := by
  cases h; exact m.congr places_settle

theorem placesMoved_of_next (h : (.next s : Host.Outcome State Fault Refusal) = .next t) : PlacesMoved s t := by
  cases h; exact .of_eq rfl

theorem placesMoved_of_request {r : RecordRef} {own : LongReq → State → State × Answer} (o : ∀ q v, places (own q v).1 = places v)
    (h : request r own s = .next t) : PlacesMoved s t := by
  unfold request at h
  split at h
  · exact placesMoved_of_finish (.of_eq (places_takeRecord o)) h
  · exact placesMoved_of_next h

/-- Every command but power-on reset makes a move of the port. -/
theorem exec_placesMoved {i : Instr} (n : ∀ rev, i ≠ .powerOnReset rev) (h : exec i s = .next t) : PlacesMoved s t := by
  cases i
  case powerOnReset rev => exact absurd rfl (n rev)
  -- the records: what the owner does to the channels
  case setPipeTiming | pipeOff | restartPipe | queueAudio | flushStream | closeStream | viewRequest | cameraTest | loadSound
      | playSound | writeSettings => exact placesMoved_of_request (fun q v => by simp) h
  case setScene | openStream | queueFrame | setViewPolicy | setMix | defineChime | playChime | cancelChime | setNotice
      | readSettings => exact placesMoved_of_request (fun q v => places_of_same (by simp)) h
  -- the units
  case systemPortGrant => exact placesMoved_of_finish (systemGrant_placesMoved s) h
  case readCompletion place ok data => exact placesMoved_of_finish (completion_placesMoved place ok data s) h
  case timeoutPlaceRelease place => exact placesMoved_of_finish (placeRelease_placesMoved place s) h
  case linkReset => exact placesMoved_of_finish (linkResetNow_placesMoved s) h
  -- the events that always act
  case' motionFrame | parkAssistFrame | frameError | returnToRest | supplySample | lineStart | lineEnd | frameEnd | invalidCode
      | pixelByte | localPortGrant | localUnitCompletion | unitTimeout | attach | detach | registerWrite =>
    refine placesMoved_of_finish (.of_eq ?_) h
    simp
  case revInEdge | toneStepEnd | releaseTailEnd | cadenceDecisionPoint | cadenceCycleEnd | rampBlock | outputSampleInstant
      | scanNow | timeLoRead => exact placesMoved_of_finish (.of_eq (places_of_same (by simp))) h
  -- the events that act only where they are awaited
  case' freshnessDeadline | holdTimer | disagreementTimer | frameStart | testFrameStart | testFrameEnd | frameStartDeadline
      | startTimer | exitTimer | duckHoldTimer | scanPeriodTimer | msiIntervalTimer | settingsLoad | readyWaitDone
      | readyWaitTimeout | eraseComplete | eraseTimeout | pageProgramComplete | programTimeout | verifyReadComplete
      | flashReadComplete =>
    dsimp only [exec, execFreshnessDeadline, execHoldTimer, execDisagreementTimer, execFrameStart, execTestFrameStart,
      execTestFrameEnd, execFrameStartDeadline, execStartTimer, execExitTimer, execDuckHoldTimer, execScanPeriodTimer,
      execMsiIntervalTimer, execSettingsLoad, execReadyWaitDone, execReadyWaitTimeout, execEraseComplete, execEraseTimeout,
      execPageProgramComplete, execProgramTimeout, execVerifyReadComplete, execFlashReadComplete] at h
    split at h
    on_goal 2 => exact placesMoved_of_next h
    refine placesMoved_of_finish (.of_eq ?_) h
  case pipeVblank =>
    dsimp only [exec, execPipeVblank] at h
    split at h
    · exact placesMoved_of_next h
    · exact placesMoved_of_finish (.of_eq places_vblank) h
  case outputLine =>
    dsimp only [exec, execOutputLine] at h
    split at h
    · split at h
      · exact placesMoved_of_finish (.of_eq places_outputLine) h
      · exact placesMoved_of_next h
    · exact placesMoved_of_next h
  case' readyWaitDone | readyWaitTimeout | pageProgramComplete => split
  case freshnessDeadline | holdTimer | frameStart | testFrameStart | testFrameEnd | frameStartDeadline | startTimer | exitTimer
      | flashReadComplete => simp
  all_goals exact places_of_same (by simp)

theorem step_placesOk (ok : placesOk s.fen = true) (h : step s = .next t) : placesOk t.fen = true := by
  obtain ⟨-, rfl⟩ | ⟨i, rest, -, e⟩ := step_cases h
  · exact ok
  · by_cases r : ∃ rev, i = .powerOnReset rev
    · obtain ⟨rev, rfl⟩ := r
      obtain rfl : _ = t := by simpa [Machine.exec, execPowerOnReset] using e
      exact rfl
    · exact (exec_placesMoved (s := s.setPending rest) (fun rev e => r ⟨rev, e⟩) e).placesOk ok

end Places

/-! ## Both memories over a step (3.1) -/

section Memories
variable {s t : State} {n a : Nat} {m : Memory} {bs : List Byte}

/-- 3.1: a memory of `n` bytes in its canonical form. -/
def Canonical (n : Nat) (m : Memory) : Prop := Memory.wf m = true ∧ Memory.below n m = true

theorem memOk_iff : s.memOk = true ↔ Canonical localSize s.localMem ∧ Canonical systemSize s.sysMem := by
  simp [State.memOk, Canonical, and_assoc]

theorem Canonical.writeBytes (h : Canonical n m) (pos : 0 < n) : Canonical n (Memory.writeBytes n m a bs) :=
  ⟨Memory.writeBytes_wf h.1, Memory.writeBytes_below h.2 pos⟩

theorem canonical_flushed (h : Canonical localSize s.localMem) : Canonical localSize (flushedMemory s) := by
  unfold flushedMemory
  split
  · exact h
  · exact h.writeBytes (by decide)

/-! ### Local memory: the camera lines and the local port -/

theorem canonical_finishLine (h : Canonical localSize s.localMem) : Canonical localSize (finishLine s).localMem := by
  rw [(finishLine_spec s).1]; exact canonical_flushed h

theorem canonical_camLineEnd (h : Canonical localSize s.localMem) : Canonical localSize (camLineEnd s).localMem := by
  have dropped : ∀ cause, Canonical localSize (faultFrame cause s).localMem := fun cause => by
    rw [show (faultFrame cause s).localMem = s.localMem from (same_faultFrame (p := .localMem) (by decide)).2 rfl]; exact h
  unfold camLineEnd
  split
  · exact h
  · split
    · exact dropped _
    · split
      · exact dropped _
      · exact canonical_finishLine h

theorem nextTestRow_localMem (s : State) : (nextTestRow s).localMem = s.localMem :=
  (same_nextTestRow (p := .localMem) (by decide) (by decide)).2 rfl

theorem canonical_restOfTest (k : Nat) (h : Canonical localSize s.localMem) : Canonical localSize (restOfTest k s).localMem := by
  induction k generalizing s with
  | zero => exact h
  | succ k ih => exact ih (by rw [nextTestRow_localMem]; exact canonical_finishLine h)

theorem canonical_endTestFrame (h : Canonical localSize s.localMem) : Canonical localSize (endTestFrame s).localMem := by
  have rows : ∀ k due, Canonical localSize (restOfTest k (reach due s)).localMem := fun k due => canonical_restOfTest k h
  unfold endTestFrame
  split
  · exact h
  · split
    · exact h
    · dsimp only
      split
      · rw [show (endFrame _ _).localMem = _ from (same_endFrame (p := .localMem) (by decide)).2 rfl]
        exact rows _ _
      · exact rows _ _

theorem canonical_startTestFrame (h : Canonical localSize s.localMem) : Canonical localSize (startTestFrame s).localMem := by
  rw [startTestFrame_localMem]; exact canonical_flushed (canonical_endTestFrame h)

theorem canonical_localDone (h : Canonical localSize s.localMem) : Canonical localSize (localDone s).localMem := by
  cases unit : s.fen.localUnit with
  | none => rw [localDone, unit]; exact h
  | some q =>
    rw [(portLeft_localDone unit).2]
    have written := writePieces_localOk (ws := q.writes) h.1 h.2
    rw [writePieces_localMem] at written
    exact written

/-- The local memory after every command: an event of the camera or of the local port writes whole bytes in it, and any other command
leaves it. -/
theorem exec_localMem {i : Instr} (h : Canonical localSize s.localMem) (e : exec i s = .next t) : Canonical localSize t.localMem := by
  have finished : ∀ u : State, Canonical localSize u.localMem → finish u = .next t → Canonical localSize t.localMem := fun u k e => by
    cases e; rw [settle_localMem]; exact k
  cases i
  case frameStart =>
    dsimp only [exec, execFrameStart] at e
    split at e
    · exact finished _ (by rw [(camFrameStart_writes s).1]; exact canonical_flushed h) e
    · cases e; exact h
  case lineEnd => exact finished _ (canonical_camLineEnd h) e
  case testFrameStart =>
    dsimp only [exec, execTestFrameStart] at e
    split at e
    · exact finished _ (canonical_startTestFrame h) e
    · cases e; exact h
  case testFrameEnd =>
    dsimp only [exec, execTestFrameEnd] at e
    split at e
    · exact finished _ (canonical_endTestFrame h) e
    · cases e; exact h
  case localUnitCompletion => exact finished _ (canonical_localDone h) e
  all_goals
    rw [show t.localMem = s.localMem from
      exec_same (p := .localMem) (by simp [mayTouch, vehicleParts, viewParts, offParts, pictureParts, exitParts]) e]
    exact h

/-! ### System memory: the writes of the system port -/

theorem grantWork_sysMem (u : Range) (s : State) :
    ∃ bs, (grantWork u s).sysMem = Memory.writeBytes systemSize s.sysMem u.addr bs := by
  have attach : ∀ x : State, (attachComplete x).sysMem = x.sysMem := fun x =>
    (same_attachComplete (p := .sysMem) (by decide) (by decide) (by decide)).2 rfl
  unfold grantWork
  split
  · exact ⟨[], rfl⟩
  · rename_i i _ _
    have issued : ∀ x : State, x.sysMem = (if i.job = .msi then s.setWai { s.wai with msiIssued := s.wai.msiIssued + 1 }
        else writeSystem u.addr (i.data.take u.len) s).sysMem → ∃ bs, x.sysMem = Memory.writeBytes systemSize s.sysMem u.addr bs :=
      fun x e => by
        rw [e]
        split
        · exact ⟨[], rfl⟩
        · exact ⟨_, rfl⟩
    dsimp only
    split
    · split
      · exact issued _ (attach _)
      · exact issued _ rfl
    · exact issued _ rfl

theorem grantCopyOut_sysMem (u : Range) (s : State) : (grantCopyOut u s).sysMem
    = Memory.writeBytes systemSize s.sysMem u.addr ((s.sto.readImage.drop (u.addr - s.sto.readAddr)).take u.len) := by
  have ended : ∀ (st : Status) (x : State), (endRead st x).sysMem = x.sysMem := fun st x =>
    (same_endRead (p := .sysMem) (by decide) (by decide)).2 rfl
  have dropped : ∀ (id : BulkId) (x : State), (dropBulk id x).sysMem = x.sysMem := fun id x =>
    (same_dropBulk (p := .sysMem) (by decide)).2 rfl
  unfold grantCopyOut
  dsimp only
  split
  · rw [ended, dropped]; rfl
  · rfl

/-- R150: a grant writes at most the bytes of one unit. -/
theorem systemGrant_sysMem (s : State) : ∃ a bs, (systemGrant s).sysMem = Memory.writeBytes systemSize s.sysMem a bs := by
  have kept : ∀ x : State, x.sysMem = s.sysMem → ∃ a bs, x.sysMem = Memory.writeBytes systemSize s.sysMem a bs :=
    fun x e => ⟨0, [], e⟩
  unfold systemGrant
  split
  · exact kept _ rfl
  · rename_i c _
    split
    · rename_i u _
      unfold grantUnit
      split
      · dsimp only
        split
        · split
          · exact ⟨_, grantWork_sysMem u _⟩
          · exact ⟨_, _, grantCopyOut_sysMem u _⟩
        · split <;> exact kept _ rfl
      · exact kept _ ((same_failChannel (p := .sysMem) (by decide)).2 rfl)
    · exact kept _ rfl

theorem exec_sysMem {i : Instr} (h : Canonical systemSize s.sysMem) (e : exec i s = .next t) : Canonical systemSize t.sysMem := by
  cases i
  case systemPortGrant =>
    obtain rfl : settle (systemGrant s) = t := by simpa [exec, execSystemPortGrant, finish] using e
    obtain ⟨a, bs, wrote⟩ := systemGrant_sysMem s
    rw [settle_sysMem, wrote]
    exact h.writeBytes (by decide)
  all_goals
    rw [show t.sysMem = s.sysMem from
      exec_same (p := .sysMem) (by simp [mayTouch, vehicleParts, viewParts, offParts, pictureParts, exitParts]) e]
    exact h

theorem step_memOk (ok : s.memOk = true) (h : step s = .next t) : t.memOk = true := by
  obtain ⟨-, rfl⟩ | ⟨i, rest, -, e⟩ := step_cases h
  · exact ok
  · obtain ⟨loc, sys⟩ := memOk_iff.1 ok
    exact memOk_iff.2 ⟨exec_localMem (s := s.setPending rest) loc e, exec_sysMem (s := s.setPending rest) sys e⟩

end Memories

/-- Settles O4: each command writes whole bytes at addresses of their memory, and moves at most one unit of the port. -/
theorem stepKeepsMemoriesCanonical : Obligations.StepKeepsMemoriesCanonical :=
  ⟨fun _ _ => step_memOk, fun _ _ => step_placesOk⟩

/-- Settles O5, row by row. -/
theorem everyCommandTouchesOnlyItsParts : Obligations.EveryCommandTouchesOnlyItsParts :=
  fun _ _ _ h _ k => exec_same k h


end Sys2Proof.Machine

/-! PROOFS. Chapter 7: the choice of the system port and its grants. -/

namespace Sys2Proof.Machine

/-! ## The choice of the system port (R146 to R149) -/

section Choice
variable {s : State} {c : ChanId} {n last : Nat} {f : Nat → Bool}

/-- R148: the slots after the one last granted are all six. -/
theorem mem_slotsAfter (last : Nat) {n : Nat} (h : n < 6) : n ∈ slotsAfter last :=
  List.mem_map.2 ⟨(n + 6 - (last + 1) % 6) % 6, List.mem_range.2 (by omega), by omega⟩

theorem find?_slotsAfter_eq_none : (slotsAfter last).find? f = none ↔ ∀ n < 6, f n = false := by
  simp only [List.find?_eq_none, Bool.not_eq_true]
  refine ⟨fun h n lt => h n (mem_slotsAfter last lt), fun h n m => ?_⟩
  obtain ⟨i, -, rfl⟩ := List.mem_map.1 m
  exact h _ (Nat.mod_lt _ (by decide))

/-- R148: the first slot that serves, after the one last granted and wrapping from 5 to 0. -/
theorem find?_slotsAfter_eq_some (h : (slotsAfter last).find? f = some n) : n < 6 ∧ f n = true ∧
    ∃ i < 6, n = (last + 1 + i) % 6 ∧ ∀ j < i, f ((last + 1 + j) % 6) = false := by
  obtain ⟨serves, i, lt, rfl, before⟩ := List.find?_eq_some_iff_getElem.1 h
  have len : i < 6 := by simpa [slotsAfter] using lt
  simp only [slotsAfter, List.getElem_map, List.getElem_range, Bool.not_eq_eq_eq_not] at serves before ⊢
  exact ⟨Nat.mod_lt _ (by decide), serves, i, len, rfl, before⟩

theorem mem_rotation (r : Rotation) (p : PipeId) : p ∈ r.order := by cases r <;> cases p <;> decide

theorem displayChoice_eq_none : displayChoice s = none ↔ ∀ p, ∀ slot < 6, eligible s (.plane p slot) = false := by
  simp only [displayChoice, List.findSome?_eq_none_iff, Option.map_eq_none_iff, find?_slotsAfter_eq_none]
  exact ⟨fun h p => h p (mem_rotation _ p), fun h p _ => h p⟩

/-- R148: the DISPLAY class grants the first pipe of the rotation that has an eligible reader, and of it the first slot after the last. -/
theorem displayChoice_eq_some (h : displayChoice s = some c) : ∃ q n, c = .plane q n ∧ n < 6 ∧ eligible s c = true ∧
    (∀ o, s.fen.rotation.order.idxOf o < s.fen.rotation.order.idxOf q → ∀ k < 6, eligible s (.plane o k) = false) ∧
    ∃ i < 6, n = (s.fen.lastSlot.get q + 1 + i) % 6 ∧
      ∀ j < i, eligible s (.plane q ((s.fen.lastSlot.get q + 1 + j) % 6)) = false := by
  obtain ⟨ahead, q, behind, order, found, none⟩ := List.findSome?_eq_some_iff.1 h
  obtain ⟨n, first, rfl⟩ := Option.map_eq_some_iff.1 found
  obtain ⟨lt, serves, after⟩ := find?_slotsAfter_eq_some first
  refine ⟨q, n, rfl, lt, serves, fun o before => ?_, after⟩
  have place : (ahead ++ q :: behind).idxOf q ≤ ahead.length := by
    rw [List.idxOf_append]; split
    · exact List.idxOf_le_length
    · simp
  rw [order] at before
  have mem : o ∈ ahead := by
    by_contra out
    rw [List.idxOf_append, if_neg out] at before
    omega
  exact find?_slotsAfter_eq_none.1 (Option.map_eq_none_iff.1 (none o mem))

theorem eq_or_eq_otherStream (st o : StreamId) : st = o ∨ st = otherStream o := by cases st <;> cases o <;> decide

theorem audioChoice_eq_none : audioChoice s = none ↔ ∀ st, eligible s (.audio st) = false := by
  simp only [audioChoice, List.find?_eq_none, List.mem_cons, List.not_mem_nil, or_false, forall_eq_or_imp, forall_eq, Bool.not_eq_true]
  refine ⟨fun h st => ?_, fun h => ⟨h _, h _⟩⟩
  obtain e | e := eq_or_eq_otherStream st s.fen.audioTurn <;> rw [e]
  · exact h.1
  · exact h.2

/-- R149: the AUDIO class grants the reader whose turn it is, where that one is eligible. -/
theorem audioChoice_eq_some (h : audioChoice s = some c) : eligible s c = true ∧
    ∃ o, c = .audio o ∧ (eligible s (.audio s.fen.audioTurn) = true → o = s.fen.audioTurn) := by
  refine ⟨List.find?_some h, ?_⟩
  unfold audioChoice at h
  rw [List.find?_cons] at h
  split at h
  · exact ⟨_, (Option.some.inj h).symm, fun _ => rfl⟩
  · rename_i waits
    obtain rfl := List.mem_singleton.1 (List.mem_of_find?_eq_some h)
    exact ⟨_, rfl, fun e => by rw [e] at waits; cases waits⟩

/-- R149: BULK serves the oldest transfer that is ACTIVE. -/
theorem bulkChoice_eq_some (h : bulkChoice s = some c) : eligible s c = true ∧
    ∃ pre b post, s.fen.bulk = pre ++ b :: post ∧ c = .bulk b.id ∧ b.chan.st = .active ∧ ∀ x ∈ pre, x.chan.st ≠ .active := by
  unfold bulkChoice at h
  split at h
  · rename_i d served
    split at h
    · rename_i serves
      obtain rfl := Option.some.inj h
      obtain ⟨b, first, rfl⟩ := Option.map_eq_some_iff.1 served
      obtain ⟨active, pre, post, list, older⟩ := List.find?_eq_some_iff_append.1 first
      exact ⟨serves, pre, b, post, list, rfl, by simpa using active, fun x m => by simpa using older x m⟩
    · cases h
  · cases h

/-- R147: a class is served where no class before it has an eligible channel. -/
theorem systemChoice_cases (h : systemChoice s = some c) : displayChoice s = some c ∨
    displayChoice s = none ∧ (audioChoice s = some c ∨
      audioChoice s = none ∧ (eligible s .work = true ∧ c = .work ∨ eligible s .work = false ∧ bulkChoice s = some c)) := by
  unfold systemChoice at h
  split at h
  · rename_i display
    exact .inl (display.trans h)
  · rename_i display
    refine .inr ⟨display, ?_⟩
    split at h
    · rename_i audio
      exact .inl (audio.trans h)
    · rename_i audio
      refine .inr ⟨audio, ?_⟩
      split at h
      · rename_i work
        exact .inl ⟨work, (Option.some.inj h).symm⟩
      · rename_i work
        exact .inr ⟨by simpa using work, h⟩

theorem eligible_of_systemChoice (h : systemChoice s = some c) : eligible s c = true := by
  obtain display | ⟨-, audio | ⟨-, ⟨work, rfl⟩ | ⟨-, bulk⟩⟩⟩ := systemChoice_cases h
  · obtain ⟨-, -, -, -, serves, -⟩ := displayChoice_eq_some display
    exact serves
  · exact (audioChoice_eq_some audio).1
  · exact work
  · exact (bulkChoice_eq_some bulk).1

/-- R147: a plane reader is granted by its class alone. -/
theorem displayChoice_of_plane {q : PipeId} (h : systemChoice s = some (.plane q n)) : displayChoice s = some (.plane q n) := by
  obtain display | ⟨-, audio | ⟨-, ⟨-, other⟩ | ⟨-, bulk⟩⟩⟩ := systemChoice_cases h
  · exact display
  · obtain ⟨-, _, other, -⟩ := audioChoice_eq_some audio
    cases other
  · cases other
  · obtain ⟨-, _, _, _, -, other, -⟩ := bulkChoice_eq_some bulk
    cases other

/-- R147: an eligible plane reader lets no other class be served. -/
theorem displayChoice_of_eligible {p : PipeId} (h : systemChoice s = some c) (lt : n < 6) (serves : eligible s (.plane p n) = true) :
    displayChoice s = some c := by
  obtain display | ⟨none, -⟩ := systemChoice_cases h
  · exact display
  · simp [displayChoice_eq_none.1 none p n lt] at serves

/-- R147: an eligible audio reader lets only the plane readers be served before its class. -/
theorem served_of_audio_eligible {st : StreamId} (h : systemChoice s = some c) (serves : eligible s (.audio st) = true) :
    displayChoice s = some c ∨ audioChoice s = some c := by
  obtain display | ⟨-, audio | ⟨none, -⟩⟩ := systemChoice_cases h
  · exact .inl display
  · exact .inr audio
  · simp [audioChoice_eq_none.1 none st] at serves

/-- R147: BULK is served where WORK is not eligible. -/
theorem bulkChoice_of_bulk {id : BulkId} (h : systemChoice s = some (.bulk id)) :
    eligible s .work = false ∧ bulkChoice s = some (.bulk id) := by
  obtain display | ⟨-, audio | ⟨-, ⟨-, other⟩ | bulk⟩⟩ := systemChoice_cases h
  · obtain ⟨_, _, other, -⟩ := displayChoice_eq_some display
    cases other
  · obtain ⟨-, _, other, -⟩ := audioChoice_eq_some audio
    cases other
  · cases other
  · exact bulk

/-- R147: with no eligible channel nothing is chosen. -/
theorem systemChoice_eq_none (planes : ∀ p, ∀ slot < 6, eligible s (.plane p slot) = false)
    (audio : ∀ st, eligible s (.audio st) = false) (work : eligible s .work = false) (bulk : ∀ id, eligible s (.bulk id) = false) :
    systemChoice s = none := by
  have none : bulkChoice s = none := by
    cases h : bulkChoice s with
    | none => rfl
    | some c =>
      obtain ⟨serves, -, b, -, -, rfl, -⟩ := bulkChoice_eq_some h
      simp [bulk] at serves
  simp [systemChoice, displayChoice_eq_none.2 planes, audioChoice_eq_none.2 audio, work, none]

end Choice

/-- Settles O49, class by class. -/
theorem systemPortChoosesByClass : Obligations.SystemPortChoosesByClass := by
  refine ⟨fun s c h => ⟨eligible_of_systemChoice h, fun p slot lt serves => ?_, fun q n e => ?_, fun st serves => ?_,
    fun serves id e => ?_, fun id e => ?_⟩, fun s planes audio work bulk => ?_⟩
  · obtain ⟨q, n, plane, lt, -, first, -⟩ := displayChoice_eq_some (displayChoice_of_eligible h lt serves)
    exact ⟨q, n, plane, lt, first⟩
  · subst e
    obtain ⟨q', n', same, -, -, -, slots⟩ := displayChoice_eq_some (displayChoice_of_plane h)
    obtain ⟨rfl, rfl⟩ := ChanId.plane.inj same
    exact slots
  · obtain display | audio := served_of_audio_eligible h serves
    · obtain ⟨q, n, plane, -⟩ := displayChoice_eq_some display
      exact .inl ⟨q, n, plane⟩
    · exact .inr (audioChoice_eq_some audio).2
  · subst e
    simp [(bulkChoice_of_bulk h).1] at serves
  · subst e
    obtain ⟨-, pre, b, post, list, same, active, older⟩ := bulkChoice_eq_some (bulkChoice_of_bulk h).2
    exact ⟨pre, b, post, list, (ChanId.bulk.inj same).symm, active, older⟩
  · have waits : systemGrant s = s := by rw [systemGrant, systemChoice_eq_none planes audio work bulk]
    have left := units_onlyTouches s.fen.units s
    exact ⟨settle (systemGrant s), rfl, by rw [waits]; exact left, by rw [waits, settle_units]⟩

end Sys2Proof.Machine

namespace Sys2Proof.Machine

/-! ## Grants of the system port (R145, R147, R148, R150, R157) -/

section Grants
variable {s t : State} {c d : ChanId} {u r : Range} {rs : List Range} {f : Fen} {x : Channel} {p : PipeId} {st : StreamId}
variable {slot place : Nat} {id : BulkId} {i : WorkItem} {rest : List WorkItem}

/-- R145: a unit begins where the transfer goes on, and ends at the unit limit, at the end of its range, or at the end of its 4 KiB page. -/
theorem nextUnit_eq_some (h : nextUnit c rs = some u) : ∃ r rest, rs = r :: rest ∧ u.addr = r.addr ∧ u.len ≤ r.len ∧
    u.len ≤ unitLimit c ∧ u.addr % 4096 + u.len ≤ 4096 := by
  cases rs with
  | nil => cases h
  | cons r rest =>
    obtain rfl := Option.some.inj h
    exact ⟨r, rest, rfl, rfl, by dsimp only; omega, by dsimp only; omega, by dsimp only; omega⟩

theorem ne_nil_of_nextUnit (h : nextUnit c rs = some u) : rs ≠ [] := by
  obtain ⟨r, rest, rfl, -⟩ := nextUnit_eq_some h
  simp

/-- R145: where WORK has a unit to grant, a transfer stands on its list. -/
theorem work_ne_nil_of_unit (h : nextUnit .work (channelOf f .work).toReq = some u) : f.work ≠ [] := by
  intro empty
  simp [channelOf, empty, idleChannel, nextUnit] at h

/-- R147: a grant is of the next unit of the channel chosen. -/
theorem exec_systemPortGrant (chosen : systemChoice s = some c) (unit : nextUnit c (channelOf s.fen c).toReq = some u) :
    exec .systemPortGrant s = .next (settle (grantUnit c u s)) := by
  simp [exec, execSystemPortGrant, finish, systemGrant, chosen, unit]

/-- R146: an eligible channel finds a free place. -/
theorem freePlace_of_eligible (h : eligible s c = true) : ∃ n, freePlace s.fen = some n := by
  unfold eligible at h
  dsimp only at h
  split at h
  · cases h
  · exact Option.isSome_iff_exists.1 (by simp_all)

/-! ### WORK's list at the end of a command -/

theorem handOne_work (h : handOne s = some t) : ∃ more, t.fen.work = s.fen.work ++ more := by
  obtain ⟨-, -, rfl⟩ | ⟨i, q, -, rfl⟩ | ⟨a, q, -, rfl⟩ | ⟨n, -, rfl⟩ | ⟨-, rfl⟩ := handOne_cases h
  · exact ⟨[], by rw [show (endScan s).fen = s.fen from (same_endScan (p := .fen) (by decide)).2 rfl, List.append_nil]⟩
  · cases i with
    | answer ref st n final counted =>
      simp only [handScan]
      split
      · rw [(finalHanded_keeps (q := false) (r := ref) (st := st) (c := counted)).2.1]; exact ⟨_, rfl⟩
      · exact ⟨_, rfl⟩
    | look =>
      simp only [handScan, lookPage]
      split <;> exact ⟨[], (List.append_nil _).symm⟩
    | _ => exact ⟨_, rfl⟩
  · cases a with
    | final ref st =>
      rw [handQueued, (finalHanded_keeps (q := true) (r := ref) (st := st) (c := true)).2.1]; exact ⟨_, rfl⟩
    | header page bytes => exact ⟨_, rfl⟩
  · unfold handSlot
    split
    · exact ⟨[], (List.append_nil _).symm⟩
    · exact ⟨_, rfl⟩
  · exact ⟨_, rfl⟩

/-- R170: what WAI hands joins the end of WORK's list. -/
theorem settle_work (s : State) : ∃ more, (settle s).fen.work = s.fen.work ++ more := by
  have loop : ∀ (n : Nat) (v : State), ∃ more, (handLoop n v).fen.work = v.fen.work ++ more := fun n => by
    induction n with
    | zero => exact fun v => ⟨[], (List.append_nil _).symm⟩
    | succ n ih =>
      intro v
      unfold handLoop
      split
      · rename_i w handed
        obtain ⟨first, e⟩ := handOne_work handed
        obtain ⟨more, k⟩ := ih w
        exact ⟨first ++ more, by rw [k, e, List.append_assoc]⟩
      · exact ⟨[], (List.append_nil _).symm⟩
  exact loop 64 s

/-- The end of a command leaves the channel of a transfer that stands: WORK's own is that of the head of its list. -/
theorem channelOf_settle_of_standing (stands : c = .work → s.fen.work ≠ []) : channelOf (settle s).fen c = channelOf s.fen c := by
  cases c
  case work =>
    obtain ⟨more, joined⟩ := settle_work s
    obtain ⟨i, rest, list⟩ := List.exists_cons_of_ne_nil (stands rfl)
    simp [channelOf, joined, list]
  all_goals exact channelOf_settle (by simp) s

/-! ### A channel with a unit to grant -/

/-- R144: a channel with a unit to grant stands, and takes its new record. -/
theorem channelOf_setChannel_of_busy (busy : (channelOf f c).toReq ≠ []) (x : Channel) : channelOf (setChannel f c x) c = x := by
  cases c with
  | plane p slot =>
    refine channelOf_setChannel_plane ?_ x
    by_contra out
    rw [channelOf, nth, List.getElem?_eq_none (by omega)] at busy
    exact busy rfl
  | audio st => simp [channelOf, setChannel]
  | camWr => rfl
  | guideWr => rfl
  | work =>
    cases list : f.work with
    | nil => simp [channelOf, list, idleChannel] at busy
    | cons i rest => simp [channelOf, setChannel, list]
  | bulk id =>
    refine bulkChannel_map ?_
    by_contra absent
    rw [channelOf, bulkChannel_absent fun b m e => absent ⟨b, m, e⟩] at busy
    exact busy rfl

theorem channelOf_turnAfter (c d : ChanId) (f : Fen) : channelOf (turnAfter c f) d = channelOf f d := by
  cases c <;> cases d <;> rfl

theorem setChannel_turnAfter (c d : ChanId) (x : Channel) (f : Fen) : setChannel (turnAfter c f) d x = turnAfter c (setChannel f d x) := by
  cases c <;> cases d <;> unfold setChannel turnAfter <;> dsimp only <;> try split
  all_goals rfl

/-! ### Reads -/

/-- R150: a read takes a free place, and turns the rotation of its class. -/
theorem grantUnit_of_read (inside : windowOk s c u = true) (reads : writesSystem s.fen c = false) (free : freePlace s.fen = some place) :
    grantUnit c u s = grantRead c u place (s.setFen (turnAfter c s.fen)) := by
  have writes : writesSystem (turnAfter c s.fen) c = false := by rw [← reads]; cases c <;> rfl
  have place' : freePlace (turnAfter c s.fen) = some place := by rw [← free]; simp [freePlace, placesUsed, turnAfter_units]
  unfold grantUnit
  rw [if_pos inside]
  simp [writes, place']

/-- The channel, the port and the turns after a read. -/
theorem grantRead_fen (c : ChanId) (u : Range) (place : Nat) (s : State) :
    (grantRead c u place (s.setFen (turnAfter c s.fen))).fen = { turnAfter c (setChannel s.fen c
        { channelOf s.fen c with toReq := advance u.len (channelOf s.fen c).toReq }) with
      units := s.fen.units ++ [⟨place, c, u.addr, u.len, now s + 50000, .inFlight, false⟩] } := by
  simp only [grantRead, State.setFen_fen, channelOf_turnAfter, setChannel_turnAfter, turnAfter_units, setChannel_units]
  rfl

theorem rotationAfter_last (p : PipeId) : (rotationAfter p).order.getLast? = some p := by cases p <;> rfl

theorem windowOk_of (h : c = .work ∨ insideWindow s.fen.window u.addr u.len = true) : windowOk s c u = true := by
  unfold windowOk
  split
  · rfl
  · rename_i other
    exact h.resolve_left other

/-- R148, R149, R150: the port, the channel and the turns after a grant of a read. -/
theorem grant_of_read (chosen : systemChoice s = some c) (unit : nextUnit c (channelOf s.fen c).toReq = some u)
    (reads : writesSystem s.fen c = false) (inside : c = .work ∨ insideWindow s.fen.window u.addr u.len = true) :
    ∃ t place, exec .systemPortGrant s = .next t ∧ place < 16 ∧ place ∉ placesUsed s.fen ∧
      t.fen.units = s.fen.units ++ [⟨place, c, u.addr, u.len, now s + 50000, .inFlight, false⟩] ∧
      (channelOf t.fen c).toReq = advance u.len (channelOf s.fen c).toReq ∧
      (channelOf t.fen c).toMove = (channelOf s.fen c).toMove ∧
      (∀ p slot, c = .plane p slot → t.fen.rotation.order.getLast? = some p ∧ t.fen.lastSlot.get p = slot ∧
        t.fen.audioTurn = s.fen.audioTurn) ∧
      (∀ st, c = .audio st → t.fen.audioTurn ≠ st ∧ t.fen.rotation = s.fen.rotation ∧ t.fen.lastSlot = s.fen.lastSlot) := by
  obtain ⟨place, free⟩ := freePlace_of_eligible (eligible_of_systemChoice chosen)
  obtain ⟨small, fresh⟩ := freePlace_spec free
  have fen := grantRead_fen c u place s
  rw [exec_systemPortGrant chosen unit, grantUnit_of_read (windowOk_of inside) reads free]
  generalize grantRead c u place _ = v at fen
  have channel : channelOf v.fen c = { channelOf s.fen c with toReq := advance u.len (channelOf s.fen c).toReq } := by
    rw [fen, channelOf_units, channelOf_turnAfter, channelOf_setChannel_of_busy (ne_nil_of_nextUnit unit)]
  have settled : channelOf (settle v).fen c = channelOf v.fen c := by
    refine channelOf_settle_of_standing fun e => ?_
    subst e
    obtain ⟨i, rest, list⟩ := List.exists_cons_of_ne_nil (work_ne_nil_of_unit unit)
    simp [fen, setChannel, turnAfter, list]
  refine ⟨_, place, rfl, small, fresh, by rw [settle_units, fen], by rw [settled, channel], by rw [settled, channel], fun p slot e => ?_,
    fun st e => ?_⟩
  · subst e
    rw [settle_fen, fen]
    exact ⟨rotationAfter_last p, by simp [turnAfter], by simp [turnAfter]⟩
  · subst e
    rw [settle_fen, fen]
    exact ⟨by cases st <;> simp [turnAfter, otherStream], by simp [turnAfter], by simp [turnAfter]⟩

/-! ### Units outside the window (R157) -/

theorem grantUnit_outside (work : c ≠ .work) (outside : insideWindow s.fen.window u.addr u.len = false) :
    grantUnit c u s = failChannel c u.addr false s := by
  have bad : windowOk s c u = false := by
    unfold windowOk
    split
    · exact absurd rfl work
    · exact outside
  rw [grantUnit, bad]
  rfl

theorem length_orphanUnits_le (c : ChanId) (us : List FetchUnit) : (orphanUnits c us).length ≤ us.length := by
  rw [orphanUnits, List.length_map]
  exact List.length_filter_le _ _

theorem orphanUnits_of_none {us : List FetchUnit} (h : ∀ v ∈ us, v.chan ≠ c) : orphanUnits c us = us := by
  rw [orphanUnits, List.filter_eq_self.2 fun v m => by simp [h v m]]
  exact (List.map_congr_left (g := id) fun v m => by simp [h v m]).trans (List.map_id us)

theorem stopSlot_units (p : PipeId) (slot : Nat) (s : State) :
    (stopSlot p slot s).fen.units = orphanUnits (.plane p slot) s.fen.units := setChannel_units _ _ _

/-- R82: an error of a plane reader stops the reader, whatever its plane. -/
theorem planeError_units (p : PipeId) (slot addr : Nat) (s : State) :
    (planeError p slot addr s).fen.units = orphanUnits (.plane p slot) s.fen.units := by
  have raised : ∀ (k : NoticeKind) (a b : Word) (v : State), (raise k a b v).fen = v.fen := fun k a b v =>
    (same_raise (p := .fen) (by decide)).2 rfl
  unfold planeError
  dsimp only
  split
  · exact stopSlot_units p slot s
  · split
    · rw [raised, stopSlot_units]; rfl
    · exact setChannel_units _ _ _

/-- R157: a plane reader's unit outside the window fails the reader. -/
theorem grant_of_plane_outside (chosen : systemChoice s = some (.plane p slot))
    (unit : nextUnit (.plane p slot) (channelOf s.fen (.plane p slot)).toReq = some u)
    (outside : insideWindow s.fen.window u.addr u.len = false) :
    ∃ t, exec .systemPortGrant s = .next t ∧ t.fen.units.length ≤ s.fen.units.length ∧ t.sysMem = s.sysMem ∧
      t.fen.rotation = s.fen.rotation := by
  rw [exec_systemPortGrant chosen unit, grantUnit_outside (by simp) outside]
  refine ⟨_, rfl, ?_, ?_, ?_⟩
  · rw [settle_units, failChannel_eq, tellOwner, planeError_units, channelFailed, State.setFen_fen, setChannel_units]
    exact (length_orphanUnits_le _ _).trans (length_orphanUnits_le _ _)
  · rw [settle_sysMem]; exact (same_failChannel (p := .sysMem) (by decide)).2 rfl
  · obtain ⟨rotation, -⟩ : Part.turns.same s (failChannel (.plane p slot) u.addr false s) :=
      (same_failChannel (by decide)).2 ⟨rfl, rfl, rfl⟩
    rw [settle_fen, rotation]

/-! ### Writes of WORK (R150) -/

theorem grantWork_of_write (list : s.fen.work = i :: rest) (write : i.job = .write) :
    grantWork u s = (writeSystem u.addr (i.data.take u.len) s).setFen { s.fen with
      work := if advance u.len i.chan.toReq = [] then rest
        else { i with chan := { i.chan with toReq := advance u.len i.chan.toReq, toMove := advance u.len i.chan.toReq },
                      data := i.data.drop u.len } :: rest } := by
  unfold grantWork
  simp only [list, write, reduceCtorEq, if_false, List.isEmpty_iff]
  split <;> rfl

/-- R150: a write of WORK is issued with its bytes, and the transfer goes on or leaves the list. -/
theorem grant_of_write (chosen : systemChoice s = some .work) (list : s.fen.work = i :: rest) (write : i.job = .write)
    (unit : nextUnit .work i.chan.toReq = some u) :
    ∃ t more, exec .systemPortGrant s = .next t ∧
      t.sysMem = Memory.writeBytes systemSize s.sysMem u.addr (i.data.take u.len) ∧ t.fen.units = s.fen.units ∧
      t.fen.work = (if advance u.len i.chan.toReq = [] then rest
        else { i with chan := { i.chan with toReq := advance u.len i.chan.toReq, toMove := advance u.len i.chan.toReq },
                      data := i.data.drop u.len } :: rest) ++ more := by
  have chan : channelOf s.fen .work = i.chan := by rw [channelOf, list]
  have writes : writesSystem s.fen .work = true := by simp [writesSystem, list, write]
  have granted : grantUnit .work u s = grantWork u s := by
    rw [grantUnit, if_pos (windowOk_of (.inl rfl))]
    simp [turnAfter, writes]
  rw [exec_systemPortGrant chosen (by rw [chan]; exact unit), granted, grantWork_of_write list write]
  generalize eq : State.setFen _ _ = v
  obtain ⟨more, joined⟩ := settle_work v
  refine ⟨_, more, rfl, ?_, ?_, ?_⟩
  · rw [settle_sysMem, ← eq]; rfl
  · rw [settle_units, ← eq]; rfl
  · rw [joined, ← eq]; rfl

/-! ### The settings copies (R190, R195) -/

theorem endRead_fen (x : Status) (s : State) : (endRead x s).fen = s.fen := (same_endRead (p := .fen) (by decide) (by decide)).2 rfl

theorem endRead_sto (x : Status) (s : State) : (endRead x s).sto = { s.sto with readPhase := .idle, readReq := none } := by
  unfold endRead
  dsimp only
  split <;> simp

/-- R177: the read that ends gives its request the final status. -/
theorem finalGiven_endRead {q : RecordRef} (request : s.sto.readReq = some ⟨some q⟩) (taken : s.wai.taken.any (·.isOf q) = true)
    (x : Status) : finalGiven q x (endRead x s) := by
  unfold endRead
  rw [request]
  exact finalGiven_mono (finalGiven_completeRequest taken x) (fun _ m => m) (fun _ m => m) (fun _ m => m) rfl

theorem slotCore_endRead (x : Status) (s : State) (n : Nat) : slotCore (endRead x s) n = slotCore s n := by
  unfold endRead
  dsimp only
  split
  · exact slotCore_completeRequest
  · rfl

/-- R150: the copy out writes, and no turn changes for it. -/
theorem grantUnit_of_copyOut (inside : insideWindow s.fen.window u.addr u.len = true) :
    grantUnit (.bulk .settingsOut) u s = grantCopyOut u s := by
  rw [grantUnit, if_pos (windowOk_of (.inr inside))]
  simp [turnAfter, writesSystem]

/-- R195: a write of the copy out, before the end of the command. -/
theorem grantCopyOut_spec (unit : nextUnit (.bulk .settingsOut) (bulkChannel s.fen.bulk .settingsOut).toReq = some u) :
    let left := advance u.len (bulkChannel s.fen.bulk .settingsOut).toReq
    let v := grantCopyOut u s
    ((∀ x ∈ s.fen.units, x.chan ≠ .bulk .settingsOut) → v.fen.units = s.fen.units) ∧
      (left ≠ [] → v.sto = s.sto ∧ bulkChannel v.fen.bulk .settingsOut
        = { bulkChannel s.fen.bulk .settingsOut with toReq := left, toMove := left }) ∧
      (left = [] → v.sto = { s.sto with readPhase := .idle, readReq := none } ∧
        v.fen.bulk = s.fen.bulk.filter (fun b => b.id ≠ .settingsOut)) := by
  dsimp only
  unfold grantCopyOut
  dsimp only [channelOf]
  split
  · rename_i last
    rw [List.isEmpty_iff] at last
    rw [endRead_fen, endRead_sto, (dropBulk_fen _ _).1, (dropBulk_fen _ _).2, dropBulk_sto]
    exact ⟨orphanUnits_of_none, fun more => absurd last more, fun _ => ⟨rfl, filter_setBulk _ _ _⟩⟩
  · rename_i more
    refine ⟨fun _ => rfl, fun _ => ⟨rfl, ?_⟩, fun last => absurd (List.isEmpty_iff.2 last) more⟩
    exact channelOf_setChannel_of_busy (c := .bulk .settingsOut) (ne_nil_of_nextUnit unit) _

/-- R195: a write of the copy out inside the window. -/
theorem grant_of_copyOut (chosen : systemChoice s = some (.bulk .settingsOut))
    (unit : nextUnit (.bulk .settingsOut) (bulkChannel s.fen.bulk .settingsOut).toReq = some u)
    (inside : insideWindow s.fen.window u.addr u.len = true) :
    let left := advance u.len (bulkChannel s.fen.bulk .settingsOut).toReq
    ∃ t, exec .systemPortGrant s = .next t ∧
      ((∀ v ∈ s.fen.units, v.chan ≠ .bulk .settingsOut) → t.fen.units = s.fen.units) ∧
      t.sysMem = Memory.writeBytes systemSize s.sysMem u.addr ((s.sto.readImage.drop (u.addr - s.sto.readAddr)).take u.len) ∧
      (left ≠ [] → t.sto = s.sto ∧ (bulkChannel t.fen.bulk .settingsOut).toReq = left ∧
        (bulkChannel t.fen.bulk .settingsOut).toMove = left) ∧
      (left = [] → t.sto = { s.sto with readPhase := .idle, readReq := none } ∧
        t.fen.bulk = s.fen.bulk.filter (fun b => b.id ≠ .settingsOut)) := by
  obtain ⟨units, goesOn, ends⟩ := grantCopyOut_spec unit
  have bulk : ∀ v : State, (settle v).fen.bulk = v.fen.bulk := fun v => by rw [settle_fen]
  refine ⟨_, exec_systemPortGrant chosen unit, ?_⟩
  rw [grantUnit_of_copyOut inside, settle_units, settle_sysMem, settle_sto, bulk, grantCopyOut_sysMem]
  refine ⟨units, rfl, fun more => ?_, ends⟩
  obtain ⟨sto, channel⟩ := goesOn more
  exact ⟨sto, by rw [channel], by rw [channel]⟩

/-- R157, R195: a unit of the copy out outside the window ends the read, with no notice of its own. -/
theorem grant_of_copyOut_outside (chosen : systemChoice s = some (.bulk .settingsOut))
    (unit : nextUnit (.bulk .settingsOut) (bulkChannel s.fen.bulk .settingsOut).toReq = some u)
    (outside : insideWindow s.fen.window u.addr u.len = false) :
    ∃ t, exec .systemPortGrant s = .next t ∧ t.sysMem = s.sysMem ∧
      t.sto = { s.sto with readPhase := .idle, readReq := none } ∧ slotKept .settingsState s t ∧
      t.fen.bulk = s.fen.bulk.filter (fun b => b.id ≠ .settingsOut) ∧
      (∀ q, s.sto.readReq = some ⟨some q⟩ → s.wai.taken.any (·.isOf q) = true → finalGiven q ⟨.failed, .fetch⟩ t) := by
  have same : (failChannel (.bulk .settingsOut) u.addr false s).sysMem = s.sysMem := (same_failChannel (p := .sysMem) (by decide)).2 rfl
  rw [failChannel_eq] at same
  rw [exec_systemPortGrant chosen unit, grantUnit_outside (by simp) outside, failChannel_eq]
  have wai : (dropBulk .settingsOut (channelFailed (.bulk .settingsOut) u.addr s)).wai = s.wai :=
    (same_dropBulk (p := .wai) (by decide)).2 rfl
  have sto : (dropBulk .settingsOut (channelFailed (.bulk .settingsOut) u.addr s)).sto = s.sto := dropBulk_sto _ _
  obtain ⟨-, bulk⟩ := dropBulk_fen .settingsOut (channelFailed (.bulk .settingsOut) u.addr s)
  refine ⟨_, rfl, by rw [settle_sysMem, same], ?_, slotKept_of_core ?_, ?_, fun q request taken => ?_⟩
  · rw [settle_sto, tellOwner, endRead_sto, sto]
  · rw [slotCore_settle (by decide), tellOwner, slotCore_endRead]
    exact slotCore_of_wai wai
  · rw [settle_fen, tellOwner, endRead_fen, bulk]
    exact filter_setBulk _ _ _
  · exact finalGiven_settle (finalGiven_endRead (by rw [sto]; exact request) (by rw [wai]; exact taken) _)

/-- R157, R190: a unit of the copy in outside the window ends the write. -/
theorem grant_of_copyIn_outside (chosen : systemChoice s = some (.bulk .settingsIn))
    (unit : nextUnit (.bulk .settingsIn) (bulkChannel s.fen.bulk .settingsIn).toReq = some u)
    (outside : insideWindow s.fen.window u.addr u.len = false) :
    ∃ t, exec .systemPortGrant s = .next t ∧ t.sysMem = s.sysMem ∧
      t.sto = { s.sto with writePhase := .idle, writeReq := none, lastOutcome := some .fetch } ∧
      t.fen.bulk = s.fen.bulk.filter (fun b => b.id ≠ .settingsIn) ∧
      (∀ q, s.sto.writeReq = some ⟨some q⟩ → s.wai.taken.any (·.isOf q) = true → finalGiven q ⟨.failed, .fetch⟩ t) := by
  have same : (failChannel (.bulk .settingsIn) u.addr false s).sysMem = s.sysMem := (same_failChannel (p := .sysMem) (by decide)).2 rfl
  refine ⟨_, exec_systemPortGrant chosen unit, ?_⟩
  rw [grantUnit_outside (by simp) outside, settle_sysMem]
  rw [failChannel_eq] at same ⊢
  obtain ⟨sto, bulk, -, final⟩ := settingsUnit_failed (s := s) (k := s.clockNs) (us := s.fen.units) (addr := u.addr) rfl
  exact ⟨same, sto, bulk, final⟩

end Grants

/-- Settles O50, by the kind of transfer that is granted a unit. -/
theorem systemPortGrantsOneUnit : Obligations.SystemPortGrantsOneUnit := by
  refine ⟨fun s c u chosen unit => ⟨?_, grant_of_read chosen unit, fun p slot e => ?_⟩, fun _ _ _ _ => grant_of_write,
    fun _ _ => grant_of_copyOut, fun _ _ => grant_of_copyOut_outside, fun _ _ => grant_of_copyIn_outside⟩
  · obtain ⟨r, rest, list, addr, len, limit, page⟩ := nextUnit_eq_some unit
    exact ⟨r, rest, list, addr, len, by cases c <;> exact limit, page⟩
  · subst e
    exact grant_of_plane_outside chosen unit

end Sys2Proof.Machine
